-- ==== Sys2Proof/Word.lean ====
section
/-! DEFINITION. The word types of the device (R6): a byte is 8 bits, a word 32 bits, a double-word 64 bits. -/

namespace Sys2Proof

/-- A byte, 8 bits (R6). -/
abbrev Byte := BitVec 8

/-- A word, 32 bits (R6). -/
abbrev Word := BitVec 32

/-- A double-word, 64 bits (R6). -/
abbrev Dword := BitVec 64

end Sys2Proof
end

