-- ==== Sys2Proof/Syntax.lean ====
section
/-! DEFINITION. The commands the block takes: one constructor of `Instr` per row of the table of operations and events, with what arrives from outside at that row as its operands (a frame, a written value, a sensor's reading). -/

namespace Sys2Proof

/-- The header of a frame (R239), word by word; `rsv` gathers the reserved bits in the order of the words (consumers ignore them, R10, but the check value covers them, R240). -/
structure Header where
  ver : BitVec 4
  cls : BitVec 3
  first : Bool
  type : BitVec 8
  alive : BitVec 8
  src : BitVec 16
  dst : BitVec 16
  len : BitVec 13
  port : BitVec 6
  rosterVer : BitVec 32
  addr : BitVec 64
  tag : BitVec 16
  fmt : BitVec 4
  status : BitVec 4
  arg : BitVec 32
  rsv : BitVec 29
  deriving DecidableEq, Repr

/-- A frame: its header and its payload without padding (R239, R240). -/
structure Frame where
  hdr : Header
  payload : List Byte
  deriving DecidableEq, Repr

/-- A received frame: the physical port of arrival, the arrival time in nanoseconds of the own clock (the timebase is that count with the steps and corrections of R257 and R262 added), the frame, and the check value that came with it (R240). -/
structure Rx where
  port : Nat
  time : Nat
  frame : Frame
  crc : Word
  deriving DecidableEq, Repr

/-- The activity of a core, or of the device, over the ending beat (R383): the parts of the segment time, in thousandths, in which the engines were busy in S4 × S4, in the other pairs of S4, S8 and S8W, and in H16 or B16, and in which the vector unit was busy; HBM traffic in thousandths of its peak, and port payload in thousandths of its rate. -/
structure Activity where
  s4 : Nat
  s8 : Nat
  wide : Nat
  vector : Nat
  hbm : Nat
  ports : Nat
  deriving DecidableEq, Repr

/-- A core's margins in the ending beat, its longest time from a segment's start to the last completion, and its activity (R382, R383, R389). -/
structure CoreReading where
  core : Nat
  tmargin : BitVec 12
  droop : BitVec 12
  busyNs : Nat
  act : Activity
  deriving DecidableEq, Repr

/-- The optical readings of one lane in the ending beat (R270); `biasMfr` is the lane's bias current at manufacture (R382). -/
structure LaneReading where
  port : Nat
  lane : Nat
  txPwr : BitVec 16
  rxPwr : BitVec 16
  bias : BitVec 16
  prefec : BitVec 16
  biasMfr : BitVec 16
  deriving DecidableEq, Repr

/-- One reading of a numbered sensor or counter. -/
structure Reading where
  idx : Nat
  value : Nat
  deriving DecidableEq, Repr

/-- An eye measured: its width in 1/256 UI and its height in units of 4 mV (R409). -/
structure Eye where
  width : Nat
  height : Nat
  deriving DecidableEq, Repr

/-- The eye of a millpond channel (R409). -/
structure EyeReading where
  idx : Nat
  eye : Eye
  deriving DecidableEq, Repr

/-- A storage error that has come about in memory: the home key of a byte in it, and whether the controller's code can correct it (R197 to R199). -/
structure Upset where
  key : Nat
  correctable : Bool
  deriving DecidableEq, Repr

/-- What the device measures of itself and its environment at a beat boundary: sensors, margins, activity, traffic, and what has happened to its links and memories in the beat. A quantity that is not listed was not taken, and its register keeps its value. -/
structure Readings where
  /-- die sensors 0 to 95, and stack sensors from 96, in 0.125 degrees (R382, R410) -/
  temps : List Reading
  /-- each physical core's margins and activity (R382, R383, R389) -/
  cores : List CoreReading
  /-- each lane's optics (R270) -/
  lanes : List LaneReading
  /-- eye widths of the LPDDR5X channels, taken every 4,096 beats (R382) -/
  mpEyes : List EyeReading
  /-- codewords that each physical port could not correct in the ending beat (R269) -/
  fec : List Reading
  /-- corrections that each millpond package's link ECC made in the ending beat (R198, R227) -/
  links : List Reading
  /-- storage errors that have come about (R199) -/
  upsets : List Upset
  /-- the device's activity (R383) -/
  act : Activity
  deriving DecidableEq, Repr

/-- The known-answer picks by the unit they test (R387). -/
inductive KnownUnit where
  | engine (e : Nat)
  | column (e col : Nat)
  | vector
  | shuttle
  deriving DecidableEq, Repr

/-- A known-answer pick: the physical core, the unit, the cycles left before the guard, whether it is still running when the guard comes (R157), and whether its results, if it completes, differed from the stored ones (R387). -/
structure KnownAnswer where
  core : Nat
  unit : KnownUnit
  left : Nat
  late : Bool
  mismatch : Bool
  deriving DecidableEq, Repr

/-- A commons atomic request as it reaches the port: the fields of its four double-words (R182). -/
structure AtomicReq where
  ret : Bool
  target : BitVec 26
  operand : Dword
  compare : Dword
  retAddr : Dword
  deriving DecidableEq, Repr

/-- The move jobs of the sluice that copy unit by unit (R209). -/
inductive MoveJob where
  | channel
  | rekey
  deriving DecidableEq, Repr

/-- What a scrub read found (R199). -/
inductive ScrubFinding where
  | clean
  | corrected
  | uncorrectable
  deriving DecidableEq, Repr

/-- A function with a READY bit (R444, R445): a bit of READY_MAIN, a port, a core. -/
inductive Func where
  | main (bit : Nat)
  | port (p : Nat)
  | core (c : Nat)
  deriving DecidableEq, Repr

/-- What a self-test found (R427). -/
inductive TestResult where
  | pass
  | fail
  deriving DecidableEq, Repr

/-- The reference clocks (R495). -/
inductive RefClk where
  | pcie
  | fabric
  | system
  deriving DecidableEq, Repr


/-- A read transfer on SMBus: the address that it names, and whether the host takes a packet error code (R498). -/
structure SmbRead where
  addr : BitVec 7
  pec : Bool
  deriving DecidableEq, Repr

/-- A read at the lowest address, without a code. -/
def SmbRead.plain : SmbRead := { addr := 0x58, pec := false }

/-- A word write on SMBus, with the packet error code that the host sends with it, if any (R498). -/
structure SmbWrite where
  addr : BitVec 7
  value : BitVec 16
  pec : Option (BitVec 8)
  deriving DecidableEq, Repr

/-- A write of zero at the lowest address, without a code. -/
def SmbWrite.plain : SmbWrite := { addr := 0x58, value := 0, pec := none }

/-- A configuration write of the host, by the register of the PCI Express standard that it writes (R446, R447; log entry 4). -/
inductive CfgWrite where
  | command (v : BitVec 16)
  /-- BAR n of the header -/
  | bar (n : Nat) (v : Word)
  | deviceControl (v : BitVec 16)
  | deviceStatus (v : BitVec 16)
  /-- the MSI-X capability's Enable and Function Mask -/
  | msix (enable mask : Bool)
  | uncStatus (v : Word)
  | uncMask (v : Word)
  | uncSeverity (v : Word)
  | corStatus (v : Word)
  | corMask (v : Word)
  deriving DecidableEq, Repr

/-- The commands: one constructor per row of the table of operations and events, in its order. An operand with a default is one that the rows' own fields do not name; the default is what a command spelled without it has, and stands for no rule. -/
inductive Instr where
  /-- BEAT_BOUNDARY (R19). -/
  | beatBoundary (r : Readings)
  /-- LOCAL_BEAT_BOUNDARY (R257). -/
  | localBeatBoundary
  /-- GUARD_START (R16). -/
  | guardStart (cycle : Nat := 0)
  /-- BEAT_STRETCH_REQ (R31). -/
  | beatStretchReq (v : Word)
  /-- TIME_UP_SEND (R259). -/
  | timeUpSend (now : Nat)
  /-- TIME_DOWN_SEND (R259). -/
  | timeDownSend (now : Nat)
  /-- TIME_UP (R261). -/
  | timeUp (rx : Rx)
  /-- TIME_DOWN (R262). -/
  | timeDown (rx : Rx)
  /-- TIME_UP_TIMEOUT (R263). -/
  | timeUpTimeout (child : Nat)
  /-- LIST_WORD_FETCH (R143). -/
  | listWordFetch (p t : Nat)
  /-- PICK_LOAD (R129). -/
  | pickLoad (p t : Nat) (cycle : Nat := 0)
  /-- PICK_START (R144). -/
  | pickStart (p t cycle : Nat)
  /-- HOLLOW_RETIRE (R153). -/
  | hollowRetire (p t : Nat) (cycle : Nat := 0)
  /-- NOP (R131). -/
  | nop (p t : Nat)
  /-- MATMUL (R135). -/
  | matmul (p t : Nat)
  /-- DRAIN (R69). -/
  | drain (p t : Nat)
  /-- VMAP (R132). -/
  | vmap (p : Nat)
  /-- VRED (R133). -/
  | vred (p : Nat)
  /-- VUPD (R110). -/
  | vupd (p : Nat)
  /-- MOVE (R176). -/
  | move (p : Nat)
  /-- MOVE_ADD (R178). -/
  | moveAdd (p : Nat)
  /-- CNTLOAD (R138). -/
  | cntload (p : Nat)
  /-- PLOAD (R140). -/
  | pload (p : Nat)
  /-- FLAG_PICK_SET (R185). -/
  | flagPickSet (p : Nat)
  /-- FLAG_PICK_CLEAR (R185). -/
  | flagPickClear (p : Nat)
  /-- REDUCE_SCATTER (R288). -/
  | reduceScatter (p : Nat)
  /-- ALL_REDUCE (R288). -/
  | allReduce (p : Nat)
  /-- ALL_GATHER (R288). -/
  | allGather (p : Nat)
  /-- BROADCAST (R288). -/
  | broadcast (p : Nat)
  /-- RING_PASS (R307). -/
  | ringPass (p : Nat)
  /-- VOTE (R295). -/
  | vote (p : Nat)
  /-- VOTE_WAIT_EXPIRY (R295). -/
  | voteWaitExpiry
  /-- PICK_COMPLETE (R145). -/
  | pickComplete (p t : Nat) (cycle : Nat := 0)
  /-- KNOWN_ANSWER_PICK (R387). -/
  | knownAnswerPick (k : KnownAnswer)
  /-- SEQ_CNT_WRITE (R137). -/
  | seqCntWrite (p n : Nat) (v : Word)
  /-- SEQ_LFLAG_SET (R166). -/
  | seqLflagSet (p : Nat) (v : Dword)
  /-- SEQ_LFLAG_CLR (R166). -/
  | seqLflagClr (p : Nat) (v : Dword)
  /-- FADD_I32 (R183). -/
  | faddI32 (a : AtomicReq)
  /-- FADD_I64 (R183). -/
  | faddI64 (a : AtomicReq)
  /-- FADD_F32 (R183). -/
  | faddF32 (a : AtomicReq)
  /-- CAS64 (R183). -/
  | cas64 (a : AtomicReq)
  /-- FLAG_SET (R183). -/
  | flagSet (a : AtomicReq)
  /-- FLAG_CLR (R183). -/
  | flagClr (a : AtomicReq)
  /-- ATOMIC_OP_UNDEFINED (R183). -/
  | atomicOpUndefined (op : BitVec 8) (a : AtomicReq)
  /-- ATOMIC_SLOT_FILL (R184). -/
  | atomicSlotFill (m off width : Nat) (v : Dword)
  /-- PORTHOLE_READ (R187). -/
  | portholeRead (off width : Nat)
  /-- PORTHOLE_WRITE (R187). -/
  | portholeWrite (off width : Nat) (v : Dword)
  /-- PORTHOLE_READ_TIMEOUT (R188). -/
  | portholeReadTimeout
  /-- READ_REQ (R243). -/
  | readReq (rx : Rx)
  /-- READ_RSP (R243). -/
  | readRsp (rx : Rx)
  /-- WRITE (R243). -/
  | write (rx : Rx)
  /-- ADD_WRITE (R243). -/
  | addWrite (rx : Rx)
  /-- ACK (R243). -/
  | ack (rx : Rx)
  /-- RMA_DEADLINE (R263). -/
  | rmaDeadline (tag : Nat)
  /-- HELLO (R253). -/
  | hello (rx : Rx)
  /-- PROVE (R254). -/
  | prove (rx : Rx)
  /-- ADMITTED (R253). -/
  | admitted (rx : Rx)
  /-- REJECT (R256). -/
  | reject (rx : Rx)
  /-- ADMISSION_DEADLINE (R263). -/
  | admissionDeadline (peer : Nat)
  /-- ADMISSION_RETRY (R263). -/
  | admissionRetry (peer : Nat)
  /-- CLEAR_QUAR (R274). -/
  | clearQuar
  /-- RETRY (R274). -/
  | retry
  /-- FLOW_CONTEXT_FREE (R244). -/
  | flowContextFree (flow : Nat)
  /-- LANE_FAIL (R233). -/
  | laneFail (port lane : Nat)
  /-- LASER_FAIL (R234). -/
  | laserFail (port lane : Nat) (dead : Bool)
  /-- SPARE_LASER_SETTLED (R234). -/
  | spareLaserSettled (port lane : Nat) (lit : Bool)
  /-- PORT_TRAINING_DONE (R263). -/
  | portTrainingDone (port : Nat)
  /-- PORT_TRAINING_TIMEOUT (R263). -/
  | portTrainingTimeout (port : Nat)
  /-- RESTART (R267). -/
  | restart (port : Nat)
  /-- TAKE_DOWN (R267). -/
  | takeDown (port : Nat)
  /-- CV_DATA8 (R248). -/
  | cvData8 (u : Nat) (v : Word)
  /-- CV_DATA16 (R248). -/
  | cvData16 (u : Nat) (v : Word)
  /-- CV_DATA32 (R248). -/
  | cvData32 (u : Nat) (v : Word)
  /-- CV_STATE_WRITE (R249). -/
  | cvStateWrite (u : Nat) (v : Dword)
  /-- CV_CFG_WRITE (R249). -/
  | cvCfgWrite (u : Nat) (v : Word)
  /-- CV_EXPECT (R283). -/
  | cvExpect (u : Nat) (v : Dword)
  /-- PART (R292). -/
  | part (rx : Rx)
  /-- DATA (R292). -/
  | data (rx : Rx)
  /-- RING (R292). -/
  | ring (rx : Rx)
  /-- CREADY (R293). -/
  | cready (rx : Rx)
  /-- VOTE_UP (R295). -/
  | voteUp (rx : Rx)
  /-- VOTE_DOWN (R295). -/
  | voteDown (rx : Rx)
  /-- DIGEST (R326). -/
  | digest (rx : Rx)
  /-- DIGEST_SWEEP_DONE (R324). -/
  | digestSweepDone
  /-- RETAIN_FILE_DONE (R329). -/
  | retainFileDone
  /-- RESTORE_COMPLETE (R370). -/
  | restoreComplete
  /-- REPLAY_START (R333). -/
  | replayStart
  /-- REC_CTRL_ARM (R338). -/
  | recCtrlArm
  /-- ARMED_RECOVERY_START (R338). -/
  | armedRecoveryStart
  /-- VOTE_CFG_WRITE (R299). -/
  | voteCfgWrite (v : Word)
  /-- GOV_REC_DATA_WRITE (R98). -/
  | govRecDataWrite (v : Word)
  /-- GOV_REC_DATA_READ (R122). -/
  | govRecDataRead
  /-- GOV_TEL_WRITE (R116). -/
  | govTelWrite
  /-- GOV_TEL_SIZE_WRITE (R126). -/
  | govTelSizeWrite (v : Word)
  /-- SNAPSHOT_LINE_COPY (R210). -/
  | snapshotLineCopy
  /-- SNAPSHOT_COMPLETE (R211). -/
  | snapshotComplete
  /-- CHANNEL_MOVE_START (R213). -/
  | channelMoveStart (l : Nat)
  /-- MOVE_JOB_UNIT_COPY (R209). -/
  | moveJobUnitCopy (job : MoveJob)
  /-- CHANNEL_MOVE_COMPLETE (R209). -/
  | channelMoveComplete
  /-- RETRAIN (R213). -/
  | retrain (n : Nat) (pass : Bool)
  /-- CALIBRATION (R212). -/
  | calibration (n : Nat) (eye : Eye)
  /-- SCRUB (R199). -/
  | scrub (a : Nat) (f : ScrubFinding)
  /-- REKEY_REQ (R216). -/
  | rekeyReq
  /-- REKEY_COMPLETE (R216). -/
  | rekeyComplete
  /-- HOTSPOT (R215). -/
  | hotspot
  /-- MIRROR_EXTENT_SEND (R357). -/
  | mirrorExtentSend
  /-- MIRROR_EXTENT_RESEND (R358). -/
  | mirrorExtentResend (extent : Nat)
  /-- IMG_DATA (R358). -/
  | imgData (rx : Rx)
  /-- IMG_ACK (R358). -/
  | imgAck (rx : Rx)
  /-- IMG_END (R358). -/
  | imgEnd (rx : Rx)
  /-- IMG_DONE (R358). -/
  | imgDone (rx : Rx)
  /-- IMG_REQ (R370). -/
  | imgReq (rx : Rx)
  /-- STRIPE_DATA (R363). -/
  | stripeData (rx : Rx)
  /-- STRIPE_END (R363). -/
  | stripeEnd (rx : Rx)
  /-- STRIPE_ACK (R363). -/
  | stripeAck (rx : Rx)
  /-- STRIPE_RESEND (R363). -/
  | stripeResend (stripe : Nat)
  /-- STRIPE_REQ (R370). -/
  | stripeReq (rx : Rx)
  /-- TAIL_COMMIT_RECORD (R365). -/
  | tailCommitRecord
  /-- REC_DATA (R365). -/
  | recData (rx : Rx)
  /-- REC_ACK (R365). -/
  | recAck (rx : Rx)
  /-- REC_REQ (R370). -/
  | recReq (rx : Rx)
  /-- RST_CTRL_GO (R373). -/
  | rstCtrlGo
  /-- CORE_MOVE_START (R392). -/
  | coreMoveStart
  /-- CORE_MOVE_LINE_COPY (R392). -/
  | coreMoveLineCopy
  /-- CORE_MOVE_DRAIN_DONE (R392). -/
  | coreMoveDrainDone
  /-- HEARTBEAT (R394). -/
  | heartbeat
  /-- HEARTBEAT_MISS (R394). -/
  | heartbeatMiss
  /-- STANDING_DECISION (R396). -/
  | standingDecision
  /-- SPILL_WRITEBACK (R402). -/
  | spillWriteback
  /-- HEAT_STEP_DOWN (R403). -/
  | heatStepDown (c : Nat)
  /-- UNDERATE (R412). -/
  | underate
  /-- FAN_RETIRE (R412). -/
  | fanRetire
  /-- FAN_CLEAR (R412). -/
  | fanClear
  /-- DRAFT_BEGIN (R438). -/
  | draftBegin
  /-- DRAFT_DATA (R419). -/
  | draftData (v : Word)
  /-- DRAFT_PULL (R419). -/
  | draftPull
  /-- DRAFT_ABORT (R419). -/
  | draftAbort
  /-- DRAFT_VERIFY_DONE (R420). -/
  | draftVerifyDone
  /-- DRAFT_START_AT (R423). -/
  | draftStartAt
  /-- DRAFT_PIN_CTRL_WRITE (R441). -/
  | draftPinCtrlWrite (v : Word)
  /-- SELF_TEST_DONE (R427). -/
  | selfTestDone (f : Func) (r : TestResult)
  /-- SELF_TEST_TIMEOUT (R429). -/
  | selfTestTimeout (f : Func)
  /-- FW_BEGIN (R442). -/
  | fwBegin
  /-- FW_DATA (R442). -/
  | fwData (v : Word)
  /-- FW_STAGE (R433). -/
  | fwStage
  /-- FW_STAGE_DONE (R433). -/
  | fwStageDone
  /-- FW_UPDATE (R433). -/
  | fwUpdate
  /-- FW_SYNC_START (R434). -/
  | fwSyncStart
  /-- FW_BOOT (R431). -/
  | fwBoot
  /-- FW_COMMIT_SECVER (R432). -/
  | fwCommitSecver
  /-- ATT_GO (R435). -/
  | attGo
  /-- ATT_DONE (R435). -/
  | attDone
  /-- FUNCTION_LEVEL_RESET (R452). -/
  | functionLevelReset
  /-- HOT_RESET (R452). -/
  | hotReset
  /-- LINK_LOSS (R452). -/
  | linkLoss
  /-- D3HOT (R448). -/
  | d3hot
  /-- EVT_POP (R456). -/
  | evtPop
  /-- EVT_AGE_EXPIRY (R457). -/
  | evtAgeExpiry
  /-- IRQ_STATUS_CLEAR (R458). -/
  | irqStatusClear (v : Dword)
  /-- IRQ_ENABLE_WRITE (R458). -/
  | irqEnableWrite (v : Dword)
  /-- REGISTER_WRITE (R9). -/
  | registerWrite (off width : Nat) (v : Dword)
  /-- TEN_ARM (R465). -/
  | tenArm (v : Word)
  /-- TENSION_REG_WRITE (R465). -/
  | tensionRegWrite (off width : Nat) (v : Dword)
  /-- INGRESS_DELAY_RELEASE (R468). -/
  | ingressDelayRelease (port : Nat)
  /-- TEN_LB_START (R481). -/
  | tenLbStart
  /-- TEN_LB_STOP (R481). -/
  | tenLbStop
  /-- LOOPBACK_RUN_END (R472). -/
  | loopbackRunEnd
  /-- DBG_QUIESCE_WRITE (R474). -/
  | dbgQuiesceWrite (hi : Bool) (v : Dword)
  /-- DBG_ACC_READ (R475). -/
  | dbgAccRead
  /-- DBG_ACC_WRITE (R475). -/
  | dbgAccWrite (v : Dword)
  /-- DBG_TRACE_WRITE (R476). -/
  | dbgTraceWrite
  /-- DBG_TRACE_SIZE_WRITE (R484). -/
  | dbgTraceSizeWrite (v : Word)
  /-- POWER_ON (R485). -/
  | powerOn
  /-- RESET_RELEASE (R429). -/
  | resetRelease
  /-- SIDEBAND_RESET (R489). -/
  | sidebandReset
  /-- PERST (R489). -/
  | perst
  /-- UNDERVOLTAGE_OFF (R487). -/
  | undervoltageOff
  /-- UNDERVOLTAGE_RESTART (R487). -/
  | undervoltageRestart
  /-- OVERVOLTAGE_OFF (R487). -/
  | overvoltageOff
  /-- OVERCURRENT_OFF (R487). -/
  | overcurrentOff
  /-- OVERTEMP_OFF (R487). -/
  | overtempOff
  /-- POWER_REMOVED (R488). -/
  | powerRemoved
  /-- REFCLK_LOSS (R495). -/
  | refclkLoss (k : RefClk)
  /-- MOD_ID (R498). -/
  | modId (x : SmbRead := SmbRead.plain)
  /-- VIN (R498). -/
  | vin (x : SmbRead) (reading : BitVec 16 := 0)
  /-- IIN (R498). -/
  | iin (x : SmbRead) (reading : BitVec 16 := 0)
  /-- PIN (R498). -/
  | pin (x : SmbRead) (reading : BitVec 16 := 0)
  /-- PIN_PEAK (R498). -/
  | pinPeak (x : SmbRead := SmbRead.plain) (peak : BitVec 16 := 0)
  /-- PIN_PEAK_CLEAR (R498). -/
  | pinPeakClear (x : SmbWrite := SmbWrite.plain)
  /-- TEMP_MAX (R498). -/
  | tempMax (x : SmbRead := SmbRead.plain)
  /-- PLATE_IN (R498). -/
  | plateIn (x : SmbRead) (reading : BitVec 16 := 0)
  /-- PLATE_OUT (R498). -/
  | plateOut (x : SmbRead) (reading : BitVec 16 := 0)
  /-- MOD_STATUS (R498). -/
  | modStatus (x : SmbRead := SmbRead.plain)
  /-- MOD_STATUS_WRITE (R498). -/
  | modStatusWrite (x : SmbWrite)
  /-- MALFORMED_FRAME (R255). -/
  | malformedFrame (rx : Rx)
  /-- RESTORE_REQUEST_TIMEOUT (R370). -/
  | restoreRequestTimeout (idx : Nat)
  /-- CAPTURE_READOUT_DONE (R355). -/
  | captureReadoutDone
  /-- STRIPE_SEND (R363). -/
  | stripeSend
  /-- RELOAD_COPY_DONE (R425). -/
  | reloadCopyDone (p : Nat)
  /-- JITTERED_SEGMENT_START (R468). -/
  | jitteredSegmentStart
  /-- DELAYED_FLAG_SET (R468). -/
  | delayedFlagSet (p t : Nat)
  /-- PAUSE_END (R233). -/
  | pauseEnd (port : Nat)
  /-- STAGE_RESTORE_DONE (R333). -/
  | stageRestoreDone
  /-- FW_SYNC_DONE (R433). -/
  | fwSyncDone
  /-- RETURN_TO_D0 (R448). -/
  | returnToD0
  /-- BUS_MASTER_ENABLE (R447). -/
  | busMasterEnable (w : CfgWrite)
  /-- PCIE_LOOPBACK (R473). -/
  | pcieLoopback (b : Bool)
  /-- HOST_LINK_TRAINED (R446). -/
  | hostLinkTrained (rate width : Nat) (flit : Bool)
  /-- REFCLK_RETURN (R495). -/
  | refclkReturn (k : RefClk)
  /-- VIN_WARN_CHANGE (R487). -/
  | vinWarnChange (uv ov : Bool)
  /-- COOL_WARN_CHANGE (R492). -/
  | coolWarnChange (inlet : BitVec 16) (outlet : BitVec 16 := 0)
  deriving DecidableEq, Repr

end Sys2Proof
end

