-- ==== Sys2Proof/Machine/Crc.lean ====
section
/-! DEFINITION. The check values of R247: CRC-32C, CRC-64/ECMA-182, CRC-16/CCITT, their byte updates, initial states and results, and the byte orders of R6 and R250. -/

namespace Sys2Proof.Machine

/-- The bytes of a number, least significant first (little-endian, R6). -/
def leBytes : Nat → Nat → List Byte
  | 0, _ => []
  | n + 1, v => BitVec.ofNat 8 v :: leBytes n (v / 256)

/-- The bytes of a number, most significant first (R250). -/
def beBytes (n v : Nat) : List Byte := (leBytes n v).reverse

/-- The number that bytes spell, least significant first (R6). -/
def leNat : List Byte → Nat
  | [] => 0
  | b :: bs => b.toNat + 256 * leNat bs

/-- The number that bytes spell, most significant first. -/
def beNat (bs : List Byte) : Nat := leNat bs.reverse

/-- One bit of the reflected CRC-32C (R247). -/
def crc32Bit (s : Nat) : Nat := if s % 2 = 1 then (s / 2) ^^^ 0x82F63B78 else s / 2

/-- One bit of CRC-64/ECMA-182 (R247). -/
def crc64Bit (s : Nat) : Nat :=
  if 2 ^ 63 ≤ s then (s * 2 % 2 ^ 64) ^^^ 0x42F0E1EBA9EA3693 else s * 2 % 2 ^ 64

/-- One bit of CRC-16/CCITT (R247). -/
def crc16Bit (s : Nat) : Nat := if 2 ^ 15 ≤ s then (s * 2 % 2 ^ 16) ^^^ 0x1021 else s * 2 % 2 ^ 16

/-- `f` applied n times. -/
def iter {α : Type} (f : α → α) : Nat → α → α
  | 0, a => a
  | n + 1, a => iter f n (f a)

/-- The update of a running state by one byte (R247); POLY 3 acts as 0 (R280). -/
def crcFeed (poly s : Nat) (b : Byte) : Nat :=
  match poly with
  | 1 => iter crc64Bit 8 (s ^^^ (b.toNat * 2 ^ 56))
  | 2 => iter crc16Bit 8 (s ^^^ (b.toNat * 2 ^ 8))
  | _ => iter crc32Bit 8 (s ^^^ b.toNat)

/-- The update by bytes in order. -/
def crcFeedAll (poly : Nat) : Nat → List Byte → Nat
  | s, [] => s
  | s, b :: bs => crcFeedAll poly (crcFeed poly s b) bs

/-- Initial state (R247). -/
def crcInit (poly : Nat) : Nat :=
  match poly with
  | 1 => 0
  | 2 => 0xFFFF
  | _ => 0xFFFFFFFF

/-- Width of the state in bits (R247, R282). -/
def crcWidth (poly : Nat) : Nat :=
  match poly with
  | 1 => 64
  | 2 => 16
  | _ => 32

/-- The finished value of a running state (R247). -/
def crcResult (poly s : Nat) : Nat :=
  match poly with
  | 1 => s
  | 2 => s
  | _ => s ^^^ 0xFFFFFFFF

/-- CRC-32C of bytes (R240). -/
def crc32c (bs : List Byte) : Nat := crcResult 0 (crcFeedAll 0 (crcInit 0) bs)

/-- CRC-64/ECMA-182 of bytes (R363). -/
def crc64 (bs : List Byte) : Nat := crcResult 1 (crcFeedAll 1 (crcInit 1) bs)

/-- CRC-16/CCITT of bytes. -/
def crc16 (bs : List Byte) : Nat := crcResult 2 (crcFeedAll 2 (crcInit 2) bs)

/-- A check value appended in the order of R250: CRC-32C least significant byte first, the others most significant first. -/
def crcAppend (poly v : Nat) : List Byte :=
  match poly with
  | 1 => beBytes 8 v
  | 2 => beBytes 2 v
  | _ => leBytes 4 v

end Sys2Proof.Machine
end

