-- ==== Sys2Proof/Machine/Tab.lean ====
section
/-! DEFINITION. Tables: sparse data by key, a list of pairs sorted by key. Every register file, map and context table of the state is one. -/

namespace Sys2Proof.Machine

/-- A table from natural numbers: pairs in rising order of key. -/
abbrev Tab (α : Type) := List (Nat × α)

/-- The value at a key, if the table has one. -/
def Tab.look {α : Type} : Tab α → Nat → Option α
  | [], _ => none
  | (k', v) :: t, k => if k' = k then some v else Tab.look t k

/-- The table with `v` at `k`. -/
def Tab.put {α : Type} : Tab α → Nat → α → Tab α
  | [], k, v => [(k, v)]
  | (k', v') :: t, k, v =>
    if k < k' then (k, v) :: (k', v') :: t
    else if k' = k then (k, v) :: t
    else (k', v') :: Tab.put t k v

/-- The table with nothing at `k`. -/
def Tab.del {α : Type} : Tab α → Nat → Tab α
  | [], _ => []
  | (k', v') :: t, k => if k' = k then Tab.del t k else (k', v') :: Tab.del t k

/-- The value at a key, or `d`. -/
def Tab.getD {α : Type} (t : Tab α) (k : Nat) (d : α) : α := (t.look k).getD d

/-- Whether the table has the key. -/
def Tab.has {α : Type} (t : Tab α) (k : Nat) : Bool := (t.look k).isSome

/-- The table whose value at `k` is `f` of what is there, if something is. -/
def Tab.adjust {α : Type} (t : Tab α) (k : Nat) (f : α → α) : Tab α :=
  match t.look k with
  | some v => t.put k (f v)
  | none => t

/-- Keys strictly rising, each above `lo`'s bound. -/
def Tab.rising {α : Type} : Tab α → Bool
  | [] => true
  | [_] => true
  | (k, _) :: (k', v') :: t => decide (k < k') && Tab.rising ((k', v') :: t)

/-- `a` placed in a sorted list, before its equals. -/
def sortInsert {α : Type} (le : α → α → Bool) (a : α) : List α → List α
  | [] => [a]
  | x :: xs => if le a x then a :: x :: xs else x :: sortInsert le a xs

/-- A list sorted, equals in the order they stood in. -/
def sortBy {α : Type} (le : α → α → Bool) (l : List α) : List α := l.foldr (sortInsert le) []

end Sys2Proof.Machine
end

