-- ==== Sys2Proof/Machine/Regs.lean ====
section
/-! DEFINITION. The register words of the global register index (R463) and their fields: for each register the offset in the register space of its first instance, for each field its place, and one table of widths, instance strides, access masks (R7) and power-on values (R8).
The names and numbers are the field tables' of spec/01 to spec/15; the rule a register comes from stands at its `adr`. -/

namespace Sys2Proof.Machine

/-- A field of a register word: the word's offset in the register space, its lowest bit, its width. -/
structure Fld where
  off : Nat
  lo : Nat
  w : Nat
  deriving DecidableEq, Repr

/-- The same field of the instance that lies `d` bytes further on. -/
def Fld.at (f : Fld) (d : Nat) : Fld := { f with off := f.off + d }

/-- One register of the index: first offset, width in bytes, instance dimensions (stride, count) from the widest, the bits a write sets (RW), the bits a write of 1 clears (W1C), the value at power-on. -/
structure RegRow where
  base : Nat
  bytes : Nat
  dims : List (Nat × Nat)
  rw : Nat
  w1c : Nat
  rst : Nat
  deriving DecidableEq, Repr

namespace R

/-- BEAT_CFG: R29 (01_the_weave.md), 64 bits. -/
def BEAT_CFG.adr : Nat := 0x30000
def BEAT_CFG.PERIOD : Fld := ⟨0x30000, 0, 24⟩
def BEAT_CFG.GUARD_PM : Fld := ⟨0x30000, 24, 8⟩
def BEAT_CFG.WEAVE : Fld := ⟨0x30000, 32, 1⟩
def BEAT_CFG.WINDOW_N : Fld := ⟨0x30000, 33, 4⟩
/-- BEAT_NOW: R30 (01_the_weave.md), 64 bits. -/
def BEAT_NOW.adr : Nat := 0x30008
def BEAT_NOW.BEAT : Fld := ⟨0x30008, 0, 64⟩
/-- BEAT_STRETCH: R31 (01_the_weave.md), 32 bits. -/
def BEAT_STRETCH.adr : Nat := 0x30010
def BEAT_STRETCH.REQ : Fld := ⟨0x30010, 0, 5⟩
def BEAT_STRETCH.CUR : Fld := ⟨0x30010, 8, 5⟩
def BEAT_STRETCH.NEXT : Fld := ⟨0x30010, 16, 5⟩
def BEAT_STRETCH.NEXT_VALID : Fld := ⟨0x30010, 21, 1⟩
/-- BEAT_STATUS: R32 (01_the_weave.md), 32 bits. -/
def BEAT_STATUS.adr : Nat := 0x30018
def BEAT_STATUS.RUNNING : Fld := ⟨0x30018, 0, 1⟩
def BEAT_STATUS.ALIGNED : Fld := ⟨0x30018, 1, 1⟩
def BEAT_STATUS.OVERRUN : Fld := ⟨0x30018, 2, 1⟩
def BEAT_STATUS.LATE_STRETCH : Fld := ⟨0x30018, 3, 1⟩
def BEAT_STATUS.COMMIT_FAULT : Fld := ⟨0x30018, 4, 1⟩
def BEAT_STATUS.OFFSET_NS : Fld := ⟨0x30018, 16, 8⟩
/-- ENG_CFG: R87 (03_matrix_engine.md), 32 bits. -/
def ENG_CFG.adr : Nat := 0x1008000
def ENG_CFG.CK_COLS : Fld := ⟨0x1008000, 0, 4⟩
def ENG_CFG.REP_COLS : Fld := ⟨0x1008000, 4, 4⟩
def ENG_CFG.CK_AVAIL : Fld := ⟨0x1008000, 8, 1⟩
def ENG_CFG.SLOTS_M1 : Fld := ⟨0x1008000, 16, 4⟩
/-- ENG_COLMAP: R88 (03_matrix_engine.md), 64 bits. -/
def ENG_COLMAP.adr : Nat := 0x1008008
/-- ENG_STATUS: R89 (03_matrix_engine.md), 32 bits. -/
def ENG_STATUS.adr : Nat := 0x1008010
def ENG_STATUS.BUSY : Fld := ⟨0x1008010, 0, 1⟩
def ENG_STATUS.QUIESCED : Fld := ⟨0x1008010, 1, 1⟩
def ENG_STATUS.FLAGS_SEEN : Fld := ⟨0x1008010, 8, 6⟩
def ENG_STATUS.FNF_OVER : Fld := ⟨0x1008010, 16, 1⟩
def ENG_STATUS.CKF_OVER : Fld := ⟨0x1008010, 17, 1⟩
def ENG_STATUS.CK_LOST : Fld := ⟨0x1008010, 18, 1⟩
/-- ENG_TILE_STATUS: R90 (03_matrix_engine.md), 32 bits. -/
def ENG_TILE_STATUS.adr : Nat := 0x1008040
def ENG_TILE_STATUS.NANIN : Fld := ⟨0x1008040, 0, 1⟩
def ENG_TILE_STATUS.ZXI : Fld := ⟨0x1008040, 1, 1⟩
def ENG_TILE_STATUS.IXI : Fld := ⟨0x1008040, 2, 1⟩
def ENG_TILE_STATUS.SAT : Fld := ⟨0x1008040, 3, 1⟩
def ENG_TILE_STATUS.INEXACT_ALIGN : Fld := ⟨0x1008040, 4, 1⟩
def ENG_TILE_STATUS.CKSUM : Fld := ⟨0x1008040, 5, 1⟩
def ENG_TILE_STATUS.IN_USE : Fld := ⟨0x1008040, 8, 1⟩
/-- ENG_FNF0: R91 (03_matrix_engine.md), 64 bits. -/
def ENG_FNF0.adr : Nat := 0x1008100
def ENG_FNF0.VALID : Fld := ⟨0x1008100, 0, 1⟩
def ENG_FNF0.KIND : Fld := ⟨0x1008100, 1, 3⟩
def ENG_FNF0.SLOT : Fld := ⟨0x1008100, 4, 3⟩
def ENG_FNF0.OUT_ROW : Fld := ⟨0x1008100, 8, 7⟩
def ENG_FNF0.OUT_COL : Fld := ⟨0x1008100, 16, 7⟩
def ENG_FNF0.BROW : Fld := ⟨0x1008100, 24, 5⟩
def ENG_FNF0.BLOCK : Fld := ⟨0x1008100, 29, 2⟩
def ENG_FNF0.OPP_ROW : Fld := ⟨0x1008100, 32, 7⟩
def ENG_FNF0.PICK : Fld := ⟨0x1008100, 40, 11⟩
def ENG_FNF0.A_NONFIN : Fld := ⟨0x1008100, 51, 1⟩
def ENG_FNF0.W_NONFIN : Fld := ⟨0x1008100, 52, 1⟩
def ENG_FNF0.FROM_TILE : Fld := ⟨0x1008100, 53, 1⟩
/-- ENG_FNF1: R91 (03_matrix_engine.md), 64 bits. -/
def ENG_FNF1.adr : Nat := 0x1008108
def ENG_FNF1.BEAT : Fld := ⟨0x1008108, 0, 64⟩
/-- ENG_CKF0: R93 (03_matrix_engine.md), 64 bits. -/
def ENG_CKF0.adr : Nat := 0x1008120
def ENG_CKF0.VALID : Fld := ⟨0x1008120, 0, 1⟩
def ENG_CKF0.KIND : Fld := ⟨0x1008120, 1, 1⟩
def ENG_CKF0.SLOT : Fld := ⟨0x1008120, 4, 3⟩
def ENG_CKF0.OUT_ROW : Fld := ⟨0x1008120, 8, 7⟩
def ENG_CKF0.DISAGREE : Fld := ⟨0x1008120, 16, 4⟩
def ENG_CKF0.KPASS : Fld := ⟨0x1008120, 20, 3⟩
def ENG_CKF0.COL : Fld := ⟨0x1008120, 32, 7⟩
def ENG_CKF0.PICK : Fld := ⟨0x1008120, 40, 11⟩
/-- ENG_CKF1: R93 (03_matrix_engine.md), 64 bits. -/
def ENG_CKF1.adr : Nat := 0x1008128
def ENG_CKF1.BEAT : Fld := ⟨0x1008128, 0, 64⟩
/-- ENG_PASSES: R94 (03_matrix_engine.md), 64 bits. -/
def ENG_PASSES.adr : Nat := 0x1008200
def ENG_PASSES.COUNT : Fld := ⟨0x1008200, 0, 64⟩
/-- ENG_CK_COMPARES: R94 (03_matrix_engine.md), 64 bits. -/
def ENG_CK_COMPARES.adr : Nat := 0x1008208
def ENG_CK_COMPARES.COUNT : Fld := ⟨0x1008208, 0, 64⟩
/-- ENG_CK_SKIPPED: R94 (03_matrix_engine.md), 64 bits. -/
def ENG_CK_SKIPPED.adr : Nat := 0x1008210
def ENG_CK_SKIPPED.COUNT : Fld := ⟨0x1008210, 0, 64⟩
/-- ENG_CK_FAILS: R95 (03_matrix_engine.md), 32 bits. -/
def ENG_CK_FAILS.adr : Nat := 0x1008218
def ENG_CK_FAILS.COUNT : Fld := ⟨0x1008218, 0, 32⟩
/-- GOV_CFG: R120 (04_scaling_and_weight_update.md), 32 bits. -/
def GOV_CFG.adr : Nat := 0x60000
def GOV_CFG.RECORDS : Fld := ⟨0x60000, 0, 15⟩
def GOV_CFG.MEAS_STEPS : Fld := ⟨0x60000, 16, 7⟩
/-- GOV_STATUS: R121 (04_scaling_and_weight_update.md), 32 bits. -/
def GOV_STATUS.adr : Nat := 0x60008
def GOV_STATUS.COLD_COUNT : Fld := ⟨0x60008, 0, 15⟩
def GOV_STATUS.MEAS_LEFT : Fld := ⟨0x60008, 16, 7⟩
def GOV_STATUS.MEASURING : Fld := ⟨0x60008, 23, 1⟩
def GOV_STATUS.NONFIN_STEP : Fld := ⟨0x60008, 24, 1⟩
def GOV_STATUS.TEL_DROP : Fld := ⟨0x60008, 25, 1⟩
def GOV_STATUS.REC_WR_REJ : Fld := ⟨0x60008, 26, 1⟩
/-- GOV_REC_SEL: R122 (04_scaling_and_weight_update.md), 32 bits. -/
def GOV_REC_SEL.adr : Nat := 0x60010
def GOV_REC_SEL.WORD : Fld := ⟨0x60010, 0, 7⟩
def GOV_REC_SEL.ID : Fld := ⟨0x60010, 16, 14⟩
def GOV_REC_SEL.AUTOINC : Fld := ⟨0x60010, 30, 1⟩
/-- GOV_REC_DATA: R123 (04_scaling_and_weight_update.md), 32 bits. -/
def GOV_REC_DATA.adr : Nat := 0x60018
def GOV_REC_DATA.DATA : Fld := ⟨0x60018, 0, 32⟩
/-- GOV_SEED: R124 (04_scaling_and_weight_update.md), 64 bits. -/
def GOV_SEED.adr : Nat := 0x60020
def GOV_SEED.SEED : Fld := ⟨0x60020, 0, 64⟩
/-- GOV_TEL_BASE: R125 (04_scaling_and_weight_update.md), 64 bits. -/
def GOV_TEL_BASE.adr : Nat := 0x60028
def GOV_TEL_BASE.BASE : Fld := ⟨0x60028, 8, 40⟩
/-- GOV_TEL_SIZE: R126 (04_scaling_and_weight_update.md), 32 bits. -/
def GOV_TEL_SIZE.adr : Nat := 0x60030
def GOV_TEL_SIZE.ENTRIES : Fld := ⟨0x60030, 0, 32⟩
/-- GOV_TEL_HEAD: R126 (04_scaling_and_weight_update.md), 32 bits. -/
def GOV_TEL_HEAD.adr : Nat := 0x60038
def GOV_TEL_HEAD.HEAD : Fld := ⟨0x60038, 0, 32⟩
/-- GOV_TEL_TAIL: R126 (04_scaling_and_weight_update.md), 32 bits. -/
def GOV_TEL_TAIL.adr : Nat := 0x6003c
def GOV_TEL_TAIL.TAIL : Fld := ⟨0x6003c, 0, 32⟩
/-- GOV_TH_SAT: R127 (04_scaling_and_weight_update.md), 32 bits. -/
def GOV_TH_SAT.adr : Nat := 0x60040
def GOV_TH_SAT.SHARE : Fld := ⟨0x60040, 0, 24⟩
/-- GOV_TH_VAN: R127 (04_scaling_and_weight_update.md), 32 bits. -/
def GOV_TH_VAN.adr : Nat := 0x60044
def GOV_TH_VAN.SHARE : Fld := ⟨0x60044, 0, 24⟩
/-- GOV_TH_MINCONV: R127 (04_scaling_and_weight_update.md), 32 bits. -/
def GOV_TH_MINCONV.adr : Nat := 0x60048
def GOV_TH_MINCONV.MIN : Fld := ⟨0x60048, 0, 32⟩
/-- GOV_TH_RATIO_HI: R128 (04_scaling_and_weight_update.md), 32 bits. -/
def GOV_TH_RATIO_HI.adr : Nat := 0x6004c
def GOV_TH_RATIO_HI.RATIO : Fld := ⟨0x6004c, 0, 32⟩
/-- GOV_TH_RATIO_LO: R128 (04_scaling_and_weight_update.md), 32 bits. -/
def GOV_TH_RATIO_LO.adr : Nat := 0x60050
def GOV_TH_RATIO_LO.RATIO : Fld := ⟨0x60050, 0, 32⟩
/-- GOV_TEL_DROPS: R128 (04_scaling_and_weight_update.md), 32 bits. -/
def GOV_TEL_DROPS.adr : Nat := 0x60058
def GOV_TEL_DROPS.COUNT : Fld := ⟨0x60058, 0, 32⟩
/-- SEQ_CFG: R159 (05_picks_and_sequencer.md), 32 bits. -/
def SEQ_CFG.adr : Nat := 0x1000000
def SEQ_CFG.LOGICAL : Fld := ⟨0x1000000, 0, 6⟩
def SEQ_CFG.ACTIVE : Fld := ⟨0x1000000, 6, 1⟩
def SEQ_CFG.ENG_PRESENT : Fld := ⟨0x1000000, 8, 4⟩
def SEQ_CFG.LCORES : Fld := ⟨0x1000000, 16, 7⟩
/-- SEQ_BEATS: R160 (05_picks_and_sequencer.md), 64 bits. -/
def SEQ_BEATS.adr : Nat := 0x1000008
def SEQ_BEATS.B_TRAIN : Fld := ⟨0x1000008, 0, 16⟩
def SEQ_BEATS.B_MEAS : Fld := ⟨0x1000008, 16, 16⟩
def SEQ_BEATS.B_CLOSE : Fld := ⟨0x1000008, 32, 16⟩
/-- SEQ_LAST_STEP: R160 (05_picks_and_sequencer.md), 64 bits. -/
def SEQ_LAST_STEP.adr : Nat := 0x1000010
def SEQ_LAST_STEP.STEP : Fld := ⟨0x1000010, 0, 64⟩
/-- SEQ_LIST: R161 (05_picks_and_sequencer.md), 32 bits. -/
def SEQ_LIST.adr : Nat := 0x1000040
def SEQ_LIST.OFFSET : Fld := ⟨0x1000040, 2, 21⟩
/-- TR_STATE: R162 (05_picks_and_sequencer.md), 32 bits. -/
def TR_STATE.adr : Nat := 0x1000100
def TR_STATE.STATE : Fld := ⟨0x1000100, 0, 3⟩
def TR_STATE.ABSENT : Fld := ⟨0x1000100, 3, 1⟩
def TR_STATE.REFUSED : Fld := ⟨0x1000100, 4, 1⟩
def TR_STATE.OVERRUN : Fld := ⟨0x1000100, 5, 1⟩
def TR_STATE.FAILED : Fld := ⟨0x1000100, 6, 1⟩
def TR_STATE.PICK : Fld := ⟨0x1000100, 8, 11⟩
/-- TR_POS: R163 (05_picks_and_sequencer.md), 64 bits. -/
def TR_POS.adr : Nat := 0x1000108
def TR_POS.WORD : Fld := ⟨0x1000108, 0, 32⟩
def TR_POS.SEGMENT : Fld := ⟨0x1000108, 32, 16⟩
def TR_POS.KIND : Fld := ⟨0x1000108, 48, 2⟩
/-- TR_FAULT: R164 (05_picks_and_sequencer.md), 64 bits. -/
def TR_FAULT.adr : Nat := 0x1000110
def TR_FAULT.CAUSE : Fld := ⟨0x1000110, 0, 4⟩
def TR_FAULT.REASON : Fld := ⟨0x1000110, 4, 8⟩
def TR_FAULT.PICK : Fld := ⟨0x1000110, 12, 11⟩
def TR_FAULT.VALID : Fld := ⟨0x1000110, 23, 1⟩
def TR_FAULT.WORD : Fld := ⟨0x1000110, 24, 32⟩
def TR_FAULT.WGRP : Fld := ⟨0x1000110, 56, 6⟩
/-- TR_FAULT_BEAT: R164 (05_picks_and_sequencer.md), 64 bits. -/
def TR_FAULT_BEAT.adr : Nat := 0x1000118
def TR_FAULT_BEAT.BEAT : Fld := ⟨0x1000118, 0, 64⟩
/-- TR_FAULT_WLOC: R164 (05_picks_and_sequencer.md), 64 bits. -/
def TR_FAULT_WLOC.adr : Nat := 0x1000120
def TR_FAULT_WLOC.PENDING : Fld := ⟨0x1000120, 0, 64⟩
/-- TR_FAULT_WCHIP: R164 (05_picks_and_sequencer.md), 64 bits. -/
def TR_FAULT_WCHIP.adr : Nat := 0x1000128
def TR_FAULT_WCHIP.PENDING : Fld := ⟨0x1000128, 0, 64⟩
/-- SEQ_CNT: R165 (05_picks_and_sequencer.md), 32 bits. -/
def SEQ_CNT.adr : Nat := 0x1000400
def SEQ_CNT.COUNT : Fld := ⟨0x1000400, 0, 32⟩
/-- SEQ_LFLAGS: R166 (05_picks_and_sequencer.md), 64 bits. -/
def SEQ_LFLAGS.adr : Nat := 0x1000500
def SEQ_LFLAGS.FLAGS : Fld := ⟨0x1000500, 0, 64⟩
/-- SEQ_LFLAG_SET: R166 (05_picks_and_sequencer.md), 64 bits. -/
def SEQ_LFLAG_SET.adr : Nat := 0x1000508
def SEQ_LFLAG_SET.SET : Fld := ⟨0x1000508, 0, 64⟩
/-- SEQ_LFLAG_CLR: R166 (05_picks_and_sequencer.md), 64 bits. -/
def SEQ_LFLAG_CLR.adr : Nat := 0x1000510
def SEQ_LFLAG_CLR.CLR : Fld := ⟨0x1000510, 0, 64⟩
/-- PORTHOLE_BASE: R195 (06_address_space_and_core_memory.md), 64 bits. -/
def PORTHOLE_BASE.adr : Nat := 0x100
def PORTHOLE_BASE.BASE : Fld := ⟨0x100, 12, 36⟩
def PORTHOLE_BASE.DEVICE : Fld := ⟨0x100, 48, 16⟩
/-- PORTHOLE_STATUS: R196 (06_address_space_and_core_memory.md), 32 bits. -/
def PORTHOLE_STATUS.adr : Nat := 0x108
def PORTHOLE_STATUS.BAD_ACCESS : Fld := ⟨0x108, 0, 1⟩
def PORTHOLE_STATUS.UNMAPPED : Fld := ⟨0x108, 1, 1⟩
def PORTHOLE_STATUS.TIMEOUT : Fld := ⟨0x108, 2, 1⟩
def PORTHOLE_STATUS.BUSY : Fld := ⟨0x108, 3, 1⟩
def PORTHOLE_STATUS.POSTED : Fld := ⟨0x108, 4, 6⟩
/-- SLU_STATUS: R218 (07_hbm_and_millpond.md), 32 bits. -/
def SLU_STATUS.adr : Nat := 0x100000
def SLU_STATUS.SNAP_ACTIVE : Fld := ⟨0x100000, 0, 1⟩
def SLU_STATUS.CHMOVE_ACTIVE : Fld := ⟨0x100000, 1, 1⟩
def SLU_STATUS.REKEY_ACTIVE : Fld := ⟨0x100000, 2, 1⟩
def SLU_STATUS.REKEY_PENDING : Fld := ⟨0x100000, 3, 1⟩
def SLU_STATUS.SNAP_SKIPPED : Fld := ⟨0x100000, 4, 1⟩
def SLU_STATUS.SNAP_ABORTED : Fld := ⟨0x100000, 5, 1⟩
def SLU_STATUS.SNAP_BAD : Fld := ⟨0x100000, 6, 1⟩
def SLU_STATUS.SNAP_VALID : Fld := ⟨0x100000, 7, 1⟩
/-- SLU_CTRL: R218 (07_hbm_and_millpond.md), 32 bits. -/
def SLU_CTRL.adr : Nat := 0x100004
def SLU_CTRL.REKEY_REQ : Fld := ⟨0x100004, 0, 1⟩
def SLU_CTRL.AUTO_REKEY : Fld := ⟨0x100004, 1, 1⟩
/-- SLU_SNAP: R219 (07_hbm_and_millpond.md), 64 bits. -/
def SLU_SNAP.adr : Nat := 0x100008
def SLU_SNAP.W : Fld := ⟨0x100008, 0, 22⟩
def SLU_SNAP.LINES : Fld := ⟨0x100008, 32, 22⟩
/-- SLU_SNAP_STEP: R219 (07_hbm_and_millpond.md), 64 bits. -/
def SLU_SNAP_STEP.adr : Nat := 0x100010
def SLU_SNAP_STEP.STEP : Fld := ⟨0x100010, 0, 64⟩
/-- SLU_FORCED: R219 (07_hbm_and_millpond.md), 64 bits. -/
def SLU_FORCED.adr : Nat := 0x100018
def SLU_FORCED.COUNT : Fld := ⟨0x100018, 0, 64⟩
/-- SLU_CHMOVE: R220 (07_hbm_and_millpond.md), 64 bits. -/
def SLU_CHMOVE.adr : Nat := 0x100020
def SLU_CHMOVE.W : Fld := ⟨0x100020, 0, 24⟩
def SLU_CHMOVE.LOGICAL : Fld := ⟨0x100020, 24, 8⟩
def SLU_CHMOVE.SRC : Fld := ⟨0x100020, 32, 8⟩
def SLU_CHMOVE.DEST : Fld := ⟨0x100020, 40, 8⟩
def SLU_CHMOVE.SRC_FB : Fld := ⟨0x100020, 48, 1⟩
def SLU_CHMOVE.DEST_FB : Fld := ⟨0x100020, 49, 1⟩
/-- SLU_REKEY: R220 (07_hbm_and_millpond.md), 64 bits. -/
def SLU_REKEY.adr : Nat := 0x100028
def SLU_REKEY.W : Fld := ⟨0x100028, 0, 24⟩
/-- SLU_SALT: R221 (07_hbm_and_millpond.md), 64 bits. -/
def SLU_SALT.adr : Nat := 0x100100
def SLU_SALT.SALT : Fld := ⟨0x100100, 0, 64⟩
/-- SLU_NEWSALT: R221 (07_hbm_and_millpond.md), 64 bits. -/
def SLU_NEWSALT.adr : Nat := 0x100108
def SLU_NEWSALT.SALT : Fld := ⟨0x100108, 0, 64⟩
/-- MEM_HOT_CFG: R222 (07_hbm_and_millpond.md), 32 bits. -/
def MEM_HOT_CFG.adr : Nat := 0x100110
def MEM_HOT_CFG.RATIO : Fld := ⟨0x100110, 0, 8⟩
def MEM_HOT_CFG.BEATS : Fld := ⟨0x100110, 8, 24⟩
/-- MEM_HOT_STATUS: R222 (07_hbm_and_millpond.md), 32 bits. -/
def MEM_HOT_STATUS.adr : Nat := 0x100118
def MEM_HOT_STATUS.RUN : Fld := ⟨0x100118, 0, 24⟩
def MEM_HOT_STATUS.CHANNEL : Fld := ⟨0x100118, 24, 8⟩
/-- MEM_PART: R223 (07_hbm_and_millpond.md), 64 bits. -/
def MEM_PART.adr : Nat := 0x100140
def MEM_PART.BASE : Fld := ⟨0x100140, 0, 10⟩
def MEM_PART.SIZE : Fld := ⟨0x100140, 16, 10⟩
/-- MEM_REG: R223 (07_hbm_and_millpond.md), 64 bits. -/
def MEM_REG.adr : Nat := 0x100180
def MEM_REG.RATE : Fld := ⟨0x100180, 0, 16⟩
def MEM_REG.BURST : Fld := ⟨0x100180, 16, 16⟩
def MEM_REG.BORROW : Fld := ⟨0x100180, 32, 1⟩
/-- MEM_PART_BYTES: R223 (07_hbm_and_millpond.md), 64 bits. -/
def MEM_PART_BYTES.adr : Nat := 0x1001c0
def MEM_PART_BYTES.COUNT : Fld := ⟨0x1001c0, 0, 64⟩
/-- HBM_STATUS: R224 (07_hbm_and_millpond.md), 32 bits. -/
def HBM_STATUS.adr : Nat := 0x2000000
def HBM_STATUS.IN_SERVICE : Fld := ⟨0x2000000, 0, 1⟩
def HBM_STATUS.SPARES_FREE : Fld := ⟨0x2000000, 1, 2⟩
def HBM_STATUS.FALLEN : Fld := ⟨0x2000000, 3, 3⟩
def HBM_STATUS.NO_FALLBACK : Fld := ⟨0x2000000, 6, 1⟩
def HBM_STATUS.LOOPBACK : Fld := ⟨0x2000000, 7, 1⟩
/-- HBM_TEST: R224 (07_hbm_and_millpond.md), 32 bits. -/
def HBM_TEST.adr : Nat := 0x2000008
def HBM_TEST.LOOP : Fld := ⟨0x2000008, 0, 2⟩
/-- HBM_CH_MAP: R225 (07_hbm_and_millpond.md), 32 bits. -/
def HBM_CH_MAP.adr : Nat := 0x2000100
def HBM_CH_MAP.LOGICAL : Fld := ⟨0x2000100, 0, 8⟩
def HBM_CH_MAP.STATE : Fld := ⟨0x2000100, 8, 3⟩
/-- HBM_CH_ERR: R225 (07_hbm_and_millpond.md), 64 bits. -/
def HBM_CH_ERR.adr : Nat := 0x2000200
def HBM_CH_ERR.CORR : Fld := ⟨0x2000200, 0, 32⟩
def HBM_CH_ERR.UNCORR : Fld := ⟨0x2000200, 32, 16⟩
def HBM_CH_ERR.CAL : Fld := ⟨0x2000200, 48, 16⟩
/-- HBM_OCC: R225 (07_hbm_and_millpond.md), 32 bits. -/
def HBM_OCC.adr : Nat := 0x2000400
def HBM_OCC.GRANULES : Fld := ⟨0x2000400, 0, 32⟩
/-- MP_REGION: R226 (07_hbm_and_millpond.md), 64 bits. -/
def MP_REGION.adr : Nat := 0x2400100
def MP_REGION.BASE : Fld := ⟨0x2400100, 0, 9⟩
def MP_REGION.SIZE : Fld := ⟨0x2400100, 16, 9⟩
/-- MP_FB_SLOT: R226 (07_hbm_and_millpond.md), 32 bits. -/
def MP_FB_SLOT.adr : Nat := 0x2400140
def MP_FB_SLOT.LOGICAL : Fld := ⟨0x2400140, 0, 8⟩
def MP_FB_SLOT.USED : Fld := ⟨0x2400140, 8, 1⟩
/-- MP_ERR: R227 (07_hbm_and_millpond.md), 64 bits. -/
def MP_ERR.adr : Nat := 0x2400200
def MP_ERR.CORR : Fld := ⟨0x2400200, 0, 32⟩
def MP_ERR.UNCORR : Fld := ⟨0x2400200, 32, 16⟩
def MP_ERR.LINK : Fld := ⟨0x2400200, 48, 16⟩
/-- MP_TEST: R227 (07_hbm_and_millpond.md), 32 bits. -/
def MP_TEST.adr : Nat := 0x2400008
def MP_TEST.LOOP : Fld := ⟨0x2400008, 0, 16⟩
/-- PORT_STATUS: R266 (08_fabric_links.md), 32 bits. -/
def PORT_STATUS.adr : Nat := 0x2800000
def PORT_STATUS.STATE : Fld := ⟨0x2800000, 0, 3⟩
def PORT_STATUS.TX_WIDTH : Fld := ⟨0x2800000, 4, 4⟩
def PORT_STATUS.RX_WIDTH : Fld := ⟨0x2800000, 8, 4⟩
def PORT_STATUS.LOGICAL : Fld := ⟨0x2800000, 12, 6⟩
def PORT_STATUS.MAPPED : Fld := ⟨0x2800000, 18, 1⟩
def PORT_STATUS.SPARE : Fld := ⟨0x2800000, 19, 1⟩
def PORT_STATUS.DOWN_CAUSE : Fld := ⟨0x2800000, 20, 4⟩
/-- PORT_CTRL: R267 (08_fabric_links.md), 32 bits. -/
def PORT_CTRL.adr : Nat := 0x2800004
def PORT_CTRL.RESTART : Fld := ⟨0x2800004, 0, 1⟩
def PORT_CTRL.TAKE_DOWN : Fld := ⟨0x2800004, 1, 1⟩
def PORT_CTRL.LOOP : Fld := ⟨0x2800004, 2, 2⟩
/-- PORT_SPARE_PLANE: R267 (08_fabric_links.md), 32 bits. -/
def PORT_SPARE_PLANE.adr : Nat := 0x280000c
def PORT_SPARE_PLANE.PLANE : Fld := ⟨0x280000c, 0, 6⟩
def PORT_SPARE_PLANE.CABLED : Fld := ⟨0x280000c, 6, 1⟩
/-- PORT_LANES: R268 (08_fabric_links.md), 32 bits. -/
def PORT_LANES.adr : Nat := 0x2800008
def PORT_LANES.TX_ACTIVE : Fld := ⟨0x2800008, 0, 8⟩
def PORT_LANES.RX_ACTIVE : Fld := ⟨0x2800008, 8, 8⟩
def PORT_LANES.SPARE_LASER : Fld := ⟨0x2800008, 16, 8⟩
def PORT_LANES.LASER_DEAD : Fld := ⟨0x2800008, 24, 8⟩
/-- PORT_ERR0: R269 (08_fabric_links.md), 64 bits. -/
def PORT_ERR0.adr : Nat := 0x2800010
def PORT_ERR0.CRC : Fld := ⟨0x2800010, 0, 32⟩
def PORT_ERR0.FEC_UNCORR : Fld := ⟨0x2800010, 32, 32⟩
/-- PORT_ERR1: R269 (08_fabric_links.md), 64 bits. -/
def PORT_ERR1.adr : Nat := 0x2800018
def PORT_ERR1.LOST : Fld := ⟨0x2800018, 0, 32⟩
def PORT_ERR1.REPEAT : Fld := ⟨0x2800018, 32, 16⟩
def PORT_ERR1.LATE : Fld := ⟨0x2800018, 48, 16⟩
/-- PORT_OPT: R270 (08_fabric_links.md), 64 bits. -/
def PORT_OPT.adr : Nat := 0x2800100
def PORT_OPT.TX_PWR : Fld := ⟨0x2800100, 0, 16⟩
def PORT_OPT.RX_PWR : Fld := ⟨0x2800100, 16, 16⟩
def PORT_OPT.BIAS : Fld := ⟨0x2800100, 32, 16⟩
def PORT_OPT.PREFEC : Fld := ⟨0x2800100, 48, 16⟩
/-- LPE_STATUS: R271 (08_fabric_links.md), 32 bits. -/
def LPE_STATUS.adr : Nat := 0x2c00000
def LPE_STATUS.LOGICAL : Fld := ⟨0x2c00000, 0, 3⟩
def LPE_STATUS.ACTIVE : Fld := ⟨0x2c00000, 3, 1⟩
def LPE_STATUS.RETIRED : Fld := ⟨0x2c00000, 4, 1⟩
/-- LPE_TX: R271 (08_fabric_links.md), 64 bits. -/
def LPE_TX.adr : Nat := 0x2c00008
def LPE_TX.COUNT : Fld := ⟨0x2c00008, 0, 64⟩
/-- LPE_RX: R271 (08_fabric_links.md), 64 bits. -/
def LPE_RX.adr : Nat := 0x2c00010
def LPE_RX.COUNT : Fld := ⟨0x2c00010, 0, 64⟩
/-- SEL_STATUS: R272 (08_fabric_links.md), 32 bits. -/
def SEL_STATUS.adr : Nat := 0x3000000
def SEL_STATUS.ADMITTED : Fld := ⟨0x3000000, 0, 17⟩
def SEL_STATUS.ADMITTING : Fld := ⟨0x3000000, 24, 1⟩
def SEL_STATUS.ROSTER : Fld := ⟨0x3000000, 25, 1⟩
/-- SEL_PEER_SEL: R273 (08_fabric_links.md), 32 bits. -/
def SEL_PEER_SEL.adr : Nat := 0x3000010
def SEL_PEER_SEL.DEVICE : Fld := ⟨0x3000010, 0, 16⟩
/-- SEL_PEER: R273 (08_fabric_links.md), 64 bits. -/
def SEL_PEER.adr : Nat := 0x3000018
def SEL_PEER.STATE : Fld := ⟨0x3000018, 0, 3⟩
def SEL_PEER.LEVEL : Fld := ⟨0x3000018, 3, 4⟩
def SEL_PEER.REASON : Fld := ⟨0x3000018, 7, 4⟩
def SEL_PEER.QPORT : Fld := ⟨0x3000018, 16, 6⟩
def SEL_PEER.BEAT : Fld := ⟨0x3000018, 32, 32⟩
/-- SEL_PEER_CTRL: R274 (08_fabric_links.md), 32 bits. -/
def SEL_PEER_CTRL.adr : Nat := 0x3000020
def SEL_PEER_CTRL.CLEAR_QUAR : Fld := ⟨0x3000020, 0, 1⟩
def SEL_PEER_CTRL.RETRY : Fld := ⟨0x3000020, 1, 1⟩
/-- SEL_TMO: R275 (08_fabric_links.md), 32 bits. -/
def SEL_TMO.adr : Nat := 0x3000028
def SEL_TMO.RMA : Fld := ⟨0x3000028, 0, 4⟩
def SEL_TMO.TIME : Fld := ⟨0x3000028, 4, 4⟩
def SEL_TMO.ADMIT : Fld := ⟨0x3000028, 8, 16⟩
/-- SEL_CNT: R276 (08_fabric_links.md), 64 bits. -/
def SEL_CNT.adr : Nat := 0x3000030
def SEL_CNT.MALFORMED : Fld := ⟨0x3000030, 0, 16⟩
def SEL_CNT.OUT_OF_ROSTER : Fld := ⟨0x3000030, 16, 16⟩
def SEL_CNT.STALE : Fld := ⟨0x3000030, 32, 16⟩
def SEL_CNT.UNAUTH : Fld := ⟨0x3000030, 48, 16⟩
/-- SEL_CNT2: R276 (08_fabric_links.md), 32 bits. -/
def SEL_CNT2.adr : Nat := 0x3000038
def SEL_CNT2.MISPLANE : Fld := ⟨0x3000038, 0, 16⟩
/-- SEL_FLOWS: R277 (08_fabric_links.md), 32 bits. -/
def SEL_FLOWS.adr : Nat := 0x3000040
def SEL_FLOWS.IN_USE : Fld := ⟨0x3000040, 0, 13⟩
def SEL_FLOWS.PEAK : Fld := ⟨0x3000040, 16, 13⟩
def SEL_FLOWS.EXHAUSTED : Fld := ⟨0x3000040, 29, 1⟩
/-- TB_TREE: R278 (08_fabric_links.md), 64 bits. -/
def TB_TREE.adr : Nat := 0x30100
def TB_TREE.PARENT : Fld := ⟨0x30100, 0, 16⟩
def TB_TREE.ROOT : Fld := ⟨0x30100, 16, 1⟩
def TB_TREE.DEPTH : Fld := ⟨0x30100, 17, 2⟩
def TB_TREE.TREE_D : Fld := ⟨0x30100, 19, 2⟩
def TB_TREE.CHILDREN : Fld := ⟨0x30100, 24, 7⟩
/-- TB_LINK: R279 (08_fabric_links.md), 64 bits. -/
def TB_LINK.adr : Nat := 0x30108
def TB_LINK.DELAY_NS : Fld := ⟨0x30108, 0, 16⟩
def TB_LINK.UP_MISSED : Fld := ⟨0x30108, 16, 16⟩
def TB_LINK.DOWN_MISSED : Fld := ⟨0x30108, 32, 16⟩
/-- CV_CFG: R280 (08_fabric_links.md), 32 bits. -/
def CV_CFG.adr : Nat := 0x88000
def CV_CFG.POLY : Fld := ⟨0x88000, 0, 2⟩
def CV_CFG.OWNER : Fld := ⟨0x88000, 2, 1⟩
/-- CV_STATUS: R280 (08_fabric_links.md), 32 bits. -/
def CV_STATUS.adr : Nat := 0x88004
def CV_STATUS.BUSY : Fld := ⟨0x88004, 0, 1⟩
def CV_STATUS.MATCH : Fld := ⟨0x88004, 1, 1⟩
def CV_STATUS.MISMATCH : Fld := ⟨0x88004, 2, 1⟩
/-- CV_DATA8: R281 (08_fabric_links.md), 32 bits. -/
def CV_DATA8.adr : Nat := 0x88010
def CV_DATA8.BYTE : Fld := ⟨0x88010, 0, 8⟩
/-- CV_DATA16: R281 (08_fabric_links.md), 32 bits. -/
def CV_DATA16.adr : Nat := 0x88014
def CV_DATA16.HALF : Fld := ⟨0x88014, 0, 16⟩
/-- CV_DATA32: R281 (08_fabric_links.md), 32 bits. -/
def CV_DATA32.adr : Nat := 0x88018
def CV_DATA32.WORD : Fld := ⟨0x88018, 0, 32⟩
/-- CV_STATE: R282 (08_fabric_links.md), 64 bits. -/
def CV_STATE.adr : Nat := 0x88020
def CV_STATE.STATE : Fld := ⟨0x88020, 0, 64⟩
/-- CV_RESULT: R282 (08_fabric_links.md), 64 bits. -/
def CV_RESULT.adr : Nat := 0x88028
def CV_RESULT.RESULT : Fld := ⟨0x88028, 0, 64⟩
/-- CV_EXPECT: R283 (08_fabric_links.md), 64 bits. -/
def CV_EXPECT.adr : Nat := 0x88030
def CV_EXPECT.VALUE : Fld := ⟨0x88030, 0, 64⟩
/-- CV_COUNT: R283 (08_fabric_links.md), 64 bits. -/
def CV_COUNT.adr : Nat := 0x88038
def CV_COUNT.BYTES : Fld := ⟨0x88038, 0, 64⟩
/-- VOTE_CFG: R308 (09_collectives_and_placement.md), 32 bits. -/
def VOTE_CFG.adr : Nat := 0x40800
def VOTE_CFG.POLICY : Fld := ⟨0x40800, 0, 1⟩
def VOTE_CFG.STRETCH_S : Fld := ⟨0x40800, 1, 5⟩
def VOTE_CFG.WAIT_US : Fld := ⟨0x40800, 16, 16⟩
/-- VOTE_CTRL: R308 (09_collectives_and_placement.md), 32 bits. -/
def VOTE_CTRL.adr : Nat := 0x40804
def VOTE_CTRL.STRETCH : Fld := ⟨0x40804, 0, 1⟩
/-- VOTE_STATE: R309 (09_collectives_and_placement.md), 64 bits. -/
def VOTE_STATE.adr : Nat := 0x40808
def VOTE_STATE.STEP_TRAILER : Fld := ⟨0x40808, 0, 5⟩
def VOTE_STATE.VOTE : Fld := ⟨0x40808, 8, 5⟩
def VOTE_STATE.VOTE_VALID : Fld := ⟨0x40808, 13, 1⟩
def VOTE_STATE.HALTED : Fld := ⟨0x40808, 14, 1⟩
def VOTE_STATE.MISSED : Fld := ⟨0x40808, 16, 16⟩
def VOTE_STATE.STEP : Fld := ⟨0x40808, 32, 32⟩
/-- VOTE_COUNTS: R309 (09_collectives_and_placement.md), 64 bits. -/
def VOTE_COUNTS.adr : Nat := 0x40810
def VOTE_COUNTS.SKIPS : Fld := ⟨0x40810, 0, 32⟩
def VOTE_COUNTS.VOTE_FAIL : Fld := ⟨0x40810, 32, 32⟩
/-- COLL_STATUS: R309 (09_collectives_and_placement.md), 32 bits. -/
def COLL_STATUS.adr : Nat := 0x40818
def COLL_STATUS.STRAY : Fld := ⟨0x40818, 0, 16⟩
def COLL_STATUS.LOSS : Fld := ⟨0x40818, 16, 1⟩
/-- PLACE_STATUS: R310 (09_collectives_and_placement.md), 64 bits. -/
def PLACE_STATUS.adr : Nat := 0x40820
def PLACE_STATUS.ROSTER_VER : Fld := ⟨0x40820, 0, 32⟩
def PLACE_STATUS.SEATS : Fld := ⟨0x40820, 32, 17⟩
def PLACE_STATUS.BROAD : Fld := ⟨0x40820, 49, 1⟩
def PLACE_STATUS.NO_SPARE : Fld := ⟨0x40820, 50, 1⟩
/-- PLACE_SELF: R310 (09_collectives_and_placement.md), 64 bits. -/
def PLACE_SELF.adr : Nat := 0x40828
def PLACE_SELF.SEAT : Fld := ⟨0x40828, 0, 16⟩
def PLACE_SELF.MIRRORS : Fld := ⟨0x40828, 16, 16⟩
def PLACE_SELF.HOLDER : Fld := ⟨0x40828, 32, 16⟩
def PLACE_SELF.SERVING : Fld := ⟨0x40828, 48, 1⟩
def PLACE_SELF.SPARE : Fld := ⟨0x40828, 49, 1⟩
/-- PLACE_SEAT_SEL: R311 (09_collectives_and_placement.md), 32 bits. -/
def PLACE_SEAT_SEL.adr : Nat := 0x40830
def PLACE_SEAT_SEL.SEAT : Fld := ⟨0x40830, 0, 16⟩
/-- PLACE_SEAT: R311 (09_collectives_and_placement.md), 64 bits. -/
def PLACE_SEAT.adr : Nat := 0x40838
def PLACE_SEAT.DEVICE : Fld := ⟨0x40838, 0, 16⟩
def PLACE_SEAT.SERVED : Fld := ⟨0x40838, 16, 1⟩
def PLACE_SEAT.FGROUP : Fld := ⟨0x40838, 20, 12⟩
def PLACE_SEAT.HOLDER : Fld := ⟨0x40838, 32, 16⟩
/-- PLACE_SHARD_SEL: R312 (09_collectives_and_placement.md), 32 bits. -/
def PLACE_SHARD_SEL.adr : Nat := 0x40840
def PLACE_SHARD_SEL.SHARD : Fld := ⟨0x40840, 0, 16⟩
/-- PLACE_SHARD: R312 (09_collectives_and_placement.md), 64 bits. -/
def PLACE_SHARD.adr : Nat := 0x40848
def PLACE_SHARD.HOME : Fld := ⟨0x40848, 0, 16⟩
def PLACE_SHARD.W_OFF : Fld := ⟨0x40848, 16, 22⟩
def PLACE_SHARD.O_OFF : Fld := ⟨0x40848, 38, 22⟩
/-- GROUP_SEL: R313 (09_collectives_and_placement.md), 32 bits. -/
def GROUP_SEL.adr : Nat := 0x40850
def GROUP_SEL.GROUP : Fld := ⟨0x40850, 0, 12⟩
/-- GROUP_INFO: R313 (09_collectives_and_placement.md), 64 bits. -/
def GROUP_INFO.adr : Nat := 0x40858
def GROUP_INFO.SIZE : Fld := ⟨0x40858, 0, 17⟩
def GROUP_INFO.MEMBER : Fld := ⟨0x40858, 17, 1⟩
def GROUP_INFO.RANK : Fld := ⟨0x40858, 18, 16⟩
/-- STEP_NOW: R339 (10_step_checking_and_replay.md), 64 bits. -/
def STEP_NOW.adr : Nat := 0x40000
def STEP_NOW.STEP : Fld := ⟨0x40000, 0, 64⟩
/-- STEP_SEALED: R339 (10_step_checking_and_replay.md), 64 bits. -/
def STEP_SEALED.adr : Nat := 0x40008
def STEP_SEALED.STEP : Fld := ⟨0x40008, 0, 64⟩
/-- STEP_CHECKED: R339 (10_step_checking_and_replay.md), 64 bits. -/
def STEP_CHECKED.adr : Nat := 0x40010
def STEP_CHECKED.STEP : Fld := ⟨0x40010, 0, 64⟩
/-- STEP_ROLLBACK: R339 (10_step_checking_and_replay.md), 64 bits. -/
def STEP_ROLLBACK.adr : Nat := 0x40018
def STEP_ROLLBACK.STEP : Fld := ⟨0x40018, 0, 64⟩
/-- STEP_BAD: R339 (10_step_checking_and_replay.md), 64 bits. -/
def STEP_BAD.adr : Nat := 0x40020
def STEP_BAD.STEP : Fld := ⟨0x40020, 0, 64⟩
/-- STEP_STATUS: R340 (10_step_checking_and_replay.md), 32 bits. -/
def STEP_STATUS.adr : Nat := 0x40028
def STEP_STATUS.OPEN : Fld := ⟨0x40028, 0, 1⟩
def STEP_STATUS.COMMIT : Fld := ⟨0x40028, 1, 1⟩
def STEP_STATUS.CKFAIL : Fld := ⟨0x40028, 2, 1⟩
def STEP_STATUS.BAD : Fld := ⟨0x40028, 3, 1⟩
/-- STEP_CHECK_CFG: R340 (10_step_checking_and_replay.md), 32 bits. -/
def STEP_CHECK_CFG.adr : Nat := 0x40030
def STEP_CHECK_CFG.N_M1 : Fld := ⟨0x40030, 0, 4⟩
def STEP_CHECK_CFG.D_M1 : Fld := ⟨0x40030, 4, 4⟩
def STEP_CHECK_CFG.K_SAMPLE : Fld := ⟨0x40030, 8, 4⟩
def STEP_CHECK_CFG.SMP_ENTRIES : Fld := ⟨0x40030, 16, 13⟩
/-- REC_STATE: R341 (10_step_checking_and_replay.md), 32 bits. -/
def REC_STATE.adr : Nat := 0x40100
def REC_STATE.STATE : Fld := ⟨0x40100, 0, 2⟩
def REC_STATE.ATTEMPT : Fld := ⟨0x40100, 2, 3⟩
/-- REC_FAULT_STEP: R341 (10_step_checking_and_replay.md), 64 bits. -/
def REC_FAULT_STEP.adr : Nat := 0x40108
def REC_FAULT_STEP.STEP : Fld := ⟨0x40108, 0, 64⟩
/-- REC_RESUME_STEP: R341 (10_step_checking_and_replay.md), 64 bits. -/
def REC_RESUME_STEP.adr : Nat := 0x40110
def REC_RESUME_STEP.STEP : Fld := ⟨0x40110, 0, 64⟩
/-- REC_CFG: R342 (10_step_checking_and_replay.md), 32 bits. -/
def REC_CFG.adr : Nat := 0x40118
def REC_CFG.MAX_ATTEMPTS : Fld := ⟨0x40118, 0, 3⟩
def REC_CFG.RESTORE_BEATS : Fld := ⟨0x40118, 8, 24⟩
/-- REC_CTRL: R342 (10_step_checking_and_replay.md), 32 bits. -/
def REC_CTRL.adr : Nat := 0x4011c
def REC_CTRL.ARM : Fld := ⟨0x4011c, 0, 1⟩
/-- REC_AT: R342 (10_step_checking_and_replay.md), 64 bits. -/
def REC_AT.adr : Nat := 0x40120
def REC_AT.BEAT : Fld := ⟨0x40120, 0, 64⟩
/-- REC_COUNTS: R343 (10_step_checking_and_replay.md), 64 bits. -/
def REC_COUNTS.adr : Nat := 0x40128
def REC_COUNTS.RECOVERIES : Fld := ⟨0x40128, 0, 16⟩
def REC_COUNTS.HALTS : Fld := ⟨0x40128, 16, 16⟩
def REC_COUNTS.REPLAYED : Fld := ⟨0x40128, 32, 32⟩
/-- REC_STATUS: R343 (10_step_checking_and_replay.md), 32 bits. -/
def REC_STATUS.adr : Nat := 0x40130
def REC_STATUS.ARM_LATE : Fld := ⟨0x40130, 0, 1⟩
def REC_STATUS.RESTORE_LATE : Fld := ⟨0x40130, 1, 1⟩
/-- RET_CFG: R344 (10_step_checking_and_replay.md), 64 bits. -/
def RET_CFG.adr : Nat := 0x40200
def RET_CFG.SLOTS : Fld := ⟨0x40200, 0, 8⟩
def RET_CFG.STAGE_KIB : Fld := ⟨0x40200, 8, 24⟩
/-- RET_STAGE: R344 (10_step_checking_and_replay.md), 64 bits. -/
def RET_STAGE.adr : Nat := 0x40208
def RET_STAGE.BASE : Fld := ⟨0x40208, 16, 32⟩
/-- RET_STATUS: R344 (10_step_checking_and_replay.md), 32 bits. -/
def RET_STATUS.adr : Nat := 0x40210
def RET_STATUS.FILE_LATE : Fld := ⟨0x40210, 0, 1⟩
def RET_STATUS.STRETCH_FULL : Fld := ⟨0x40210, 1, 1⟩
def RET_STATUS.RESTORING : Fld := ⟨0x40210, 2, 1⟩
def RET_STATUS.CNT_DIVERGE : Fld := ⟨0x40210, 3, 1⟩
/-- CHK_FIRST0: R345 (10_step_checking_and_replay.md), 64 bits. -/
def CHK_FIRST0.adr : Nat := 0x80000
def CHK_FIRST0.CAUSE : Fld := ⟨0x80000, 0, 6⟩
def CHK_FIRST0.VALID : Fld := ⟨0x80000, 6, 1⟩
def CHK_FIRST0.LCORE : Fld := ⟨0x80000, 8, 6⟩
def CHK_FIRST0.UNIT : Fld := ⟨0x80000, 16, 3⟩
def CHK_FIRST0.PICK : Fld := ⟨0x80000, 20, 11⟩
def CHK_FIRST0.BEAT_IN_STEP : Fld := ⟨0x80000, 32, 16⟩
def CHK_FIRST0.DETAIL : Fld := ⟨0x80000, 48, 16⟩
/-- CHK_FIRST1: R345 (10_step_checking_and_replay.md), 64 bits. -/
def CHK_FIRST1.adr : Nat := 0x80008
def CHK_FIRST1.STEP : Fld := ⟨0x80008, 0, 64⟩
/-- CHK_FIRST2: R345 (10_step_checking_and_replay.md), 64 bits. -/
def CHK_FIRST2.adr : Nat := 0x80010
def CHK_FIRST2.SOURCE : Fld := ⟨0x80010, 0, 16⟩
def CHK_FIRST2.ROW : Fld := ⟨0x80010, 16, 32⟩
/-- CHK_CLASS: R346 (10_step_checking_and_replay.md), 64 bits. -/
def CHK_CLASS.adr : Nat := 0x80040
def CHK_CLASS.CLASS : Fld := ⟨0x80040, 0, 3⟩
def CHK_CLASS.STEP : Fld := ⟨0x80040, 32, 32⟩
/-- CHK_CNT0: R347 (10_step_checking_and_replay.md), 64 bits. -/
def CHK_CNT0.adr : Nat := 0x80080
def CHK_CNT0.SMP_COMPARES : Fld := ⟨0x80080, 0, 32⟩
def CHK_CNT0.SMP_FAILS : Fld := ⟨0x80080, 32, 32⟩
/-- CHK_CNT1: R347 (10_step_checking_and_replay.md), 64 bits. -/
def CHK_CNT1.adr : Nat := 0x80088
def CHK_CNT1.SMP_SKIPPED : Fld := ⟨0x80088, 0, 16⟩
def CHK_CNT1.RANGE_FAILS : Fld := ⟨0x80088, 16, 16⟩
def CHK_CNT1.DIG_COMPARES : Fld := ⟨0x80088, 32, 16⟩
def CHK_CNT1.DIG_FAILS : Fld := ⟨0x80088, 48, 16⟩
/-- CHK_DIG0: R348 (10_step_checking_and_replay.md), 64 bits. -/
def CHK_DIG0.adr : Nat := 0x80100
def CHK_DIG0.DA : Fld := ⟨0x80100, 0, 64⟩
/-- CHK_DIG1: R348 (10_step_checking_and_replay.md), 64 bits. -/
def CHK_DIG1.adr : Nat := 0x80108
def CHK_DIG1.DB : Fld := ⟨0x80108, 0, 64⟩
/-- CHK_DIG_STEP: R348 (10_step_checking_and_replay.md), 64 bits. -/
def CHK_DIG_STEP.adr : Nat := 0x80110
def CHK_DIG_STEP.STEP : Fld := ⟨0x80110, 0, 64⟩
/-- CHK_LIVE_DIG0: R348 (10_step_checking_and_replay.md), 64 bits. -/
def CHK_LIVE_DIG0.adr : Nat := 0x80118
def CHK_LIVE_DIG0.DA : Fld := ⟨0x80118, 0, 64⟩
/-- CHK_LIVE_DIG1: R348 (10_step_checking_and_replay.md), 64 bits. -/
def CHK_LIVE_DIG1.adr : Nat := 0x80120
def CHK_LIVE_DIG1.DB : Fld := ⟨0x80120, 0, 64⟩
/-- CHK_DIG_STATUS: R349 (10_step_checking_and_replay.md), 32 bits. -/
def CHK_DIG_STATUS.adr : Nat := 0x80128
def CHK_DIG_STATUS.MISMATCH : Fld := ⟨0x80128, 0, 1⟩
def CHK_DIG_STATUS.MINORITY : Fld := ⟨0x80128, 1, 1⟩
def CHK_DIG_STATUS.MIRROR_BAD : Fld := ⟨0x80128, 2, 1⟩
def CHK_DIG_STATUS.SWEEP : Fld := ⟨0x80128, 3, 1⟩
def CHK_DIG_STATUS.RANK : Fld := ⟨0x80128, 16, 16⟩
/-- IMG_CFG: R374 (11_snapshots_and_checkpoints.md), 64 bits. -/
def IMG_CFG.adr : Nat := 0x100800
def IMG_CFG.STATE_TILES : Fld := ⟨0x100800, 0, 12⟩
def IMG_CFG.TAIL_K : Fld := ⟨0x100800, 16, 5⟩
def IMG_CFG.TAIL_CLASS : Fld := ⟨0x100800, 21, 1⟩
def IMG_CFG.TAIL_STEPS : Fld := ⟨0x100800, 32, 32⟩
/-- IMG_STATUS: R375 (11_snapshots_and_checkpoints.md), 32 bits. -/
def IMG_STATUS.adr : Nat := 0x100808
def IMG_STATUS.CAPTURING : Fld := ⟨0x100808, 0, 1⟩
def IMG_STATUS.STATE_OVER : Fld := ⟨0x100808, 1, 1⟩
/-- MIR_STATUS: R376 (11_snapshots_and_checkpoints.md), 64 bits. -/
def MIR_STATUS.adr : Nat := 0x100810
def MIR_STATUS.DRAINING : Fld := ⟨0x100810, 0, 1⟩
def MIR_STATUS.DONE : Fld := ⟨0x100810, 1, 1⟩
def MIR_STATUS.RESENT : Fld := ⟨0x100810, 2, 1⟩
def MIR_STATUS.STEP : Fld := ⟨0x100810, 32, 32⟩
/-- MIR_IMG0: R377 (11_snapshots_and_checkpoints.md), 64 bits. -/
def MIR_IMG0.adr : Nat := 0x100818
def MIR_IMG0.STATE : Fld := ⟨0x100818, 0, 2⟩
def MIR_IMG0.SEAT : Fld := ⟨0x100818, 16, 16⟩
def MIR_IMG0.STEP : Fld := ⟨0x100818, 32, 32⟩
/-- MIR_IMG1: R377 (11_snapshots_and_checkpoints.md), 64 bits. -/
def MIR_IMG1.adr : Nat := 0x100820
def MIR_IMG1.STATE : Fld := ⟨0x100820, 0, 2⟩
def MIR_IMG1.SEAT : Fld := ⟨0x100820, 16, 16⟩
def MIR_IMG1.STEP : Fld := ⟨0x100820, 32, 32⟩
/-- TAIL_STATUS: R378 (11_snapshots_and_checkpoints.md), 64 bits. -/
def TAIL_STATUS.adr : Nat := 0x100840
def TAIL_STATUS.PHASE : Fld := ⟨0x100840, 0, 2⟩
def TAIL_STATUS.ABANDONED : Fld := ⟨0x100840, 2, 1⟩
def TAIL_STATUS.STEP : Fld := ⟨0x100840, 32, 32⟩
/-- TAIL_LAST: R379 (11_snapshots_and_checkpoints.md), 64 bits. -/
def TAIL_LAST.adr : Nat := 0x100848
def TAIL_LAST.STEP : Fld := ⟨0x100848, 0, 64⟩
/-- TAIL_J: R379 (11_snapshots_and_checkpoints.md), 64 bits. -/
def TAIL_J.adr : Nat := 0x100850
def TAIL_J.STEP : Fld := ⟨0x100850, 0, 64⟩
/-- RST_CTRL: R380 (11_snapshots_and_checkpoints.md), 32 bits. -/
def RST_CTRL.adr : Nat := 0x100880
def RST_CTRL.GO : Fld := ⟨0x100880, 0, 1⟩
/-- RST_STEP: R380 (11_snapshots_and_checkpoints.md), 64 bits. -/
def RST_STEP.adr : Nat := 0x100888
def RST_STEP.STEP : Fld := ⟨0x100888, 0, 64⟩
/-- RST_STATUS: R381 (11_snapshots_and_checkpoints.md), 32 bits. -/
def RST_STATUS.adr : Nat := 0x100890
def RST_STATUS.STATE : Fld := ⟨0x100890, 0, 3⟩
def RST_STATUS.SOURCE : Fld := ⟨0x100890, 3, 2⟩
def RST_STATUS.NO_SOURCE : Fld := ⟨0x100890, 5, 1⟩
def RST_STATUS.DIG_BAD : Fld := ⟨0x100890, 6, 1⟩
def RST_STATUS.FIT : Fld := ⟨0x100890, 7, 1⟩
def RST_STATUS.REBUILT : Fld := ⟨0x100890, 8, 1⟩
def RST_STATUS.REC_BAD : Fld := ⟨0x100890, 9, 1⟩
/-- FAN_CFG: R404 (12_fantail_health_and_spares.md), 64 bits. -/
def FAN_CFG.adr : Nat := 0x50000
def FAN_CFG.DECAY : Fld := ⟨0x50000, 0, 4⟩
def FAN_CFG.UNIT_RETIRE : Fld := ⟨0x50000, 4, 8⟩
def FAN_CFG.COND_MIN : Fld := ⟨0x50000, 12, 4⟩
def FAN_CFG.T_BASE : Fld := ⟨0x50000, 16, 10⟩
def FAN_CFG.RAISE : Fld := ⟨0x50000, 32, 10⟩
def FAN_CFG.FLOOR : Fld := ⟨0x50000, 48, 8⟩
def FAN_CFG.PROBATION : Fld := ⟨0x50000, 56, 1⟩
def FAN_CFG.AUTO_SPARE : Fld := ⟨0x50000, 57, 1⟩
/-- FAN_STATUS: R405 (12_fantail_health_and_spares.md), 64 bits. -/
def FAN_STATUS.adr : Nat := 0x50008
def FAN_STATUS.SCORE : Fld := ⟨0x50008, 0, 10⟩
def FAN_STATUS.T_EFF : Fld := ⟨0x50008, 10, 10⟩
def FAN_STATUS.SPARES_FREE : Fld := ⟨0x50008, 20, 8⟩
def FAN_STATUS.STANDING : Fld := ⟨0x50008, 28, 2⟩
def FAN_STATUS.HELD : Fld := ⟨0x50008, 30, 1⟩
def FAN_STATUS.ACC : Fld := ⟨0x50008, 32, 16⟩
/-- FAN_LOG_SEL: R406 (12_fantail_health_and_spares.md), 32 bits. -/
def FAN_LOG_SEL.adr : Nat := 0x50010
def FAN_LOG_SEL.ENTRY : Fld := ⟨0x50010, 0, 8⟩
def FAN_LOG_SEL.HEAD : Fld := ⟨0x50010, 8, 8⟩
/-- FAN_LOG: R406 (12_fantail_health_and_spares.md), 64 bits. -/
def FAN_LOG.adr : Nat := 0x50018
def FAN_LOG.KIND : Fld := ⟨0x50018, 0, 4⟩
def FAN_LOG.POINTS : Fld := ⟨0x50018, 4, 8⟩
def FAN_LOG.BAND : Fld := ⟨0x50018, 12, 3⟩
def FAN_LOG.LOAD : Fld := ⟨0x50018, 15, 3⟩
def FAN_LOG.SOURCE : Fld := ⟨0x50018, 24, 16⟩
def FAN_LOG.BEAT : Fld := ⟨0x50018, 40, 24⟩
/-- FAN_UNIT_SEL: R407 (12_fantail_health_and_spares.md), 32 bits. -/
def FAN_UNIT_SEL.adr : Nat := 0x50020
def FAN_UNIT_SEL.SOURCE : Fld := ⟨0x50020, 0, 16⟩
/-- FAN_UNIT: R407 (12_fantail_health_and_spares.md), 64 bits. -/
def FAN_UNIT.adr : Nat := 0x50028
def FAN_UNIT.ACC : Fld := ⟨0x50028, 0, 16⟩
def FAN_UNIT.SCORE : Fld := ⟨0x50028, 16, 8⟩
def FAN_UNIT.RETIRED : Fld := ⟨0x50028, 24, 1⟩
def FAN_UNIT.CONDITIONAL : Fld := ⟨0x50028, 25, 1⟩
def FAN_UNIT.COND_BAND : Fld := ⟨0x50028, 26, 3⟩
def FAN_UNIT.COND_LOAD : Fld := ⟨0x50028, 29, 3⟩
def FAN_UNIT.FINDINGS : Fld := ⟨0x50028, 32, 32⟩
/-- FAN_CORE: R408 (12_fantail_health_and_spares.md), 64 bits. -/
def FAN_CORE.adr : Nat := 0x50100
def FAN_CORE.TMARGIN : Fld := ⟨0x50100, 0, 8⟩
def FAN_CORE.DROOP : Fld := ⟨0x50100, 8, 8⟩
def FAN_CORE.COND_STEP : Fld := ⟨0x50100, 16, 3⟩
def FAN_CORE.HEAT_STEP : Fld := ⟨0x50100, 19, 3⟩
def FAN_CORE.BUSY : Fld := ⟨0x50100, 24, 16⟩
def FAN_CORE.TEMP : Fld := ⟨0x50100, 40, 8⟩
def FAN_CORE.BAND : Fld := ⟨0x50100, 48, 3⟩
def FAN_CORE.LOAD : Fld := ⟨0x50100, 51, 3⟩
def FAN_CORE.MOVING : Fld := ⟨0x50100, 54, 1⟩
/-- FAN_HBM_EYE: R409 (12_fantail_health_and_spares.md), 32 bits. -/
def FAN_HBM_EYE.adr : Nat := 0x50400
def FAN_HBM_EYE.WIDTH : Fld := ⟨0x50400, 0, 8⟩
def FAN_HBM_EYE.HEIGHT : Fld := ⟨0x50400, 8, 8⟩
/-- FAN_MP_EYE: R409 (12_fantail_health_and_spares.md), 32 bits. -/
def FAN_MP_EYE.adr : Nat := 0x50800
def FAN_MP_EYE.WIDTH : Fld := ⟨0x50800, 0, 8⟩
def FAN_MP_EYE.HEIGHT : Fld := ⟨0x50800, 8, 8⟩
/-- FAN_TEMP: R410 (12_fantail_health_and_spares.md), 32 bits. -/
def FAN_TEMP.adr : Nat := 0x50900
def FAN_TEMP.TEMP : Fld := ⟨0x50900, 0, 11⟩
def FAN_TEMP.MAX : Fld := ⟨0x50900, 16, 11⟩
/-- FAN_HEAT_CFG: R411 (12_fantail_health_and_spares.md), 32 bits. -/
def FAN_HEAT_CFG.adr : Nat := 0x50a00
def FAN_HEAT_CFG.STRETCH : Fld := ⟨0x50a00, 0, 5⟩
def FAN_HEAT_CFG.F_MIN : Fld := ⟨0x50a00, 8, 3⟩
/-- FAN_HEAT: R411 (12_fantail_health_and_spares.md), 64 bits. -/
def FAN_HEAT.adr : Nat := 0x50a08
def FAN_HEAT.LEVEL : Fld := ⟨0x50a08, 0, 2⟩
def FAN_HEAT.F : Fld := ⟨0x50a08, 2, 3⟩
def FAN_HEAT.SPILL : Fld := ⟨0x50a08, 5, 1⟩
def FAN_HEAT.WRITEBACK : Fld := ⟨0x50a08, 6, 1⟩
def FAN_HEAT.SPILL_FULL : Fld := ⟨0x50a08, 7, 1⟩
def FAN_HEAT.SPILLED : Fld := ⟨0x50a08, 8, 23⟩
def FAN_HEAT.STOP_BEATS : Fld := ⟨0x50a08, 32, 32⟩
/-- FAN_KAP: R412 (12_fantail_health_and_spares.md), 64 bits. -/
def FAN_KAP.adr : Nat := 0x50b00
def FAN_KAP.RUN : Fld := ⟨0x50b00, 0, 32⟩
def FAN_KAP.MISMATCH : Fld := ⟨0x50b00, 32, 16⟩
def FAN_KAP.CANCELLED : Fld := ⟨0x50b00, 48, 16⟩
/-- FAN_CP: R412 (12_fantail_health_and_spares.md), 32 bits. -/
def FAN_CP.adr : Nat := 0x50b08
def FAN_CP.ACTIVE : Fld := ⟨0x50b08, 0, 1⟩
def FAN_CP.STANDBY_OK : Fld := ⟨0x50b08, 1, 1⟩
def FAN_CP.TAKEOVER : Fld := ⟨0x50b08, 2, 1⟩
def FAN_CP.HB_MISS : Fld := ⟨0x50b08, 8, 8⟩
/-- FAN_CTRL: R412 (12_fantail_health_and_spares.md), 32 bits. -/
def FAN_CTRL.adr : Nat := 0x50b10
def FAN_CTRL.UNDERATE : Fld := ⟨0x50b10, 0, 1⟩
def FAN_CTRL.RETIRE : Fld := ⟨0x50b10, 1, 1⟩
def FAN_CTRL.CLEAR : Fld := ⟨0x50b10, 2, 1⟩
/-- DRAFT_CTRL: R438 (13_draft_and_bring_up.md), 32 bits. -/
def DRAFT_CTRL.adr : Nat := 0x10000
def DRAFT_CTRL.BEGIN : Fld := ⟨0x10000, 0, 1⟩
def DRAFT_CTRL.PULL : Fld := ⟨0x10000, 1, 1⟩
def DRAFT_CTRL.ABORT : Fld := ⟨0x10000, 2, 1⟩
/-- DRAFT_DATA: R438 (13_draft_and_bring_up.md), 32 bits. -/
def DRAFT_DATA.adr : Nat := 0x10004
def DRAFT_DATA.WORD : Fld := ⟨0x10004, 0, 32⟩
/-- DRAFT_STATUS: R439 (13_draft_and_bring_up.md), 64 bits. -/
def DRAFT_STATUS.adr : Nat := 0x10008
def DRAFT_STATUS.STATE : Fld := ⟨0x10008, 0, 3⟩
def DRAFT_STATUS.ERROR : Fld := ⟨0x10008, 8, 8⟩
def DRAFT_STATUS.LOADED : Fld := ⟨0x10008, 16, 1⟩
def DRAFT_STATUS.KEEP : Fld := ⟨0x10008, 17, 1⟩
def DRAFT_STATUS.START_LATE : Fld := ⟨0x10008, 18, 1⟩
def DRAFT_STATUS.ERR_OFFSET : Fld := ⟨0x10008, 32, 32⟩
/-- DRAFT_SRC: R440 (13_draft_and_bring_up.md), 64 bits. -/
def DRAFT_SRC.adr : Nat := 0x10010
def DRAFT_SRC.ADDR : Fld := ⟨0x10010, 3, 45⟩
/-- DRAFT_PULL_LEN: R440 (13_draft_and_bring_up.md), 32 bits. -/
def DRAFT_PULL_LEN.adr : Nat := 0x10018
def DRAFT_PULL_LEN.BYTES : Fld := ⟨0x10018, 0, 32⟩
/-- DRAFT_COUNT: R440 (13_draft_and_bring_up.md), 32 bits. -/
def DRAFT_COUNT.adr : Nat := 0x1001c
def DRAFT_COUNT.BYTES : Fld := ⟨0x1001c, 0, 32⟩
/-- DRAFT_APPLY: R440 (13_draft_and_bring_up.md), 64 bits. -/
def DRAFT_APPLY.adr : Nat := 0x10020
def DRAFT_APPLY.STEP : Fld := ⟨0x10020, 0, 64⟩
/-- DRAFT_START_AT: R440 (13_draft_and_bring_up.md), 64 bits. -/
def DRAFT_START_AT.adr : Nat := 0x10028
def DRAFT_START_AT.BEAT : Fld := ⟨0x10028, 0, 64⟩
/-- DRAFT_DIGEST: R441 (13_draft_and_bring_up.md), 64 bits. -/
def DRAFT_DIGEST.adr : Nat := 0x10040
def DRAFT_DIGEST.BYTES : Fld := ⟨0x10040, 0, 64⟩
/-- DRAFT_PIN: R441 (13_draft_and_bring_up.md), 64 bits. -/
def DRAFT_PIN.adr : Nat := 0x10080
def DRAFT_PIN.KEY : Fld := ⟨0x10080, 0, 64⟩
/-- DRAFT_PIN_CTRL: R441 (13_draft_and_bring_up.md), 32 bits. -/
def DRAFT_PIN_CTRL.adr : Nat := 0x100a0
def DRAFT_PIN_CTRL.SET : Fld := ⟨0x100a0, 0, 1⟩
def DRAFT_PIN_CTRL.LOCK : Fld := ⟨0x100a0, 1, 1⟩
/-- FW_CTRL: R442 (13_draft_and_bring_up.md), 32 bits. -/
def FW_CTRL.adr : Nat := 0x10100
def FW_CTRL.BEGIN : Fld := ⟨0x10100, 0, 1⟩
def FW_CTRL.STAGE : Fld := ⟨0x10100, 1, 1⟩
def FW_CTRL.UPDATE : Fld := ⟨0x10100, 2, 1⟩
def FW_CTRL.BOOT : Fld := ⟨0x10100, 3, 1⟩
def FW_CTRL.COMMIT_SECVER : Fld := ⟨0x10100, 4, 1⟩
/-- FW_DATA: R442 (13_draft_and_bring_up.md), 32 bits. -/
def FW_DATA.adr : Nat := 0x10104
def FW_DATA.WORD : Fld := ⟨0x10104, 0, 32⟩
/-- FW_STATUS: R442 (13_draft_and_bring_up.md), 64 bits. -/
def FW_STATUS.adr : Nat := 0x10108
def FW_STATUS.PHASE : Fld := ⟨0x10108, 0, 3⟩
def FW_STATUS.ACTIVE_SLOT : Fld := ⟨0x10108, 3, 1⟩
def FW_STATUS.AUTH_FAIL : Fld := ⟨0x10108, 4, 1⟩
def FW_STATUS.MIN_SECVER : Fld := ⟨0x10108, 8, 8⟩
def FW_STATUS.KEY_REVOKED : Fld := ⟨0x10108, 16, 4⟩
def FW_STATUS.ACTIVE_VERSION : Fld := ⟨0x10108, 32, 32⟩
/-- ATT_CTRL: R443 (13_draft_and_bring_up.md), 32 bits. -/
def ATT_CTRL.adr : Nat := 0x10180
def ATT_CTRL.GO : Fld := ⟨0x10180, 0, 1⟩
def ATT_CTRL.DONE : Fld := ⟨0x10180, 1, 1⟩
/-- ATT_NONCE: R443 (13_draft_and_bring_up.md), 64 bits. -/
def ATT_NONCE.adr : Nat := 0x101a0
def ATT_NONCE.NONCE : Fld := ⟨0x101a0, 0, 64⟩
/-- ATT_SEL: R443 (13_draft_and_bring_up.md), 32 bits. -/
def ATT_SEL.adr : Nat := 0x101c0
def ATT_SEL.INDEX : Fld := ⟨0x101c0, 0, 12⟩
/-- ATT_DATA: R443 (13_draft_and_bring_up.md), 64 bits. -/
def ATT_DATA.adr : Nat := 0x101c8
def ATT_DATA.DATA : Fld := ⟨0x101c8, 0, 64⟩
/-- READY_MAIN: R444 (13_draft_and_bring_up.md), 64 bits. -/
def READY_MAIN.adr : Nat := 0x20000
def READY_MAIN.HOST : Fld := ⟨0x20000, 0, 1⟩
def READY_MAIN.CP0 : Fld := ⟨0x20000, 1, 1⟩
def READY_MAIN.CP1 : Fld := ⟨0x20000, 2, 1⟩
def READY_MAIN.FW_AUTH : Fld := ⟨0x20000, 3, 1⟩
def READY_MAIN.TIMEBASE : Fld := ⟨0x20000, 4, 1⟩
def READY_MAIN.COMMONS : Fld := ⟨0x20000, 5, 1⟩
def READY_MAIN.GOVERNOR : Fld := ⟨0x20000, 6, 1⟩
def READY_MAIN.FANTAIL : Fld := ⟨0x20000, 7, 1⟩
def READY_MAIN.SLUICE : Fld := ⟨0x20000, 8, 1⟩
def READY_MAIN.SELVEDGE : Fld := ⟨0x20000, 9, 1⟩
def READY_MAIN.HBM : Fld := ⟨0x20000, 16, 8⟩
def READY_MAIN.MILLPOND : Fld := ⟨0x20000, 24, 8⟩
def READY_MAIN.LPE : Fld := ⟨0x20000, 32, 7⟩
def READY_MAIN.CHECK : Fld := ⟨0x20000, 48, 16⟩
/-- READY_PORT: R445 (13_draft_and_bring_up.md), 64 bits. -/
def READY_PORT.adr : Nat := 0x20008
def READY_PORT.PORTS : Fld := ⟨0x20008, 0, 38⟩
/-- READY_CORE0: R445 (13_draft_and_bring_up.md), 64 bits. -/
def READY_CORE0.adr : Nat := 0x20010
def READY_CORE0.CORES : Fld := ⟨0x20010, 0, 64⟩
/-- READY_CORE1: R445 (13_draft_and_bring_up.md), 32 bits. -/
def READY_CORE1.adr : Nat := 0x20018
def READY_CORE1.CORES : Fld := ⟨0x20018, 0, 8⟩
/-- HOST_ID: R459 (14_host_port.md), 64 bits. -/
def HOST_ID.adr : Nat := 0x0
def HOST_ID.VENDOR : Fld := ⟨0x0, 0, 16⟩
def HOST_ID.DEVICE : Fld := ⟨0x0, 16, 16⟩
def HOST_ID.GRADE : Fld := ⟨0x0, 32, 4⟩
def HOST_ID.LEVEL : Fld := ⟨0x0, 36, 4⟩
def HOST_ID.STEPPING : Fld := ⟨0x0, 40, 8⟩
/-- HOST_SERIAL: R459 (14_host_port.md), 64 bits. -/
def HOST_SERIAL.adr : Nat := 0x8
def HOST_SERIAL.SERIAL : Fld := ⟨0x8, 0, 64⟩
/-- HOST_LINK: R459 (14_host_port.md), 32 bits. -/
def HOST_LINK.adr : Nat := 0x10
def HOST_LINK.RATE : Fld := ⟨0x10, 0, 3⟩
def HOST_LINK.WIDTH : Fld := ⟨0x10, 3, 3⟩
def HOST_LINK.FLIT : Fld := ⟨0x10, 6, 1⟩
def HOST_LINK.RESETS : Fld := ⟨0x10, 16, 16⟩
/-- EVT_REC0: R460 (14_host_port.md), 64 bits. -/
def EVT_REC0.adr : Nat := 0x200
def EVT_REC0.DW0 : Fld := ⟨0x200, 0, 64⟩
/-- EVT_REC1: R460 (14_host_port.md), 64 bits. -/
def EVT_REC1.adr : Nat := 0x208
def EVT_REC1.DW1 : Fld := ⟨0x208, 0, 64⟩
/-- EVT_POP: R460 (14_host_port.md), 32 bits. -/
def EVT_POP.adr : Nat := 0x210
def EVT_POP.POP : Fld := ⟨0x210, 0, 1⟩
/-- EVT_STATUS: R460 (14_host_port.md), 32 bits. -/
def EVT_STATUS.adr : Nat := 0x214
def EVT_STATUS.COUNT : Fld := ⟨0x214, 0, 13⟩
def EVT_STATUS.DROPS : Fld := ⟨0x214, 16, 16⟩
/-- EVT_IRQ: R461 (14_host_port.md), 32 bits. -/
def EVT_IRQ.adr : Nat := 0x218
def EVT_IRQ.LEVEL : Fld := ⟨0x218, 0, 13⟩
def EVT_IRQ.AGE : Fld := ⟨0x218, 16, 16⟩
/-- IRQ_STATUS: R462 (14_host_port.md), 64 bits. -/
def IRQ_STATUS.adr : Nat := 0x230
def IRQ_STATUS.CAUSE : Fld := ⟨0x230, 0, 20⟩
/-- IRQ_ENABLE: R462 (14_host_port.md), 64 bits. -/
def IRQ_ENABLE.adr : Nat := 0x238
def IRQ_ENABLE.ENABLE : Fld := ⟨0x238, 0, 20⟩
/-- TEN_ARM: R477 (15_tension_and_debug.md), 32 bits. -/
def TEN_ARM.adr : Nat := 0x70000
def TEN_ARM.KEY : Fld := ⟨0x70000, 0, 32⟩
/-- TEN_STATUS: R477 (15_tension_and_debug.md), 32 bits. -/
def TEN_STATUS.adr : Nat := 0x70004
def TEN_STATUS.ARMED : Fld := ⟨0x70004, 0, 1⟩
def TEN_STATUS.STAGE : Fld := ⟨0x70004, 1, 1⟩
def TEN_STATUS.IN_FORCE : Fld := ⟨0x70004, 2, 1⟩
def TEN_STATUS.INJECTED : Fld := ⟨0x70004, 3, 1⟩
/-- TEN_PORT_DELAY: R478 (15_tension_and_debug.md), 32 bits. -/
def TEN_PORT_DELAY.adr : Nat := 0x70100
def TEN_PORT_DELAY.DELAY_NS : Fld := ⟨0x70100, 0, 16⟩
/-- TEN_CORE_MASK0: R479 (15_tension_and_debug.md), 64 bits. -/
def TEN_CORE_MASK0.adr : Nat := 0x70200
def TEN_CORE_MASK0.CORES : Fld := ⟨0x70200, 0, 64⟩
/-- TEN_CORE_MASK1: R479 (15_tension_and_debug.md), 32 bits. -/
def TEN_CORE_MASK1.adr : Nat := 0x70208
def TEN_CORE_MASK1.CORES : Fld := ⟨0x70208, 0, 8⟩
/-- TEN_SHUTTLE: R479 (15_tension_and_debug.md), 32 bits. -/
def TEN_SHUTTLE.adr : Nat := 0x70210
def TEN_SHUTTLE.DUTY : Fld := ⟨0x70210, 0, 4⟩
/-- TEN_FLAG: R479 (15_tension_and_debug.md), 32 bits. -/
def TEN_FLAG.adr : Nat := 0x70214
def TEN_FLAG.DELAY : Fld := ⟨0x70214, 0, 16⟩
def TEN_FLAG.LOCAL : Fld := ⟨0x70214, 16, 1⟩
def TEN_FLAG.CHIP : Fld := ⟨0x70214, 17, 1⟩
/-- TEN_HBM: R479 (15_tension_and_debug.md), 32 bits. -/
def TEN_HBM.adr : Nat := 0x70220
def TEN_HBM.LAT_NS : Fld := ⟨0x70220, 0, 12⟩
def TEN_HBM.STACKS : Fld := ⟨0x70220, 16, 8⟩
/-- TEN_JITTER: R479 (15_tension_and_debug.md), 32 bits. -/
def TEN_JITTER.adr : Nat := 0x70228
def TEN_JITTER.MAX_NS : Fld := ⟨0x70228, 0, 12⟩
def TEN_JITTER.SEED : Fld := ⟨0x70228, 16, 16⟩
/-- TEN_COINCIDE: R479 (15_tension_and_debug.md), 32 bits. -/
def TEN_COINCIDE.adr : Nat := 0x70230
def TEN_COINCIDE.COUNT : Fld := ⟨0x70230, 0, 8⟩
def TEN_COINCIDE.WHEN : Fld := ⟨0x70230, 8, 2⟩
/-- TEN_CRC: R480 (15_tension_and_debug.md), 64 bits. -/
def TEN_CRC.adr : Nat := 0x70240
def TEN_CRC.PORT : Fld := ⟨0x70240, 0, 6⟩
def TEN_CRC.DIR : Fld := ⟨0x70240, 6, 1⟩
def TEN_CRC.CLASSES : Fld := ⟨0x70240, 8, 4⟩
def TEN_CRC.COUNT : Fld := ⟨0x70240, 16, 16⟩
/-- TEN_NAN: R480 (15_tension_and_debug.md), 64 bits. -/
def TEN_NAN.adr : Nat := 0x70250
def TEN_NAN.CORE : Fld := ⟨0x70250, 0, 7⟩
def TEN_NAN.ENGINE : Fld := ⟨0x70250, 8, 2⟩
def TEN_NAN.ROW : Fld := ⟨0x70250, 16, 7⟩
def TEN_NAN.COL : Fld := ⟨0x70250, 24, 7⟩
def TEN_NAN.COUNT : Fld := ⟨0x70250, 32, 16⟩
/-- TEN_LB_CTRL: R481 (15_tension_and_debug.md), 64 bits. -/
def TEN_LB_CTRL.adr : Nat := 0x70300
def TEN_LB_CTRL.TYPE : Fld := ⟨0x70300, 0, 2⟩
def TEN_LB_CTRL.INDEX : Fld := ⟨0x70300, 2, 6⟩
def TEN_LB_CTRL.PATTERN : Fld := ⟨0x70300, 8, 2⟩
def TEN_LB_CTRL.START : Fld := ⟨0x70300, 10, 1⟩
def TEN_LB_CTRL.STOP : Fld := ⟨0x70300, 11, 1⟩
def TEN_LB_CTRL.LENGTH : Fld := ⟨0x70300, 12, 20⟩
def TEN_LB_CTRL.USER : Fld := ⟨0x70300, 32, 32⟩
/-- TEN_LB_STATUS: R481 (15_tension_and_debug.md), 64 bits. -/
def TEN_LB_STATUS.adr : Nat := 0x70308
def TEN_LB_STATUS.RUNNING : Fld := ⟨0x70308, 0, 1⟩
def TEN_LB_STATUS.LOCKED : Fld := ⟨0x70308, 1, 1⟩
def TEN_LB_STATUS.BITS : Fld := ⟨0x70308, 2, 62⟩
/-- TEN_LB_ERR: R481 (15_tension_and_debug.md), 64 bits. -/
def TEN_LB_ERR.adr : Nat := 0x70310
def TEN_LB_ERR.ERRORS : Fld := ⟨0x70310, 0, 64⟩
/-- DBG_CTRL: R482 (15_tension_and_debug.md), 32 bits. -/
def DBG_CTRL.adr : Nat := 0x3800000
def DBG_CTRL.MODE : Fld := ⟨0x3800000, 0, 1⟩
/-- DBG_STATUS: R482 (15_tension_and_debug.md), 32 bits. -/
def DBG_STATUS.adr : Nat := 0x3800004
def DBG_STATUS.QREFUSED : Fld := ⟨0x3800004, 0, 1⟩
def DBG_STATUS.WIN_REFUSED : Fld := ⟨0x3800004, 1, 1⟩
/-- DBG_QUIESCE0: R482 (15_tension_and_debug.md), 64 bits. -/
def DBG_QUIESCE0.adr : Nat := 0x3800008
def DBG_QUIESCE0.CORES : Fld := ⟨0x3800008, 0, 64⟩
/-- DBG_QUIESCE1: R482 (15_tension_and_debug.md), 32 bits. -/
def DBG_QUIESCE1.adr : Nat := 0x3800010
def DBG_QUIESCE1.CORES : Fld := ⟨0x3800010, 0, 8⟩
/-- DBG_ACC_SEL: R483 (15_tension_and_debug.md), 32 bits. -/
def DBG_ACC_SEL.adr : Nat := 0x3800020
def DBG_ACC_SEL.CORE : Fld := ⟨0x3800020, 0, 7⟩
def DBG_ACC_SEL.ENGINE : Fld := ⟨0x3800020, 8, 2⟩
def DBG_ACC_SEL.AUTOINC : Fld := ⟨0x3800020, 10, 1⟩
/-- DBG_ACC_IDX: R483 (15_tension_and_debug.md), 32 bits. -/
def DBG_ACC_IDX.adr : Nat := 0x3800024
def DBG_ACC_IDX.INDEX : Fld := ⟨0x3800024, 0, 18⟩
/-- DBG_ACC_DATA: R483 (15_tension_and_debug.md), 64 bits. -/
def DBG_ACC_DATA.adr : Nat := 0x3800028
def DBG_ACC_DATA.DATA : Fld := ⟨0x3800028, 0, 64⟩
/-- DBG_TRACE_BASE: R484 (15_tension_and_debug.md), 64 bits. -/
def DBG_TRACE_BASE.adr : Nat := 0x3800040
def DBG_TRACE_BASE.BASE : Fld := ⟨0x3800040, 4, 44⟩
/-- DBG_TRACE_SIZE: R484 (15_tension_and_debug.md), 32 bits. -/
def DBG_TRACE_SIZE.adr : Nat := 0x3800048
def DBG_TRACE_SIZE.ENTRIES : Fld := ⟨0x3800048, 0, 32⟩
/-- DBG_TRACE_HEAD: R484 (15_tension_and_debug.md), 32 bits. -/
def DBG_TRACE_HEAD.adr : Nat := 0x380004c
def DBG_TRACE_HEAD.HEAD : Fld := ⟨0x380004c, 0, 32⟩
/-- DBG_TRACE_TAIL: R484 (15_tension_and_debug.md), 32 bits. -/
def DBG_TRACE_TAIL.adr : Nat := 0x3800050
def DBG_TRACE_TAIL.TAIL : Fld := ⟨0x3800050, 0, 32⟩
/-- DBG_TRACE_DROPS: R484 (15_tension_and_debug.md), 32 bits. -/
def DBG_TRACE_DROPS.adr : Nat := 0x3800054
def DBG_TRACE_DROPS.COUNT : Fld := ⟨0x3800054, 0, 32⟩
/-- DBG_TRACE_MASK0: R484 (15_tension_and_debug.md), 64 bits. -/
def DBG_TRACE_MASK0.adr : Nat := 0x3800058
def DBG_TRACE_MASK0.CORES : Fld := ⟨0x3800058, 0, 64⟩
/-- DBG_TRACE_MASK1: R484 (15_tension_and_debug.md), 32 bits. -/
def DBG_TRACE_MASK1.adr : Nat := 0x3800060
def DBG_TRACE_MASK1.CORES : Fld := ⟨0x3800060, 0, 8⟩
/-- ENG_FNF_PREV0: R92 (03_matrix_engine.md), 64 bits. -/
def ENG_FNF_PREV0.adr : Nat := 0x1008110
def ENG_FNF_PREV0.VALID : Fld := ⟨0x1008110, 0, 1⟩
def ENG_FNF_PREV0.KIND : Fld := ⟨0x1008110, 1, 3⟩
def ENG_FNF_PREV0.SLOT : Fld := ⟨0x1008110, 4, 3⟩
def ENG_FNF_PREV0.OUT_ROW : Fld := ⟨0x1008110, 8, 7⟩
def ENG_FNF_PREV0.OUT_COL : Fld := ⟨0x1008110, 16, 7⟩
def ENG_FNF_PREV0.BROW : Fld := ⟨0x1008110, 24, 5⟩
def ENG_FNF_PREV0.BLOCK : Fld := ⟨0x1008110, 29, 2⟩
def ENG_FNF_PREV0.OPP_ROW : Fld := ⟨0x1008110, 32, 7⟩
def ENG_FNF_PREV0.PICK : Fld := ⟨0x1008110, 40, 11⟩
def ENG_FNF_PREV0.A_NONFIN : Fld := ⟨0x1008110, 51, 1⟩
def ENG_FNF_PREV0.W_NONFIN : Fld := ⟨0x1008110, 52, 1⟩
def ENG_FNF_PREV0.FROM_TILE : Fld := ⟨0x1008110, 53, 1⟩
/-- ENG_FNF_PREV1: R92 (03_matrix_engine.md), 64 bits. -/
def ENG_FNF_PREV1.adr : Nat := 0x1008118
def ENG_FNF_PREV1.BEAT : Fld := ⟨0x1008118, 0, 64⟩
/-- ENG_CKF_PREV0: R93 (03_matrix_engine.md), 64 bits. -/
def ENG_CKF_PREV0.adr : Nat := 0x1008130
def ENG_CKF_PREV0.VALID : Fld := ⟨0x1008130, 0, 1⟩
def ENG_CKF_PREV0.KIND : Fld := ⟨0x1008130, 1, 1⟩
def ENG_CKF_PREV0.SLOT : Fld := ⟨0x1008130, 4, 3⟩
def ENG_CKF_PREV0.OUT_ROW : Fld := ⟨0x1008130, 8, 7⟩
def ENG_CKF_PREV0.DISAGREE : Fld := ⟨0x1008130, 16, 4⟩
def ENG_CKF_PREV0.KPASS : Fld := ⟨0x1008130, 20, 3⟩
def ENG_CKF_PREV0.COL : Fld := ⟨0x1008130, 32, 7⟩
def ENG_CKF_PREV0.PICK : Fld := ⟨0x1008130, 40, 11⟩
/-- ENG_CKF_PREV1: R93 (03_matrix_engine.md), 64 bits. -/
def ENG_CKF_PREV1.adr : Nat := 0x1008138
def ENG_CKF_PREV1.BEAT : Fld := ⟨0x1008138, 0, 64⟩
/-- CHK_PREV0: R345 (10_step_checking_and_replay.md), 64 bits. -/
def CHK_PREV0.adr : Nat := 0x80020
def CHK_PREV0.CAUSE : Fld := ⟨0x80020, 0, 6⟩
def CHK_PREV0.VALID : Fld := ⟨0x80020, 6, 1⟩
def CHK_PREV0.LCORE : Fld := ⟨0x80020, 8, 6⟩
def CHK_PREV0.UNIT : Fld := ⟨0x80020, 16, 3⟩
def CHK_PREV0.PICK : Fld := ⟨0x80020, 20, 11⟩
def CHK_PREV0.BEAT_IN_STEP : Fld := ⟨0x80020, 32, 16⟩
def CHK_PREV0.DETAIL : Fld := ⟨0x80020, 48, 16⟩
/-- CHK_PREV1: R345 (10_step_checking_and_replay.md), 64 bits. -/
def CHK_PREV1.adr : Nat := 0x80028
def CHK_PREV1.STEP : Fld := ⟨0x80028, 0, 64⟩
/-- CHK_PREV2: R345 (10_step_checking_and_replay.md), 64 bits. -/
def CHK_PREV2.adr : Nat := 0x80030
def CHK_PREV2.SOURCE : Fld := ⟨0x80030, 0, 16⟩
def CHK_PREV2.ROW : Fld := ⟨0x80030, 16, 32⟩
/-- FAIL_MAIN: R444 (13_draft_and_bring_up.md), 64 bits. -/
def FAIL_MAIN.adr : Nat := 0x20020
def FAIL_MAIN.HOST : Fld := ⟨0x20020, 0, 1⟩
def FAIL_MAIN.CP0 : Fld := ⟨0x20020, 1, 1⟩
def FAIL_MAIN.CP1 : Fld := ⟨0x20020, 2, 1⟩
def FAIL_MAIN.FW_AUTH : Fld := ⟨0x20020, 3, 1⟩
def FAIL_MAIN.TIMEBASE : Fld := ⟨0x20020, 4, 1⟩
def FAIL_MAIN.COMMONS : Fld := ⟨0x20020, 5, 1⟩
def FAIL_MAIN.GOVERNOR : Fld := ⟨0x20020, 6, 1⟩
def FAIL_MAIN.FANTAIL : Fld := ⟨0x20020, 7, 1⟩
def FAIL_MAIN.SLUICE : Fld := ⟨0x20020, 8, 1⟩
def FAIL_MAIN.SELVEDGE : Fld := ⟨0x20020, 9, 1⟩
def FAIL_MAIN.HBM : Fld := ⟨0x20020, 16, 8⟩
def FAIL_MAIN.MILLPOND : Fld := ⟨0x20020, 24, 8⟩
def FAIL_MAIN.LPE : Fld := ⟨0x20020, 32, 7⟩
def FAIL_MAIN.CHECK : Fld := ⟨0x20020, 48, 16⟩
/-- FAIL_PORT: R444 (13_draft_and_bring_up.md), 64 bits. -/
def FAIL_PORT.adr : Nat := 0x20028
def FAIL_PORT.PORTS : Fld := ⟨0x20028, 0, 38⟩
/-- FAIL_CORE0: R444 (13_draft_and_bring_up.md), 64 bits. -/
def FAIL_CORE0.adr : Nat := 0x20030
def FAIL_CORE0.CORES : Fld := ⟨0x20030, 0, 64⟩
/-- FAIL_CORE1: R444 (13_draft_and_bring_up.md), 32 bits. -/
def FAIL_CORE1.adr : Nat := 0x20038
def FAIL_CORE1.CORES : Fld := ⟨0x20038, 0, 8⟩

end R

/-- Registers of the index, part 0. -/
def regRows0 : List RegRow :=
  [⟨0x0, 8, [], 0x0, 0x0, 0x10d1010000⟩,
   ⟨0x8, 8, [], 0x0, 0x0, 0x0⟩,
   ⟨0x10, 4, [], 0x0, 0x0, 0x0⟩,
   ⟨0x100, 8, [], 0xfffffffffffff000, 0x0, 0xffff000000000000⟩,
   ⟨0x108, 4, [], 0x0, 0x7, 0x0⟩,
   ⟨0x200, 8, [], 0x0, 0x0, 0x0⟩,
   ⟨0x208, 8, [], 0x0, 0x0, 0x0⟩,
   ⟨0x210, 4, [], 0x0, 0x0, 0x0⟩,
   ⟨0x214, 4, [], 0x0, 0x0, 0x0⟩,
   ⟨0x218, 4, [], 0xffff1fff, 0x0, 0x40001⟩,
   ⟨0x230, 8, [], 0x0, 0xfffff, 0x0⟩,
   ⟨0x238, 8, [], 0xfffff, 0x0, 0x0⟩,
   ⟨0x10000, 4, [], 0x0, 0x0, 0x0⟩,
   ⟨0x10004, 4, [], 0x0, 0x0, 0x0⟩,
   ⟨0x10008, 8, [], 0x0, 0x40000, 0x0⟩,
   ⟨0x10010, 8, [], 0xfffffffffff8, 0x0, 0x0⟩,
   ⟨0x10018, 4, [], 0xffffffff, 0x0, 0x0⟩,
   ⟨0x1001c, 4, [], 0x0, 0x0, 0x0⟩,
   ⟨0x10020, 8, [], 0xffffffffffffffff, 0x0, 0x0⟩,
   ⟨0x10028, 8, [], 0xffffffffffffffff, 0x0, 0x0⟩,
   ⟨0x10040, 8, [(0x8, 8)], 0x0, 0x0, 0x0⟩,
   ⟨0x10080, 8, [(0x8, 4)], 0xffffffffffffffff, 0x0, 0x0⟩,
   ⟨0x100a0, 4, [], 0x3, 0x0, 0x0⟩,
   ⟨0x10100, 4, [], 0x0, 0x0, 0x0⟩]
/-- Registers of the index, part 1. -/
def regRows1 : List RegRow :=
  [⟨0x10104, 4, [], 0x0, 0x0, 0x0⟩,
   ⟨0x10108, 8, [], 0x0, 0x10, 0x0⟩,
   ⟨0x10180, 4, [], 0x0, 0x0, 0x0⟩,
   ⟨0x101a0, 8, [(0x8, 4)], 0xffffffffffffffff, 0x0, 0x0⟩,
   ⟨0x101c0, 4, [], 0xfff, 0x0, 0x0⟩,
   ⟨0x101c8, 8, [], 0x0, 0x0, 0x0⟩,
   ⟨0x20000, 8, [], 0x0, 0x0, 0x0⟩,
   ⟨0x20008, 8, [], 0x0, 0x0, 0x0⟩,
   ⟨0x20010, 8, [], 0x0, 0x0, 0x0⟩,
   ⟨0x20018, 4, [], 0x0, 0x0, 0x0⟩,
   ⟨0x20020, 8, [], 0x0, 0x0, 0x0⟩,
   ⟨0x20028, 8, [], 0x0, 0x0, 0x0⟩,
   ⟨0x20030, 8, [], 0x0, 0x0, 0x0⟩,
   ⟨0x20038, 4, [], 0x0, 0x0, 0x0⟩,
   ⟨0x30000, 8, [], 0x0, 0x0, 0x0⟩,
   ⟨0x30008, 8, [], 0x0, 0x0, 0x0⟩,
   ⟨0x30010, 4, [], 0x1f, 0x0, 0x0⟩,
   ⟨0x30018, 4, [], 0x0, 0x1c, 0x0⟩,
   ⟨0x30100, 8, [], 0x0, 0x0, 0x0⟩,
   ⟨0x30108, 8, [], 0x0, 0x0, 0x0⟩,
   ⟨0x40000, 8, [], 0x0, 0x0, 0x0⟩,
   ⟨0x40008, 8, [], 0x0, 0x0, 0x0⟩,
   ⟨0x40010, 8, [], 0x0, 0x0, 0x0⟩,
   ⟨0x40018, 8, [], 0x0, 0x0, 0x0⟩]
/-- Registers of the index, part 2. -/
def regRows2 : List RegRow :=
  [⟨0x40020, 8, [], 0x0, 0x0, 0x0⟩,
   ⟨0x40028, 4, [], 0x0, 0x0, 0x0⟩,
   ⟨0x40030, 4, [], 0x0, 0x0, 0x0⟩,
   ⟨0x40100, 4, [], 0x0, 0x0, 0x0⟩,
   ⟨0x40108, 8, [], 0x0, 0x0, 0x0⟩,
   ⟨0x40110, 8, [], 0x0, 0x0, 0x0⟩,
   ⟨0x40118, 4, [], 0xffffff07, 0x0, 0x7d003⟩,
   ⟨0x4011c, 4, [], 0x0, 0x0, 0x0⟩,
   ⟨0x40120, 8, [], 0xffffffffffffffff, 0x0, 0x0⟩,
   ⟨0x40128, 8, [], 0x0, 0x0, 0x0⟩,
   ⟨0x40130, 4, [], 0x0, 0x3, 0x0⟩,
   ⟨0x40200, 8, [], 0x0, 0x0, 0x0⟩,
   ⟨0x40208, 8, [], 0x0, 0x0, 0x0⟩,
   ⟨0x40210, 4, [], 0x0, 0xb, 0x0⟩,
   ⟨0x40800, 4, [], 0xffff003f, 0x0, 0x320020⟩,
   ⟨0x40804, 4, [], 0x1, 0x0, 0x0⟩,
   ⟨0x40808, 8, [], 0x0, 0x0, 0x0⟩,
   ⟨0x40810, 8, [], 0x0, 0x0, 0x0⟩,
   ⟨0x40818, 4, [], 0x0, 0x10000, 0x0⟩,
   ⟨0x40820, 8, [], 0x0, 0x4000000000000, 0x0⟩,
   ⟨0x40828, 8, [], 0x0, 0x0, 0x0⟩,
   ⟨0x40830, 4, [], 0xffff, 0x0, 0x0⟩,
   ⟨0x40838, 8, [], 0x0, 0x0, 0x0⟩,
   ⟨0x40840, 4, [], 0xffff, 0x0, 0x0⟩]
/-- Registers of the index, part 3. -/
def regRows3 : List RegRow :=
  [⟨0x40848, 8, [], 0x0, 0x0, 0x0⟩,
   ⟨0x40850, 4, [], 0xfff, 0x0, 0x0⟩,
   ⟨0x40858, 8, [], 0x0, 0x0, 0x0⟩,
   ⟨0x50000, 8, [], 0x20003ff03ffffff, 0x0, 0x200008002003c0c⟩,
   ⟨0x50008, 8, [], 0x0, 0x40000000, 0x0⟩,
   ⟨0x50010, 4, [], 0xff, 0x0, 0x0⟩,
   ⟨0x50018, 8, [], 0x0, 0x0, 0x0⟩,
   ⟨0x50020, 4, [], 0xffff, 0x0, 0x0⟩,
   ⟨0x50028, 8, [], 0x0, 0x0, 0x0⟩,
   ⟨0x50100, 8, [(0x8, 72)], 0x0, 0x0, 0x0⟩,
   ⟨0x50400, 4, [(0x4, 256)], 0x0, 0x0, 0x0⟩,
   ⟨0x50800, 4, [(0x4, 32)], 0x0, 0x0, 0x0⟩,
   ⟨0x50a00, 4, [], 0x71f, 0x0, 0x210⟩,
   ⟨0x50a08, 8, [(0x8, 8)], 0x0, 0x80, 0x1c⟩,
   ⟨0x50b00, 8, [], 0x0, 0x0, 0x0⟩,
   ⟨0x50b08, 4, [], 0xff00, 0x4, 0x200⟩,
   ⟨0x50b10, 4, [], 0x0, 0x0, 0x0⟩,
   ⟨0x60000, 4, [], 0x0, 0x0, 0x0⟩,
   ⟨0x60008, 4, [], 0x0, 0x6000000, 0x0⟩,
   ⟨0x60010, 4, [], 0x7fff007f, 0x0, 0x0⟩,
   ⟨0x60018, 4, [], 0xffffffff, 0x0, 0x0⟩,
   ⟨0x60020, 8, [], 0x0, 0x0, 0x0⟩,
   ⟨0x60028, 8, [], 0xffffffffff00, 0x0, 0x0⟩,
   ⟨0x60030, 4, [], 0xffffffff, 0x0, 0x0⟩]
/-- Registers of the index, part 4. -/
def regRows4 : List RegRow :=
  [⟨0x60038, 4, [], 0x0, 0x0, 0x0⟩,
   ⟨0x6003c, 4, [], 0xffffffff, 0x0, 0x0⟩,
   ⟨0x60040, 4, [], 0xffffff, 0x0, 0x0⟩,
   ⟨0x60044, 4, [], 0xffffff, 0x0, 0x0⟩,
   ⟨0x60048, 4, [], 0xffffffff, 0x0, 0x0⟩,
   ⟨0x6004c, 4, [], 0xffffffff, 0x0, 0x0⟩,
   ⟨0x60050, 4, [], 0xffffffff, 0x0, 0x0⟩,
   ⟨0x60058, 4, [], 0x0, 0x0, 0x0⟩,
   ⟨0x70000, 4, [], 0x0, 0x0, 0x0⟩,
   ⟨0x70004, 4, [], 0x0, 0x8, 0x0⟩,
   ⟨0x70100, 4, [(0x4, 38)], 0xffff, 0x0, 0x0⟩,
   ⟨0x70200, 8, [], 0xffffffffffffffff, 0x0, 0x0⟩,
   ⟨0x70208, 4, [], 0xff, 0x0, 0x0⟩,
   ⟨0x70210, 4, [], 0xf, 0x0, 0x0⟩,
   ⟨0x70214, 4, [], 0x3ffff, 0x0, 0x0⟩,
   ⟨0x70220, 4, [], 0xff0fff, 0x0, 0x0⟩,
   ⟨0x70228, 4, [], 0xffff0fff, 0x0, 0x0⟩,
   ⟨0x70230, 4, [], 0x3ff, 0x0, 0x0⟩,
   ⟨0x70240, 8, [], 0xffff0f7f, 0x0, 0x0⟩,
   ⟨0x70250, 8, [], 0xffff7f7f037f, 0x0, 0x0⟩,
   ⟨0x70300, 8, [], 0xfffffffffffff3ff, 0x0, 0x0⟩,
   ⟨0x70308, 8, [], 0x0, 0x0, 0x0⟩,
   ⟨0x70310, 8, [(0x8, 8)], 0x0, 0x0, 0x0⟩,
   ⟨0x80000, 8, [], 0x0, 0x0, 0x0⟩]
/-- Registers of the index, part 5. -/
def regRows5 : List RegRow :=
  [⟨0x80008, 8, [], 0x0, 0x0, 0x0⟩,
   ⟨0x80010, 8, [], 0x0, 0x0, 0x0⟩,
   ⟨0x80020, 8, [], 0x0, 0x0, 0x0⟩,
   ⟨0x80028, 8, [], 0x0, 0x0, 0x0⟩,
   ⟨0x80030, 8, [], 0x0, 0x0, 0x0⟩,
   ⟨0x80040, 8, [], 0x0, 0x0, 0x0⟩,
   ⟨0x80080, 8, [], 0x0, 0x0, 0x0⟩,
   ⟨0x80088, 8, [], 0x0, 0x0, 0x0⟩,
   ⟨0x80100, 8, [], 0x0, 0x0, 0x0⟩,
   ⟨0x80108, 8, [], 0x0, 0x0, 0x0⟩,
   ⟨0x80110, 8, [], 0x0, 0x0, 0x0⟩,
   ⟨0x80118, 8, [], 0x0, 0x0, 0x0⟩,
   ⟨0x80120, 8, [], 0x0, 0x0, 0x0⟩,
   ⟨0x80128, 4, [], 0x0, 0x7, 0x0⟩,
   ⟨0x88000, 4, [(0x100, 16)], 0x7, 0x0, 0x0⟩,
   ⟨0x88004, 4, [(0x100, 16)], 0x0, 0x0, 0x0⟩,
   ⟨0x88010, 4, [(0x100, 16)], 0x0, 0x0, 0x0⟩,
   ⟨0x88014, 4, [(0x100, 16)], 0x0, 0x0, 0x0⟩,
   ⟨0x88018, 4, [(0x100, 16)], 0x0, 0x0, 0x0⟩,
   ⟨0x88020, 8, [(0x100, 16)], 0xffffffffffffffff, 0x0, 0xffffffff⟩,
   ⟨0x88028, 8, [(0x100, 16)], 0x0, 0x0, 0x0⟩,
   ⟨0x88030, 8, [(0x100, 16)], 0x0, 0x0, 0x0⟩,
   ⟨0x88038, 8, [(0x100, 16)], 0x0, 0x0, 0x0⟩,
   ⟨0x100000, 4, [], 0x0, 0x70, 0x0⟩]
/-- Registers of the index, part 6. -/
def regRows6 : List RegRow :=
  [⟨0x100004, 4, [], 0x2, 0x0, 0x0⟩,
   ⟨0x100008, 8, [], 0x0, 0x0, 0x0⟩,
   ⟨0x100010, 8, [], 0x0, 0x0, 0x0⟩,
   ⟨0x100018, 8, [], 0x0, 0x0, 0x0⟩,
   ⟨0x100020, 8, [], 0x0, 0x0, 0x0⟩,
   ⟨0x100028, 8, [], 0x0, 0x0, 0x0⟩,
   ⟨0x100100, 8, [], 0x0, 0x0, 0x0⟩,
   ⟨0x100108, 8, [], 0xffffffffffffffff, 0x0, 0x0⟩,
   ⟨0x100110, 4, [], 0xffffffff, 0x0, 0xfa060⟩,
   ⟨0x100118, 4, [], 0x0, 0x0, 0x0⟩,
   ⟨0x100140, 8, [(0x8, 8)], 0x0, 0x0, 0x0⟩,
   ⟨0x100180, 8, [(0x8, 8)], 0x1ffffffff, 0x0, 0x0⟩,
   ⟨0x1001c0, 8, [(0x8, 8)], 0x0, 0x0, 0x0⟩,
   ⟨0x100800, 8, [], 0x0, 0x0, 0x0⟩,
   ⟨0x100808, 4, [], 0x0, 0x2, 0x0⟩,
   ⟨0x100810, 8, [], 0x0, 0x4, 0x0⟩,
   ⟨0x100818, 8, [], 0x0, 0x0, 0x0⟩,
   ⟨0x100820, 8, [], 0x0, 0x0, 0x0⟩,
   ⟨0x100840, 8, [], 0x0, 0x4, 0x0⟩,
   ⟨0x100848, 8, [], 0x0, 0x0, 0x0⟩,
   ⟨0x100850, 8, [], 0x0, 0x0, 0x0⟩,
   ⟨0x100880, 4, [], 0x0, 0x0, 0x0⟩,
   ⟨0x100888, 8, [], 0xffffffffffffffff, 0x0, 0x0⟩,
   ⟨0x100890, 4, [], 0x0, 0x3e0, 0x0⟩]
/-- Registers of the index, part 7. -/
def regRows7 : List RegRow :=
  [⟨0x1000000, 4, [(0x10000, 72)], 0x0, 0x0, 0x0⟩,
   ⟨0x1000008, 8, [(0x10000, 72)], 0x0, 0x0, 0x0⟩,
   ⟨0x1000010, 8, [(0x10000, 72)], 0x0, 0x0, 0x0⟩,
   ⟨0x1000040, 4, [(0x10000, 72), (0x10, 6), (0x4, 3)], 0x0, 0x0, 0x0⟩,
   ⟨0x1000100, 4, [(0x10000, 72), (0x40, 6)], 0x0, 0x38, 0x0⟩,
   ⟨0x1000108, 8, [(0x10000, 72), (0x40, 6)], 0x0, 0x0, 0x0⟩,
   ⟨0x1000110, 8, [(0x10000, 72), (0x40, 6)], 0x0, 0x800000, 0x0⟩,
   ⟨0x1000118, 8, [(0x10000, 72), (0x40, 6)], 0x0, 0x0, 0x0⟩,
   ⟨0x1000120, 8, [(0x10000, 72), (0x40, 6)], 0x0, 0x0, 0x0⟩,
   ⟨0x1000128, 8, [(0x10000, 72), (0x40, 6)], 0x0, 0x0, 0x0⟩,
   ⟨0x1000400, 4, [(0x10000, 72), (0x4, 32)], 0xffffffff, 0x0, 0x0⟩,
   ⟨0x1000500, 8, [(0x10000, 72)], 0x0, 0x0, 0x0⟩,
   ⟨0x1000508, 8, [(0x10000, 72)], 0x0, 0x0, 0x0⟩,
   ⟨0x1000510, 8, [(0x10000, 72)], 0x0, 0x0, 0x0⟩,
   ⟨0x1008000, 4, [(0x10000, 72), (0x1000, 4)], 0x0, 0x0, 0x70000⟩,
   ⟨0x1008008, 8, [(0x10000, 72), (0x1000, 4)], 0x0, 0x0, 0x0⟩,
   ⟨0x1008010, 4, [(0x10000, 72), (0x1000, 4)], 0x0, 0x73f00, 0x0⟩,
   ⟨0x1008040, 4, [(0x10000, 72), (0x1000, 4), (0x8, 8)], 0x0, 0x0, 0x0⟩,
   ⟨0x1008100, 8, [(0x10000, 72), (0x1000, 4)], 0x0, 0x0, 0x0⟩,
   ⟨0x1008108, 8, [(0x10000, 72), (0x1000, 4)], 0x0, 0x0, 0x0⟩,
   ⟨0x1008110, 8, [(0x10000, 72), (0x1000, 4)], 0x0, 0x0, 0x0⟩,
   ⟨0x1008118, 8, [(0x10000, 72), (0x1000, 4)], 0x0, 0x0, 0x0⟩,
   ⟨0x1008120, 8, [(0x10000, 72), (0x1000, 4)], 0x0, 0x0, 0x0⟩,
   ⟨0x1008128, 8, [(0x10000, 72), (0x1000, 4)], 0x0, 0x0, 0x0⟩]
/-- Registers of the index, part 8. -/
def regRows8 : List RegRow :=
  [⟨0x1008130, 8, [(0x10000, 72), (0x1000, 4)], 0x0, 0x0, 0x0⟩,
   ⟨0x1008138, 8, [(0x10000, 72), (0x1000, 4)], 0x0, 0x0, 0x0⟩,
   ⟨0x1008200, 8, [(0x10000, 72), (0x1000, 4)], 0x0, 0x0, 0x0⟩,
   ⟨0x1008208, 8, [(0x10000, 72), (0x1000, 4)], 0x0, 0x0, 0x0⟩,
   ⟨0x1008210, 8, [(0x10000, 72), (0x1000, 4)], 0x0, 0x0, 0x0⟩,
   ⟨0x1008218, 4, [(0x10000, 72), (0x1000, 4)], 0x0, 0x0, 0x0⟩,
   ⟨0x2000000, 4, [(0x40000, 8)], 0x0, 0x40, 0x0⟩,
   ⟨0x2000008, 4, [(0x40000, 8)], 0x3, 0x0, 0x0⟩,
   ⟨0x2000100, 4, [(0x40000, 8), (0x4, 32)], 0x0, 0x0, 0x0⟩,
   ⟨0x2000200, 8, [(0x40000, 8), (0x8, 32)], 0x0, 0x0, 0x0⟩,
   ⟨0x2000400, 4, [(0x40000, 8), (0x4, 32)], 0x0, 0x0, 0x0⟩,
   ⟨0x2400008, 4, [], 0xffff, 0x0, 0x0⟩,
   ⟨0x2400100, 8, [(0x8, 6)], 0x0, 0x0, 0x0⟩,
   ⟨0x2400140, 4, [(0x4, 5)], 0x0, 0x0, 0x0⟩,
   ⟨0x2400200, 8, [(0x8, 8)], 0x0, 0x0, 0x0⟩,
   ⟨0x2800000, 4, [(0x10000, 38)], 0x0, 0x0, 0x0⟩,
   ⟨0x2800004, 4, [(0x10000, 38)], 0xc, 0x0, 0x0⟩,
   ⟨0x2800008, 4, [(0x10000, 38)], 0x0, 0x0, 0x0⟩,
   ⟨0x280000c, 4, [(0x10000, 38)], 0x0, 0x0, 0x0⟩,
   ⟨0x2800010, 8, [(0x10000, 38)], 0x0, 0x0, 0x0⟩,
   ⟨0x2800018, 8, [(0x10000, 38)], 0x0, 0x0, 0x0⟩,
   ⟨0x2800100, 8, [(0x10000, 38), (0x8, 8)], 0x0, 0x0, 0x0⟩,
   ⟨0x2c00000, 4, [(0x10000, 7)], 0x0, 0x0, 0x0⟩,
   ⟨0x2c00008, 8, [(0x10000, 7)], 0x0, 0x0, 0x0⟩]
/-- Registers of the index, part 9. -/
def regRows9 : List RegRow :=
  [⟨0x2c00010, 8, [(0x10000, 7)], 0x0, 0x0, 0x0⟩,
   ⟨0x3000000, 4, [], 0x0, 0x0, 0x0⟩,
   ⟨0x3000010, 4, [], 0xffff, 0x0, 0x0⟩,
   ⟨0x3000018, 8, [], 0x0, 0x0, 0x0⟩,
   ⟨0x3000020, 4, [], 0x0, 0x0, 0x0⟩,
   ⟨0x3000028, 4, [], 0xffffff, 0x0, 0x19082⟩,
   ⟨0x3000030, 8, [], 0x0, 0x0, 0x0⟩,
   ⟨0x3000038, 4, [], 0x0, 0x0, 0x0⟩,
   ⟨0x3000040, 4, [], 0x0, 0x20000000, 0x0⟩,
   ⟨0x3800000, 4, [], 0x1, 0x0, 0x0⟩,
   ⟨0x3800004, 4, [], 0x0, 0x3, 0x0⟩,
   ⟨0x3800008, 8, [], 0xffffffffffffffff, 0x0, 0x0⟩,
   ⟨0x3800010, 4, [], 0xff, 0x0, 0x0⟩,
   ⟨0x3800020, 4, [], 0x77f, 0x0, 0x0⟩,
   ⟨0x3800024, 4, [], 0x3ffff, 0x0, 0x0⟩,
   ⟨0x3800028, 8, [], 0xffffffffffffffff, 0x0, 0x0⟩,
   ⟨0x3800040, 8, [], 0xfffffffffff0, 0x0, 0x0⟩,
   ⟨0x3800048, 4, [], 0xffffffff, 0x0, 0x0⟩,
   ⟨0x380004c, 4, [], 0x0, 0x0, 0x0⟩,
   ⟨0x3800050, 4, [], 0xffffffff, 0x0, 0x0⟩,
   ⟨0x3800054, 4, [], 0x0, 0x0, 0x0⟩,
   ⟨0x3800058, 8, [], 0xffffffffffffffff, 0x0, 0x0⟩,
   ⟨0x3800060, 4, [], 0xff, 0x0, 0x0⟩,
   ⟨0x50900, 4, [(0x4, 104)], 0x0, 0x0, 0x0⟩]

/-- Every register of the index (R463). -/
def regRows : List RegRow :=
  regRows0 ++ regRows1 ++ regRows2 ++ regRows3 ++ regRows4 ++ regRows5 ++ regRows6 ++ regRows7 ++ regRows8 ++ regRows9

/-- Whether `d` is the offset of an instance within dimensions `dims` (each stride spans the dimensions inside it). -/
def dimsHit : List (Nat × Nat) → Nat → Bool
  | [], d => d == 0
  | (stride, count) :: ds, d => d / stride < count && dimsHit ds (d % stride)

/-- The register whose instance starts at offset `off`, if any. -/
def regRowAt (off : Nat) : Option RegRow :=
  regRows.find? (fun r => r.base ≤ off && dimsHit r.dims (off - r.base))

/-- The power-on value the table states for the word at `off` (R8); a fused value is not here. -/
def tableReset (off : Nat) : Nat :=
  match regRowAt off with
  | some r => r.rst
  | none => 0

end Sys2Proof.Machine
end

