-- ==== Sys2Proof/Config.lean ====
section
/-! DEFINITION. What one implementation fixes and what the spec leaves open: constants without a body (free values), and the choices the spec makes per part. -/

namespace Sys2Proof.Config

/-- What a byte of HBM or millpond holds after a load that changed the memory layout: R422 calls the contents undefined.
The first argument is the generation of the layout, the second the byte's home key. Free value, log entry 6. -/
opaque freeByte : Nat → Nat → Byte

/-- What an accumulator entry holds after a restore that did not save its slot: R371 leaves it undefined. Arguments: generation, entry key. Free value, log entry 6. -/
opaque freeAcc : Nat → Nat → BitVec 48

/-- A fresh value that the spec does not fix: a random nonce (R253), a result that the spec leaves undefined. The argument is the count of values drawn before. Free value, log entry 6. -/
opaque freeBits : Nat → BitVec 256

/-- The strapping of the module's SMB_ADDR pins, which the board decides (R498). -/
opaque smbAddr : BitVec 3

/-- VENDOR of HOST_ID, fused (R446, R459). Log entry 3. -/
opaque vendor : BitVec 16

/-- SERIAL, fused (R459). Log entry 3. -/
opaque serial : BitVec 64

/-- STEPPING, fused (R459). Log entry 3. -/
opaque stepping : BitVec 8

/-- Seed of the Ed25519 identity key pair, fused (R251). Log entry 3. -/
opaque idSeed : BitVec 256

/-- The Swian device certificate, fused (R251). Log entry 3. -/
opaque certificate : BitVec 512

/-- Public half of Swian's device-certification key, in the boot ROM (R251). Log entry 3. -/
opaque certKey : BitVec 256

/-- The firmware public key of an index, in the boot ROM (R430). Log entry 3. -/
opaque fwKey : Nat → BitVec 256

/-- The bytes of a firmware flash slot as manufactured (R430). Log entry 3. -/
opaque flashImage : Nat → List Byte

end Sys2Proof.Config
end

