-- ==== Sys2Proof/Machine/Job.lean ====
section
/-! DEFINITION. The contents of a draft (R413 to R417), section by section, as plain data: what the device holds of the job. -/

namespace Sys2Proof.Machine

/-- A roster member (R300). -/
structure Member where
  num : Nat
  endpoint : Bool
  spare : Bool
  cap : Nat
  fgroup : Nat
  key : BitVec 256
  deriving DecidableEq, Repr

/-- A shard entry (R301). -/
structure ShardEnt where
  wLines : Nat
  oLines : Nat
  aff : Nat
  home : Nat
  deriving DecidableEq, Repr

/-- A ring-shed entry (R307, R416). -/
structure ShedEnt where
  seat : Nat
  seq : Nat
  group : Nat
  deriving DecidableEq, Repr

/-- A seat-map entry (R416). -/
structure SeatEnt where
  seat : Nat
  program : Nat
  patch : Nat
  deriving DecidableEq, Repr

/-- The weave section (R416). -/
structure Weave where
  broad : Bool
  ver : Nat
  ownerKey : BitVec 256
  ownerSig : BitVec 512
  salt : Nat
  members : List Member
  /-- the listed groups, of IDs 1 upward, each a list of seats -/
  groups : List (List Nat)
  shards : List ShardEnt
  sheds : List ShedEnt
  seatMap : List SeatEnt
  /-- SHA-512 of PLACE_SALT and the member entries (R417) -/
  digest : BitVec 512
  deriving DecidableEq, Repr

/-- The memory section (R416); sizes and bases in GiB. -/
structure MemSec where
  parts : List (Nat × Nat)
  regs : List Nat
  /-- SNAP, MIRROR0, MIRROR1, RETAIN, TAIL -/
  regions : List (Nat × Nat)
  hotCfg : Nat
  deriving DecidableEq, Repr

/-- A restore target (R328). -/
structure RestoreTarget where
  addr : Nat
  len : Nat
  off : Nat
  parity : Nat
  flags : Nat
  deriving DecidableEq, Repr

/-- The check section (R416). -/
structure CheckSec where
  n : Nat
  d : Nat
  kSample : Nat
  smpBase : Nat
  smpEntries : Nat
  probEntries : Nat
  retSlots : Nat
  stageKib : Nat
  recCfg : Nat
  voteCfg : Nat
  targets : List RestoreTarget
  deriving DecidableEq, Repr

/-- A target of the checkpoint group (R361, R416). -/
structure TailTarget where
  num : Nat
  endpoint : Bool
  deriving DecidableEq, Repr

/-- The snapshot section (R416); the trim table as pairs of first line and count (R352). -/
structure SnapSec where
  interval : Nat
  stateTiles : Nat
  tailSteps : Nat
  tailK : Nat
  trimmed : Bool
  trim : List (Nat × Nat)
  targets : List TailTarget
  deriving DecidableEq, Repr

/-- The governor section (R416): records as words 0 to 2, from record 1. -/
structure GovSec where
  seed : Nat
  records : Nat
  measSteps : Nat
  /-- GOV_TH_SAT, VAN, MINCONV, RATIO_HI, RATIO_LO -/
  th : List Nat
  recs : List (Nat × Nat × Nat)
  deriving DecidableEq, Repr

/-- The sequence section (R416). -/
structure SeqSec where
  firstStep : Nat
  lastStep : Nat
  bTrain : Nat
  bMeas : Nat
  bClose : Nat
  deriving DecidableEq, Repr

/-- A chunk of core-store contents (R416). -/
structure Chunk where
  off : Nat
  bytes : List Byte
  deriving DecidableEq, Repr

/-- The part of a program for one logical core (R416): list offsets at 4t + k, images from a first index on, chunks. -/
structure CoreProg where
  core : Nat
  lists : List Nat
  first : Nat
  images : List (List Byte)
  chunks : List Chunk
  deriving DecidableEq, Repr

/-- A PROGRAM section (R416). -/
structure ProgSec where
  program : Nat
  group : Nat
  cores : List CoreProg
  deriving DecidableEq, Repr

/-- An entry of a PATCH section (R416), with its patch-set number and group. -/
structure PatchEnt where
  set : Nat
  group : Nat
  core : Nat
  idx : Nat
  word : Nat
  value : Nat
  deriving DecidableEq, Repr

/-- An entry of a sample table (R322, R416); `partner` is the signed seat offset. -/
structure SampleEnt where
  kind : Nat
  core : Nat
  treadle : Nat
  j : Nat
  partner : Int
  entry : Nat
  deriving DecidableEq, Repr

/-- A section as it stands in the draft (R414): its header fields, the offset of its header, and its body. -/
structure Sect where
  type : Nat
  level : Nat
  group : Nat
  program : Nat
  off : Nat
  body : List Byte
  deriving DecidableEq, Repr

/-- A draft that has been read: the header's fields and every section at level 1 (R413, R416). -/
structure Draft where
  reload : Bool
  group : Nat
  signer : BitVec 256
  base : BitVec 512
  /-- SHA-512 of bytes 0x000 to 0x0BF (R413) -/
  digest : BitVec 512
  sects : List Sect
  ngroups : Nat
  /-- group of logical core c, 0xFF for none -/
  coreGroup : List Nat
  period : Nat
  guardPm : Nat
  weave : Weave
  mem : MemSec
  salt : Nat
  /-- spare ports 36 and 37: plane and cabled -/
  spares : List (Nat × Bool)
  selTmo : Nat
  check : CheckSec
  snap : SnapSec
  fanCfg : Nat
  fanHeatCfg : Nat
  hbMiss : Nat
  gov : GovSec
  seq : SeqSec
  programs : List ProgSec
  patches : List PatchEnt
  /-- the sample tables by program (R416, R398) -/
  samples : List (Nat × List SampleEnt)
  deriving DecidableEq, Repr

end Sys2Proof.Machine
end

