-- ==== Sys2Proof/Machine/State.lean ====
section
/-! DEFINITION. The state of the block: everything the spec gives the machine, as plain data, and the state after reset.
Registers of the global index (R463) lie in `Ctl.regs`, by offset in the register space; everything the spec gives the device that is no numbered register is a typed field. -/

namespace Sys2Proof.Machine

/-- A fault stops the machine. The spec never stops the device: every error is a next state (R2, R9, R153, R171), so nothing raises this. -/
inductive Fault where
  /-- Raised by nothing. Safe. -/
  | unreachable
  deriving DecidableEq, Repr

/-- A refusal: the model gives a command no meaning. -/
inductive Refusal where
  /-- Raised by an arm of `exec` whose command has no meaning yet. Safe: the model stops where the hardware goes on. -/
  | notModelled (mnemonic : String)
  deriving DecidableEq, Repr

/-- The two grades (R1). -/
inductive Grade where
  | a64
  | b48
  deriving DecidableEq, Repr

/-- Fused values, which survive power (R8 "F", R251, R427, R429, R432). -/
structure Fuses where
  grade : Grade
  vendor : BitVec 16
  serial : BitVec 64
  stepping : BitVec 8
  idSeed : BitVec 256
  certificate : BitVec 512
  minSecver : Nat
  keyRevoked : Nat
  /-- physical source codes of the units left out of service at power-on, at most 256 (R428) -/
  repairs : List Nat
  deriving DecidableEq, Repr

/-- The module's power, pins and management controller (R485 to R498). -/
structure Power where
  /-- 48 V is present (R485) -/
  input : Bool
  /-- the regulators are on (R487) -/
  on : Bool
  /-- a switch-off that lasts until input power is removed (R487) -/
  latched : Bool
  /-- RESET_N is released (R489) -/
  released : Bool
  /-- reference clocks missing (R495) -/
  noPcie : Bool
  noFabric : Bool
  noSystem : Bool
  /-- the system clock was lost, and RESET_N has not been low since (R495) -/
  held : Bool
  /-- MOD_STATUS, but for RUNNING, and the highest PIN (R498) -/
  modStatus : BitVec 16
  pinPeak : BitVec 16
  /-- the pins SMB_ADDR[2:0] (R498) -/
  smbAddr : BitVec 3
  /-- coolant temperatures at the plate's inlet and outlet as last measured, in 0.125 degrees (R492) -/
  plateIn : Option Nat
  plateOut : Option Nat
  /-- answers given on SMBus, in order: the command code and the bytes (R498) -/
  smb : List (Nat × List Byte)
  deriving DecidableEq, Repr

/-- A 128-bit event record (R453) and the count of beat boundaries at which it entered the queue (R457). -/
structure Event where
  dw0 : Dword
  dw1 : Dword
  entered : Nat
  deriving DecidableEq, Repr

/-- An MSI-X message write (R447, R458). -/
structure MsixMsg where
  vector : Nat
  addr : Dword
  data : Word
  deriving DecidableEq, Repr

/-- How a non-posted request of the host completes: with data, or as an Unsupported Request (R448 to R450). -/
inductive Completion where
  | data (v : Dword)
  | unsupported
  deriving DecidableEq, Repr

/-- A request of the host as it arrives: an offset in BAR0, or in BAR2, the porthole (R449). -/
structure HostReq where
  isRead : Bool
  bar0 : Bool
  off : Nat
  width : Nat
  data : Dword
  deriving DecidableEq, Repr

/-- A request of the host that the port has accepted and that has not completed (R187, R188, R450). -/
structure PortOp where
  isRead : Bool
  /-- a request to BAR0, whose `addr` is the offset there; else `addr` is the global address -/
  bar0 : Bool
  addr : Nat
  /-- 4 or 8; 0 for a read of the wrong size or alignment, which reads as zero -/
  width : Nat
  data : Dword
  /-- the access is under way: held by a stack, or sent to a remote device -/
  issued : Bool
  /-- answered as an Unsupported Request (R448) -/
  unsup : Bool
  /-- the MODEL's own number, by which the end of an access names it -/
  num : Nat
  deriving DecidableEq, Repr

/-- The error messages of AER (R447). -/
inductive ErrMsg where
  | correctable
  | nonFatal
  | fatal
  deriving DecidableEq, Repr

/-- What the host may change in configuration space, by the names of the PCI Express standard (R446, R447; log entry 4). -/
structure Cfg where
  /-- Command: bit 1 Memory Space Enable, bit 2 Bus Master Enable, bit 8 SERR# Enable -/
  command : BitVec 16
  /-- base addresses of BAR0/1 and BAR2/3 -/
  bar0 : Dword
  bar2 : Dword
  /-- Device Control: bits 0 to 3 enable the reports of correctable, non-fatal and fatal errors and of Unsupported Requests -/
  deviceControl : BitVec 16
  /-- Device Status: bits 0 to 3 record them -/
  deviceStatus : BitVec 16
  /-- MSI-X Enable and Function Mask (R458) -/
  msixEn : Bool
  funcMask : Bool
  /-- AER: Uncorrectable Error Status, Mask and Severity, Correctable Error Status and Mask -/
  uncStatus : Word
  uncMask : Word
  uncSeverity : Word
  corStatus : Word
  corMask : Word
  deriving DecidableEq, Repr

/-- The host port beyond its registers (R446 to R458). -/
structure HostPort where
  /-- the event queue, oldest first (R456) -/
  evq : List Event
  /-- records of the cycle being gathered, when a command raises several in one cycle (R456) -/
  gather : Option (List Event)
  /-- messages sent, in order (R458) -/
  msix : List MsixMsg
  /-- configuration space (R446, R447) -/
  cfg : Cfg
  /-- error messages sent, in order (R447) -/
  errs : List ErrMsg
  /-- D3hot (R448) -/
  d3 : Bool
  /-- the PCI Express Loopback state (R473) -/
  loopback : Bool
  /-- the link is trained (R446) -/
  linkUp : Bool
  /-- requests accepted and not yet completed, in order of arrival (R187, R450) -/
  ops : List PortOp
  /-- requests held back by flow-control credits, in order of arrival (R450) -/
  backlog : List HostReq
  /-- data of completed non-posted requests, in order (R450) -/
  rsp : List Completion
  /-- the staging slots at the atomic port: 0 host, 1 and 2 the control processors (R184) -/
  slots : Tab Nat
  deriving DecidableEq, Repr

/-- One piece of a transfer: source and destination global addresses, length, and the add format if it adds (R176, R178). -/
structure Piece where
  /-- its place in the issue order of its pick (R171, R176) -/
  num : Nat
  src : Nat
  dst : Nat
  len : Nat
  add : Option Nat
  deriving DecidableEq, Repr

/-- A started pick of a treadle (R144). -/
structure Running where
  image : List Word
  /-- pick-store index and list word index -/
  idx : Nat
  word : Nat
  /-- the list word's SEG_END and STEP_END -/
  segEnd : Bool
  stepEnd : Bool
  /-- runs in the failed state, without waiting or working (R153) -/
  hollow : Bool
  /-- loop counts LOOP0 to LOOP3 and the count register of M_TAIL, read once at the start (R134, R136, R137) -/
  counts : List Nat
  mTail : Nat
  /-- the pick's own work has been done -/
  worked : Bool
  /-- its collective lost a frame and has ended: it completes at once (R293) -/
  lost : Bool
  /-- pieces not yet issued (R176) -/
  todo : List Piece
  /-- requests and held writes not yet acknowledged (R16) -/
  waiting : Nat
  /-- parts of the bytes a CNTLOAD or PLOAD reads, by part (R138, R140) -/
  got : Tab (List Byte)
  deriving DecidableEq, Repr

/-- An image copied into the working registers and not yet started (R129). -/
structure Loaded where
  image : List Word
  idx : Nat
  word : Nat
  segEnd : Bool
  stepEnd : Bool
  /-- the local flags whose set let the pick start: it starts in the cycle in which they are set (R144, R147) -/
  due : Dword
  deriving DecidableEq, Repr

/-- The working state of a treadle (R129, R141 to R153). -/
structure Treadle where
  /-- a list is chosen and its end has not been passed (R142) -/
  active : Bool
  /-- core-store offset of the list -/
  off : Nat
  /-- list words read and not yet taken, oldest first (R143) -/
  ahead : List Word
  /-- index of the next list word to read -/
  next : Nat
  /-- empty segments of the current EMPTY word still to run after this one (R141) -/
  emptyLeft : Nat
  /-- the EMPTY word being run carries STEP_END -/
  emptyEnd : Bool
  /-- the last word of the current segment has been taken -/
  closed : Bool
  /-- a pick of the current segment has been taken -/
  taken : Bool
  /-- the current segment's work is over -/
  done : Bool
  /-- the next segment's last word was taken, and refused, in the guard (R143, R150) -/
  pre : Bool
  /-- the next segment's first word has been loaded or refused in this guard (R143) -/
  early : Bool
  /-- STEP_END has been taken -/
  ended : Bool
  /-- the rest of the segment retires hollow (R150, R153) -/
  hollow : Bool
  /-- stopped at the guard, until the boundary -/
  stopped : Bool
  load : Option Loaded
  /-- started picks not complete, oldest first -/
  runs : List Running
  deriving DecidableEq, Repr

/-- A delayed set of flags under the flag-delay perturbation (R468): core, treadle, local flags, chip flag group and flags. -/
structure DelayedSet where
  p : Nat
  t : Nat
  loc : Dword
  grp : Nat
  chip : Dword
  deriving DecidableEq, Repr

/-- An entry of the pick trace (R476). -/
structure TraceEnt where
  dw0 : Dword
  dw1 : Dword
  deriving DecidableEq, Repr

/-- Whom the end of a write completes: a held write performed (R401), a remote one acknowledged (R243), an atomic's return (R185). -/
inductive HeldFor where
  /-- a pick of treadle t of core p -/
  | pick (p t : Nat)
  /-- piece `num` of the shuttle pick of core p, or the output of its COLL pick from byte `num` on (R171, R176) -/
  | piece (p num : Nat)
  /-- a remote device's request, acknowledged under its tag with a STATUS (R243) -/
  | remote (peer tag status : Nat)
  /-- the host's posted write of a number -/
  | porthole (num : Nat)
  | nobody
  deriving DecidableEq, Repr

/-- What the response to an outstanding request completes (R243, R263). -/
inductive Cont where
  /-- the read half of a shuttle piece: the data goes to the global address `dst`, for `who` -/
  | moveRead (who : HeldFor) (dst : Nat) (add : Option Nat)
  /-- a write, an add-write or an atomic for `who` -/
  | write (who : HeldFor)
  /-- part `k` of the bytes a CNTLOAD or PLOAD of core p reads -/
  | gather (p k : Nat)
  /-- the porthole read in service -/
  | portRead (width : Nat)
  /-- nothing waits -/
  | none
  deriving DecidableEq, Repr

/-- A response held by forced coincidence: the port it came in on, its STATUS and its data (R469). -/
structure HeldRsp where
  port : Nat
  status : Nat
  data : List Byte
  deriving DecidableEq, Repr

/-- An outstanding request (R243, R263). -/
structure Req where
  peer : Nat
  port : Nat
  isRead : Bool
  len : Nat
  addr : Nat
  /-- boundary count at which the deadline expires -/
  deadline : Nat
  cont : Cont
  /-- a response held by forced coincidence (R469) -/
  held : Option HeldRsp
  deriving DecidableEq, Repr

/-- A flow context (R244, R245). -/
structure Flow where
  peer : Nat
  cls : Nat
  port : Nat
  /-- transmit counter, none until a frame is sent -/
  tx : Option Nat
  /-- expected receive counter, none until a frame is received -/
  rx : Option Nat
  /-- boundary count of its last frame -/
  last : Nat
  deriving DecidableEq, Repr

/-- A frame sent: the physical port and the frame with its check value (R239, R240). -/
structure TxFrame where
  port : Nat
  frame : Frame
  crc : Word
  deriving DecidableEq, Repr

/-- A frame waiting for a port or a flow context (R233, R244). -/
structure WaitFrame where
  logical : Nat
  frame : Frame
  deriving DecidableEq, Repr

/-- One memory: bytes by home key in canonical form (keys strictly rising, no byte equal to what an unlisted key reads as), and the generation of the undefined contents an unlisted HBM or millpond key reads as (R422). -/
structure Store where
  gen : Nat
  cells : List Host.Cell
  deriving DecidableEq, Repr

/-- One row of the core table of the heddle map (R13, R436): the logical core served, 0 FREE spare, 1 IN_SERVICE, 2 RETIRED, 3 ABSENT, and the engines in service (R159). -/
structure CoreSlot where
  logical : Option Nat
  state : Nat
  engines : BitVec 4
  deriving DecidableEq, Repr

/-- The step in progress, beyond its registers (R20 to R23, R153, R295, R332). -/
structure StepSt where
  /-- a step has opened since the draft was applied (R27) -/
  opened : Bool
  /-- beat within the OPEN step (R142) -/
  beat : Nat
  /-- list kind of the step: 0 TRAIN, 1 MEAS, 2 CLOSE, 3 PROBATION (R142, R398) -/
  kind : Nat
  /-- the failed state (R153) -/
  failed : Bool
  /-- the device's own commit-fault bit (R23) -/
  fault : Bool
  /-- VOTE_UP has been sent for the OPEN step (R316) -/
  voteSent : Bool
  /-- trailers received in COLL frames of the OPEN step, ORed (R294) -/
  heard : BitVec 5
  /-- drains of CK_SAMPLE picks so far in the step, by 6 × logical core + treadle (R321) -/
  drains : Tab Nat
  /-- sample entries compared in the step (R322) -/
  compared : List Nat
  /-- a non-finite output after the last reduction has been reported in the step (R102), a non-finite update in the beat (R113) -/
  nfLate : Bool
  updNonfin : Bool
  /-- logical cores whose first range failure of the beat has been captured (R320) -/
  ranged : List Nat
  /-- checksum columns that disagreed at the fault in CHK_FIRST, and at that in CHK_PREV, where its cause is CKSUM (R82, R318) -/
  ckFirst : Nat
  ckPrev : Nat
  /-- the step's pick lists hold a VOTE (R297) -/
  hasVote : Bool
  /-- STOP in the trailer of the OPEN step, and owed to the next step opened (R332) -/
  stop : Bool
  stopNext : Bool
  /-- a step has sealed, has been checked, and the rollback point exists, since the draft was applied (R22 to R24, R339) -/
  hasSealed : Bool
  hasChecked : Bool
  hasRollback : Bool
  /-- steps in which an injection took effect, since the draft was applied (R467) -/
  injected : List Nat
  /-- the failed state of a beat without TIME_DOWN is owed to the trailer of the next step (R261) -/
  ckNext : Bool
  /-- the last step sealed was a measuring step (R109) -/
  prevMeas : Bool
  /-- MEAS_LEFT after each sealed step that is not released, and whether that step was a measuring step (R109, R333) -/
  marks : Tab (Nat × Bool)
  deriving DecidableEq, Repr

/-- A peer's admission state (R252 to R256, R263, R273). -/
structure Peer where
  /-- 1 PENDING, 2 ADMITTED, 3 QUARANTINED, 4 UNREACHABLE -/
  state : Nat
  level : Nat
  reason : Nat
  qport : Nat
  beat : Nat
  /-- a handshake is under way -/
  active : Bool
  attempts : Nat
  /-- boundary count of the admission deadline, or of the next retry of an UNREACHABLE peer -/
  deadline : Option Nat
  /-- boundary count at which the retry of an UNREACHABLE peer ends (R252, R263) -/
  lapse : Option Nat
  /-- the nonces of the handshake: own, and the peer's with its AL_MAX byte once its HELLO has arrived -/
  nonce : BitVec 256
  theirs : Option (BitVec 256 × Nat)
  sentAdmitted : Bool
  gotAdmitted : Bool
  deriving DecidableEq, Repr

/-- What a TIME_UP carries (R260), with its arrival time. -/
structure UpMsg where
  tx : Nat
  arrive : Nat
  stretch : Nat
  fault : Bool
  commit : Bool
  snap : Nat
  lost : Option Nat
  deriving DecidableEq, Repr

/-- Combined values of a guard (R18, R260). -/
structure Combined where
  next : Nat
  snap : Nat
  stretch : Nat
  fault : Bool
  lost : Option Nat
  deriving DecidableEq, Repr

/-- The timebase, the time messages of the guard and the stretch requests (R15 to R18, R257 to R262). -/
structure TimeSt where
  /-- the first guard cycle of the beat has come -/
  inGuard : Bool
  /-- the timebase has joined the job: RUNNING becomes 1 at the next boundary (R257) -/
  joined : Bool
  /-- nanoseconds by which the timebase has been stepped and steered since power-on -/
  adj : Int
  /-- lengthening of the next beat in nanoseconds (R262) -/
  corr : Int
  /-- stretch request of this device for the next beat, and for the one after (R17) -/
  ask : Nat
  askLater : Nat
  /-- BEAT_STRETCH.REQ was written in the guard: its request is not in this guard's message (R17) -/
  reqLate : Bool
  /-- TIME_UP messages of this guard by child; children missing at the send time -/
  ups : Tab UpMsg
  /-- last snapshot report and consecutive missed guards by child (R261, R263) -/
  lastSnap : Tab Nat
  misses : Tab Nat
  /-- the SEL_TMO.TIME in force when a child's run of missed guards began (R275) -/
  missLimit : Tab Nat
  /-- own TIME_UP sent in this guard: its transmit time -/
  sentAt : Option Nat
  /-- this device's values have gone into this guard's time messages (R31, R32) -/
  sent : Bool
  /-- values combined at the own send time, and the combination of the job -/
  mine : Option Combined
  comb : Option Combined
  /-- a TIME_DOWN has arrived in this guard -/
  gotDown : Bool
  /-- children to whom this guard's TIME_DOWN has been sent -/
  sentDown : List Nat
  /-- roster numbers this device reports lost (R306) -/
  lost : List Nat
  /-- the fabric clock failed under this job: the timebase takes part in it no more (R495) -/
  stopped : Bool
  deriving DecidableEq, Repr

/-- The roster as it stands: who serves which seat, who has failed (R258, R284, R305). -/
structure PlaceSt where
  /-- own roster number -/
  me : Option Nat
  /-- device serving each seat; no entry: unserved -/
  serving : Tab Nat
  failed : List Nat
  /-- the version before this beat's advance (R255 order 7) -/
  prevVer : Option Nat
  /-- the beat in which this device took its roster number, for SEL_PEER of itself (R273) -/
  selfBeat : Nat
  deriving DecidableEq, Repr

/-- Physical port state beyond its registers (R232 to R235, R263, R267). -/
structure PortSt where
  /-- goes down with cause HOST at the next boundary -/
  takeDown : Bool
  /-- UP since this beat: carries frames from the next boundary -/
  fresh : Bool
  /-- lanes out of service, by direction -/
  txOut : BitVec 8
  rxOut : BitVec 8
  /-- lanes whose spare laser is settling, and lanes to be switched to it at the boundary -/
  lighting : BitVec 8
  settled : BitVec 8
  /-- a spare that has trained for its plane and is mapped at the next boundary -/
  ready : Bool
  deriving DecidableEq, Repr

/-- A write or add-write held in a stack's channel queues (R401). -/
structure HeldWrite where
  stack : Nat
  addr : Nat
  data : List Byte
  add : Option Nat
  who : HeldFor
  deriving DecidableEq, Repr

/-- A spill entry: the HBM granule it holds, the local address at which it lies, and the stack that took it (R401). -/
structure SpillEntry where
  granule : Nat
  home : Nat
  stack : Nat
  deriving DecidableEq, Repr

/-- A running core move (R392): the unit whose retirement asked for it, logical core, source and destination physical cores, 128-byte lines copied, whether the switch has taken place. -/
structure CoreMove where
  key : Nat
  logical : Nat
  src : Nat
  dst : Nat
  line : Nat
  /-- the copy is complete and the guard of this beat has carried the rest of the state -/
  carried : Bool
  switched : Bool
  deriving DecidableEq, Repr

/-- The sluice's jobs beyond their registers (R209 to R216), and the traffic counts of the beat (R215, R225). -/
structure Sluice where
  /-- lines of the running snapshot job copied out of order or in order (R210) -/
  copied : List Nat
  /-- the digest handed to the snapshot job (R325) -/
  snapDig : Nat × Nat
  /-- the running job has read an uncorrectable granule (R211) -/
  snapBad : Bool
  /-- a channel move routes accesses: it runs, or has ended and awaits its boundary (R209) -/
  chLive : Bool
  chDone : Bool
  /-- logical channels waiting for a move (R213, R391) -/
  chWait : List Nat
  /-- a re-key routes accesses (R209, R216), and its new salt -/
  rkLive : Bool
  rkDone : Bool
  rkSalt : Dword
  /-- a request held while a re-key runs (R216) -/
  rkHeld : Bool
  /-- granules served in this beat by logical channel, and by physical channel -/
  occL : Tab Nat
  occP : Tab Nat
  /-- physical channels that have calibrated in this beat (R212) -/
  calib : List Nat
  held : List HeldWrite
  spill : List SpillEntry
  deriving DecidableEq, Repr

/-- A mirror drain of an image of this seat to the holder's device (R357, R358). -/
structure Drain where
  step : Nat
  seat : Nat
  dst : Nat
  /-- next extent to send, of `total` -/
  next : Nat
  total : Nat
  /-- boundary count of the deadline of each unacknowledged extent -/
  out : Tab Nat
  /-- IMG_END has been sent -/
  ended : Bool
  deriving DecidableEq, Repr

/-- A generation being made by this device (R361 to R365). -/
structure TailSrc where
  step : Nat
  seat : Nat
  /-- next stripe to send, of `total` -/
  next : Nat
  total : Nat
  /-- digest of the image -/
  dig : Nat × Nat
  /-- boundary count of the deadline of each unacknowledged stripe -/
  out : Tab Nat
  /-- CRC-64 of the stripes sent -/
  crcs : Tab Nat
  /-- targets, by place in the target list, that have not acknowledged the commit record, once it has been sent -/
  waiting : Option (List Nat)
  /-- the devices of the targets when striping started (R367) -/
  devs : List (Option Nat)
  deriving DecidableEq, Repr

/-- A generation slot kept for a source seat (R366). -/
structure TailSlot where
  /-- low word of the generation's step -/
  step : Nat
  /-- CRC-64 of the stripes stored -/
  crcs : Tab Nat
  /-- the step of the verified record, its length, and whether it is whole -/
  record : Option Nat
  recLen : Nat
  whole : Bool
  deriving DecidableEq, Repr

/-- Where a restore stands (R370 to R373). -/
inductive RstPhase where
  /-- waiting for extents of the holder's mirror image -/
  | mirror
  /-- waiting for a commit record -/
  | record
  /-- waiting for stripes -/
  | stripes
  /-- the shard is written; the digest sweep runs -/
  | sweep
  /-- the image is good; the state section is still to be applied -/
  | ready
  deriving DecidableEq, Repr

/-- A running restore (R370 to R373). -/
structure Restore where
  step : Nat
  seat : Nat
  /-- started by RST_CTRL.GO -/
  go : Bool
  phase : RstPhase
  /-- next extent to request, of `total` -/
  next : Nat
  total : Nat
  /-- boundary count of the deadline of each outstanding request, by extent or stripe -/
  out : Tab Nat
  /-- frames received of the extents requested -/
  got : Tab (BitVec 256)
  /-- commit-record bytes by target and offset -/
  recs : Tab (Tab (List Byte))
  /-- the verified whole commit record -/
  record : List Byte
  /-- stripe bytes received, by stripe and offset -/
  stripes : Tab (Tab (List Byte))
  /-- stripes received with the CRC of the record, and stripes given up -/
  good : List Nat
  lost : List Nat
  deriving DecidableEq, Repr

/-- Snapshots, mirrors, generations, restores beyond their registers (R350 to R373). -/
structure SnapSt where
  /-- tile dumps still to be read out: dump number and slot (R355) -/
  dumps : List (Nat × Nat)
  /-- more slots were IN_USE at the last capture than STATE_TILES (R355) -/
  overs : Bool
  /-- step of the last snapshot job that completed -/
  done : Option Nat
  /-- step whose image lies whole in the local millpond, be it bad (R357) -/
  whole : Option Nat
  /-- steps whose local copy and mirror drain are complete (R24) -/
  good : List Nat
  drain : Option Drain
  /-- frames received of a mirror image, by image index × 2^20 + extent -/
  mirGot : Tab (BitVec 256)
  /-- generations in progress, oldest first -/
  tails : List TailSrc
  /-- generation slots by 2 × source seat + slot -/
  slots : Tab TailSlot
  /-- commit-record bytes arriving, by source seat and step, and by offset -/
  recs : Tab (Tab (List Byte))
  restore : Option Restore
  /-- the last restore found no source, so that the step it was for must stop the job (R372) -/
  noSource : Bool
  /-- how the last restore by RST_CTRL.GO ended, until a recovery follows it (R373) -/
  go : Option Bool
  deriving DecidableEq, Repr

/-- The retain engine and the recovery beyond their registers (R328 to R330, R333, R338). -/
structure Retain where
  /-- step whose inputs are being filed, and whether its slot was free for the record -/
  filing : Option (Nat × Bool)
  /-- steps whose slots hold records valid for replay -/
  kept : List Nat
  /-- number of the OPEN step's first beat, the roster version at its opening, its stretched beats so far -/
  first : Nat
  ver : Nat
  stretch : List (Nat × Nat)
  /-- steps whose stages are to be restored to the targets, the one under way first -/
  restoring : List Nat
  /-- beat at which an armed recovery starts (R338) -/
  armed : Option Nat
  /-- beat at which the first replayed step opens, in a recovery -/
  resume : Option Nat
  /-- the first step that the recovery replays, u + 1 -/
  point : Nat
  /-- the recovery follows a restore by RST_CTRL.GO: no replay (R373) -/
  restart : Bool
  deriving DecidableEq, Repr

/-- What the fantail holds of one unit, or of one engine column (R385, R388, R390, R407). -/
structure FUnit where
  acc : Nat
  findings : Nat
  retired : Bool
  /-- findings of 32 points or more since the accumulator was last 0 or the fantail last acted, with the band and load all of them share -/
  heavy : Nat
  band : Option Nat
  load : Option Nat
  /-- recognised under R388, with the band and the load shared -/
  cond : Bool
  condBand : Nat
  condLoad : Nat
  /-- its retirement has been refused for want of a spare -/
  stuck : Bool
  deriving DecidableEq, Repr

/-- The fantail beyond its registers (R382 to R403). Units are keyed by physical source, the column `n` of engine source `e`, the extra columns being 128 to 131, by 0x10000 + 256 × (index of e) + n. -/
structure FanSt where
  units : Tab FUnit
  /-- the log, by entry (R406) -/
  log : Tab Nat
  /-- TEMP and MAX of sensor i (R410) -/
  temps : Tab (Nat × Nat)
  /-- load pattern of the device in the last beat -/
  load : Nat
  /-- units charged WARN in this step, by quantity × 65536 + source (R382) -/
  warned : List Nat
  /-- corrected errors of this step by source (R384) -/
  corr : Tab Nat
  /-- units whose score or findings call for action, in order (R388, R390) -/
  due : List Nat
  /-- physical cores that wait for a core move, in order of request, each with the unit whose retirement asked for it (R391) -/
  waiting : List (Nat × Nat)
  /-- consecutive beats below 90 degrees by core (R403) -/
  cool : Tab Nat
  /-- busy times of the last 64 beats by core, newest first (R389) -/
  busy : Tab (List Nat)
  /-- COND_STEP and HEAT_STEP of a core from the next boundary (R389) -/
  steps : Tab (Nat × Nat)
  /-- column picks still to be run by engine source index (R387) -/
  colPicks : Tab Nat
  /-- repairs to be made at the next snapshot boundary: core, engine, logical column (R393) -/
  repairs : List (Nat × Nat × Nat)
  /-- engines whose repaired column is still to be tested in the repair beat, with the column (R393) -/
  proving : List (Nat × Nat)
  /-- known-answer picks that are running: core and treadle (R157) -/
  kapRuns : List (Nat × Nat)
  /-- where the rotation of known-answer picks stands: the unit last tested by core, the pair of formats last used by engine (R387) -/
  kapUnit : Tab Nat
  kapFmt : Tab Nat
  /-- physical channels to be retired once they have been evacuated (R213, R390) -/
  retiring : List Nat
  /-- FAN_CFG as it stays in force until the next boundary, after a write to it (R404) -/
  cfgHeld : Option Dword
  /-- the beat whose measurements are being charged, when it is not the current one, and the step then in progress (R386, R453) -/
  ending : Option (Nat × Nat)
  /-- physical link protocol engines to be replaced at the next boundary (R238) -/
  lpes : List Nat
  /-- physical cores that failed their self-test and whose logical cores are mapped onto spares at the next boundary (R13, R428) -/
  remap : List Nat
  /-- a heartbeat was written in this beat; beats missed in a row; a takeover at the next boundary (R394) -/
  beatSeen : Bool
  missed : Nat
  takeover : Bool
  /-- COND_STEP of every core becomes 0 at the next boundary that opens a step (R412) -/
  underate : Bool
  deriving DecidableEq, Repr

/-- The module's firmware flash (R430): the bytes of slots A and B, whether a failed staging has marked each invalid, and the preferred slot. It survives power. -/
structure Flash where
  slotA : List Byte
  slotB : List Byte
  badA : Bool
  badB : Bool
  prefB : Bool
  deriving DecidableEq, Repr

/-- An image that a control processor runs (R430, R435). -/
structure FwImage where
  version : Nat
  secver : Nat
  digest : BitVec 512
  deriving DecidableEq, Repr

/-- Firmware beyond its registers (R431 to R434). -/
structure FwSt where
  /-- the image being received -/
  recv : List Byte
  /-- FW_STAGE has been written and has not concluded -/
  staging : Bool
  /-- images running, by control processor -/
  cps : Tab FwImage
  /-- the standby has taken over the mirrored state and waits for the boundary -/
  synced : Bool
  /-- no processor is active (R434) -/
  dead : Bool
  deriving DecidableEq, Repr

/-- Attestation beyond its registers (R435): the report being made, and the last complete one. -/
structure AttSt where
  next : Option (List Byte)
  report : List Byte
  deriving DecidableEq, Repr

/-- A verified RELOAD (R425, R426): the draft as modified, the RELOAD's digest, its group and step t. -/
structure Reload where
  job : Draft
  digest : BitVec 512
  group : Nat
  step : Nat
  deriving DecidableEq, Repr

/-- The draft loader beyond its registers (R419 to R426). -/
structure DraftSt where
  /-- the receiving store -/
  recv : List Byte
  reload : Option Reload
  /-- DRAFT_START_AT has been acted on (R423) -/
  startDone : Bool
  deriving DecidableEq, Repr

/-- A tensor record (R97): its fields by name; counters saturate, magnitudes are F32 codes. -/
structure TRec where
  fmt : Nat
  auto : Bool
  carry : Bool
  shared : Bool
  nfAllow : Bool
  hlenM1 : Nat
  margin : Nat
  scale : Int
  readScale : Int
  cold : Bool
  samples : Nat
  head : Nat
  penalty : Nat
  cleanRun : Nat
  written : Bool
  nonfin : Bool
  sharedWr : Bool
  conv : Nat
  sat : Nat
  van : Nat
  nf : Nat
  amax : Nat
  sharedAmax : Nat
  totSat : Nat
  totVan : Nat
  totNf : Nat
  lowers : Nat
  /-- history entries by index, unlisted 0 -/
  hist : Tab Nat
  deriving DecidableEq, Repr

/-- The governor beyond its registers (R96, R115, R116). -/
structure Gov where
  /-- records by tensor ID, 1 upward -/
  recs : Tab TRec
  /-- the pairs SD and SW of the OPEN step by layer × 64 + logical core, as F32 codes -/
  layers : Tab (Nat × Nat)
  /-- telemetry entries of the last seal not yet written, 32 bytes each -/
  tel : List (List Byte)
  deriving DecidableEq, Repr

/-- Data of a collective that waits for the receiver's CREADY (R293): its rank, the frame type, the element offset, the payload. -/
structure CollSend where
  rank : Nat
  type : Nat
  first : Nat
  payload : List Byte
  deriving DecidableEq, Repr

/-- A running collective but a VOTE (R287 to R293). -/
structure CollRun where
  id : Nat
  /-- OPARG: 1 REDUCE_SCATTER to 5 RING_PASS -/
  type : Nat
  /-- seats of the group by rank, and this device's rank -/
  members : List Nat
  rank : Nat
  /-- sub-ring size; the whole group with ALG = RING -/
  sub : Nat
  /-- C, the elements of a chunk -/
  chunk : Nat
  root : Nat
  /-- output format code and local address of the output -/
  fmt : Nat
  base : Nat
  /-- own input: F32 codes of a reduction's input, or the codes as they stand -/
  input : List Nat
  /-- gathers weight digests (R326) -/
  digest : Bool
  /-- the spec leaves the output undefined (R288, R289) -/
  undef : Bool
  /-- ranks whose CREADY has arrived -/
  ready : List Nat
  queue : List CollSend
  /-- sums of the own sub-ring, and running sums of the sub-rings before it, that wait for each other, by element (R290) -/
  mine : Tab Nat
  theirs : Tab Nat
  /-- additions and output elements still to come -/
  left : Nat
  /-- digests received, by rank -/
  digs : Tab (List Byte)
  deriving DecidableEq, Repr

/-- The collectives of the OPEN step (R287 to R297, R326). -/
structure CollSt where
  /-- running collectives by physical core -/
  runs : Tab CollRun
  /-- COLL_IDs started in the OPEN step -/
  started : List Nat
  /-- the core whose VOTE runs, none on a device that serves no seat, and its COLL_ID (R295) -/
  vote : Option (Option Nat × Nat)
  /-- trailers of the children's VOTE_UPs of the OPEN step -/
  ups : Tab (BitVec 5)
  /-- the highest COLL_ID that they name, 0 with none -/
  upId : Nat
  /-- steps of latched digests whose gather has not concluded (R326) -/
  due : List Nat
  /-- the seat's lists hold a digest gather -/
  gathers : Bool
  /-- the last gather found the own digest in the minority -/
  minority : Bool
  deriving DecidableEq, Repr

/-- Control state: everything but memory and the queue. -/
structure Ctl where
  regs : Tab Dword
  fuses : Fuses
  pwr : Power
  /-- rows of the core table that differ from the manufactured ones -/
  cores : Tab CoreSlot
  coreMove : Option CoreMove
  step : StepSt
  slu : Sluice
  host : HostPort
  /-- chip flags (R181) -/
  chip : BitVec 4096
  /-- treadle t of physical core p at 6p + t -/
  treadles : Tab Treadle
  delayed : List DelayedSet
  /-- local flags consumed in a cycle of this beat, by core: the cycle and the flags (R147) -/
  consumed : Tab (Nat × Dword)
  /-- logical cores that the loaded program covers, and list offsets of the probation variant at 6l + t (R416, R418) -/
  progCores : List Nat
  probLists : Tab Nat
  /-- physical cores whose program copy of a RELOAD is not complete (R425) -/
  copying : List Nat
  /-- trace entries not yet written to the ring (R476) -/
  trace : List TraceEnt
  /-- outstanding requests by tag, and the next tag -/
  reqs : Tab Req
  nextTag : Nat
  /-- read requests of other devices held until the next beat boundary, in order of arrival (R27) -/
  heldReads : List Rx
  flows : Tab Flow
  txq : List TxFrame
  waitq : List WaitFrame
  /-- frames held by the ingress delay, in order of arrival (R468) -/
  ingress : List Rx
  /-- the MODEL's own port pointer: frames are spread over ports in turn (R242) -/
  turn : Nat
  /-- perturbation registers in force, by offset; none when tension is not in force (R466), and the jitter register (R468) -/
  ten : Option (Tab Dword)
  lfsr : Nat
  /-- the last write of the TENSION block wrote the first key to TEN_ARM (R465) -/
  tenKey : Bool
  /-- the segment start of this beat is delayed by jitter and has not come (R468) -/
  jitter : Bool
  job : Option Draft
  peers : Tab Peer
  time : TimeSt
  place : PlaceSt
  ports : Tab PortSt
  /-- boundaries, job or local, since power-on: the unit of deadlines (R263) -/
  ticks : Nat
  /-- 256-byte granules of HBM and millpond that hold the poison pattern, by home key ÷ 256 (R199) -/
  poison : List Nat
  /-- runs of 32 bytes of HBM and millpond with an uncorrectable storage error, by home key ÷ 32 (R197, R199) -/
  bad : List Nat
  /-- home keys of the bytes with a correctable storage error, one symbol of the controller's code: at most one in a run (R197 to R199) -/
  soft : List Nat
  /-- accumulator entries by key, and the generation of undefined entries by slot (R67, R71, R371) -/
  acc : Tab (BitVec 48)
  accGen : Tab Nat
  gov : Gov
  coll : CollSt
  snap : SnapSt
  ret : Retain
  fan : FanSt
  flash : Flash
  fw : FwSt
  att : AttSt
  draft : DraftSt
  /-- the MODEL's own counter of free values drawn -/
  fresh : Nat
  deriving DecidableEq, Repr

/-- The device: control state and memory. -/
structure Dev where
  c : Ctl
  m : Store
  deriving DecidableEq, Repr

/-- The state of the block: the queue of waiting commands, first in first out, and the device. -/
structure State where
  pending : List Instr
  dev : Dev
  deriving DecidableEq, Repr

/-- The fuses as manufactured (log entry 3). -/
def Fuses.manufactured : Fuses :=
  { grade := .a64, vendor := Config.vendor, serial := Config.serial, stepping := Config.stepping,
    idSeed := Config.idSeed, certificate := Config.certificate, minSecver := 0, keyRevoked := 0, repairs := [] }

/-- The flash as manufactured (log entry 3). -/
def Flash.manufactured : Flash :=
  { slotA := Config.flashImage 0, slotB := Config.flashImage 1, badA := false, badB := false, prefB := false }

/-- No input power, RESET_N held low by its pull-down (R489). -/
def Power.reset : Power :=
  { input := false, on := false, latched := false, released := false,
    noPcie := false, noFabric := false, noSystem := false, held := false, modStatus := 0, pinPeak := 0, smbAddr := Config.smbAddr, plateIn := none, plateOut := none, smb := [] }

/-- Configuration space after reset. PRESUMED (log entry 4): the values of the PCI Express standard. -/
def Cfg.reset : Cfg :=
  { command := 0, bar0 := 0, bar2 := 0, deviceControl := 0x2810, deviceStatus := 0, msixEn := false, funcMask := false,
    uncStatus := 0, uncMask := 0x00400000, uncSeverity := 0x00462030, corStatus := 0, corMask := 0xE000 }

/-- The host port at power-on. -/
def HostPort.reset : HostPort :=
  { evq := [], gather := none, msix := [], cfg := Cfg.reset, errs := [], d3 := false, loopback := false, linkUp := false,
    ops := [], backlog := [], rsp := [], slots := [] }

/-- A treadle with no list. -/
def Treadle.idle : Treadle :=
  { active := false, off := 0, ahead := [], next := 0, emptyLeft := 0, emptyEnd := false, closed := true, taken := false,
    done := true, pre := false, early := false, ended := false, hollow := false, stopped := false, load := none, runs := [] }

/-- No step. -/
def StepSt.reset : StepSt :=
  { opened := false, beat := 0, kind := 0, failed := false, fault := false, voteSent := false, heard := 0, drains := [], compared := [],
    nfLate := false, updNonfin := false, ranged := [], ckFirst := 0, ckPrev := 0, hasVote := false, stop := false, stopNext := false,
    hasSealed := false, hasChecked := false, hasRollback := false, injected := [], ckNext := false, prevMeas := false, marks := [] }

/-- No job. -/
def Sluice.reset : Sluice :=
  { copied := [], snapDig := (0, 0), snapBad := false, chLive := false, chDone := false, chWait := [], rkLive := false, rkDone := false,
    rkSalt := 0, rkHeld := false, occL := [], occP := [], calib := [], held := [], spill := [] }

/-- Nothing held, nothing running. -/
def SnapSt.reset : SnapSt :=
  { dumps := [], overs := false, done := none, whole := none, good := [], drain := none, mirGot := [], tails := [], slots := [], recs := [], restore := none, noSource := false, go := none }

/-- Nothing retained, no recovery. -/
def Retain.reset : Retain :=
  { filing := none, kept := [], first := 0, ver := 0, stretch := [], restoring := [], armed := none, resume := none, point := 0, restart := false }

/-- No collective. -/
def CollSt.reset : CollSt := { runs := [], started := [], vote := none, ups := [], upId := 0, due := [], gathers := false, minority := false }

/-- No finding. -/
def FanSt.reset : FanSt :=
  { units := [], log := [], temps := [], load := 0, warned := [], corr := [], due := [], waiting := [], cool := [], busy := [], steps := [],
    colPicks := [], repairs := [], proving := [], kapRuns := [], kapUnit := [], kapFmt := [], retiring := [], cfgHeld := none, ending := none, lpes := [], remap := [], beatSeen := false, missed := 0, takeover := false, underate := false }

/-- No guard, no request. -/
def TimeSt.reset : TimeSt :=
  { inGuard := false, joined := false, adj := 0, corr := 0, ask := 0, askLater := 0, reqLate := false, ups := [], lastSnap := [],
    misses := [], missLimit := [], sentAt := none, sent := false, mine := none, comb := none, gotDown := false, sentDown := [], lost := [], stopped := false }

/-- No roster. -/
def PlaceSt.reset : PlaceSt := { me := none, serving := [], failed := [], prevVer := none, selfBeat := 0 }

/-- A port with every lane in service. -/
def PortSt.reset : PortSt :=
  { takeDown := false, fresh := false, txOut := 0, rxOut := 0, lighting := 0, settled := 0, ready := false }

/-- Control state at power-on. -/
def Ctl.reset : Ctl :=
  { regs := [], fuses := Fuses.manufactured, pwr := Power.reset, cores := [], coreMove := none, step := StepSt.reset, slu := Sluice.reset, host := HostPort.reset, chip := 0,
    treadles := [], delayed := [], consumed := [], progCores := [], probLists := [], copying := [], trace := [], reqs := [], nextTag := 0, heldReads := [], flows := [], txq := [], waitq := [], ingress := [], turn := 0, ten := none, lfsr := 0, tenKey := false, jitter := false, job := none, peers := [],
    time := TimeSt.reset, place := PlaceSt.reset, ports := [], ticks := 0,
    poison := [], bad := [], soft := [], acc := [], accGen := [], gov := { recs := [], layers := [], tel := [] }, coll := CollSt.reset, snap := SnapSt.reset,
    ret := Retain.reset, fan := FanSt.reset,
    flash := Flash.manufactured, fw := { recv := [], staging := false, cps := [], synced := false, dead := false },
    att := { next := none, report := [] }, draft := { recv := [], reload := none, startDone := false }, fresh := 0 }

/-- The block right after reset: nothing queued, every register at its power-on value, memory with nothing listed. -/
def State.reset : State :=
  { pending := [], dev := { c := Ctl.reset, m := { gen := 0, cells := [] } } }

end Sys2Proof.Machine
end

