-- ==== Sys2Proof/Machine/Ops.lean ====
section
/-! DEFINITION. The named operations every command is built from: register words and fields, READY bits, the core and port tables, events and interrupts, check failures, free values. -/

namespace Sys2Proof.Machine

/-- A list with its element at `i` changed by `f`. -/
def modifyAt {α : Type} (l : List α) (i : Nat) (f : α → α) : List α := l.modify i f

/-- A list folded over 0 to n - 1. -/
def forN {α : Type} (n : Nat) (f : Nat → α → α) (a : α) : α := (List.range n).foldl (fun a i => f i a) a

/-! ### Register words -/

/-- Physical channel word HBM_CH_MAP as manufactured: channel c of stack s carries logical channel 30s + c, channels 30 and 31 are spares (R200, R225). -/
def chMapMfr (s ch : Nat) : Nat := if ch < 30 then 30 * s + ch else 0x100

/-- PORT_STATUS as manufactured: logical port q on physical port q, 36 and 37 spare (R228, R266). -/
def portMfr (p : Nat) : Nat := if p < 36 then p * 2 ^ 12 + 2 ^ 18 else 2 ^ 19

/-- LPE_STATUS as manufactured: logical engine g on physical engine g, 6 the spare (R238, R271). -/
def lpeMfr (e : Nat) : Nat := if e < 6 then e + 2 ^ 3 else 0

/-- The part of a word's power-on value that is loaded from fuses or is the table as manufactured (R8 "F"; log entry 3). -/
def fusedReset (off : Nat) : Nat :=
  if 0x2000000 ≤ off ∧ off < 0x2200000 then
    let s := (off - 0x2000000) / 0x40000
    let r := off % 0x40000
    if 0x100 ≤ r ∧ r < 0x180 then chMapMfr s ((r - 0x100) / 4)
    else if r = 0 then 2 * 2
    else 0
  else if 0x2800000 ≤ off ∧ off < 0x2A60000 ∧ off % 0x10000 = 0 then portMfr ((off - 0x2800000) / 0x10000)
  else if 0x2C00000 ≤ off ∧ off < 0x2C70000 ∧ off % 0x10000 = 0 then lpeMfr ((off - 0x2C00000) / 0x10000)
  else if 0x1000000 ≤ off ∧ off < 0x1480000 ∧ off % 0x1000 = 0 ∧ 0x8000 ≤ off % 0x10000 ∧ off % 0x10000 < 0xC000 then 0x10F
  else if off = 0x2400128 then 496 + 16 * 2 ^ 16
  else if 0x1000 ≤ off ∧ off < 0x1400 ∧ off % 16 = 12 then 1
  else 0

/-- The value a register word holds at power-on (R8). -/
def regReset (off : Nat) : Dword := BitVec.ofNat 64 (tableReset off + fusedReset off)

/-- The word at an offset of the register space. -/
def getReg (c : Ctl) (off : Nat) : Dword :=
  match c.regs.look off with
  | some v => v
  | none => regReset off

/-- The control state with `v` in the word at `off`. -/
def setReg (off : Nat) (v : Dword) (c : Ctl) : Ctl := { c with regs := c.regs.put off v }

/-- The word back at its power-on value. -/
def resetReg (off : Nat) (c : Ctl) : Ctl := { c with regs := c.regs.del off }

/-- Bits of a field within its word. -/
def fldMask (f : Fld) : Dword := BitVec.ofNat 64 (2 ^ f.w - 1) <<< f.lo

/-- A field of a word, as a number. -/
def fldGet (v : Dword) (f : Fld) : Nat := v.toNat / 2 ^ f.lo % 2 ^ f.w

/-- A word with a field replaced. -/
def fldPut (v : Dword) (f : Fld) (x : Nat) : Dword :=
  (v &&& ~~~ fldMask f) ||| ((BitVec.ofNat 64 x <<< f.lo) &&& fldMask f)

/-- The value of a register field. -/
def getF (c : Ctl) (f : Fld) : Nat := fldGet (getReg c f.off) f

/-- Whether a register field is nonzero. -/
def getB (c : Ctl) (f : Fld) : Bool := getF c f != 0

/-- The control state with a register field set. -/
def setF (f : Fld) (x : Nat) (c : Ctl) : Ctl := setReg f.off (fldPut (getReg c f.off) f x) c

/-- The control state with a one-bit field set or cleared. -/
def setB (f : Fld) (b : Bool) (c : Ctl) : Ctl := setF f (if b then 1 else 0) c

/-- A field increased, saturating at its largest value. -/
def satF (f : Fld) (k : Nat) (c : Ctl) : Ctl := setF f (min (2 ^ f.w - 1) (getF c f + k)) c

/-- A field increased, wrapping. -/
def incF (f : Fld) (k : Nat) (c : Ctl) : Ctl := setF f (getF c f + k) c

/-- The field of core p's register (block stride 0x1_0000). -/
def coreF (f : Fld) (p : Nat) : Fld := f.at (0x10000 * p)

/-- The field of treadle t of core p (R162). -/
def trF (f : Fld) (p t : Nat) : Fld := f.at (0x10000 * p + 0x40 * t)

/-- The field of engine e of core p (R463). -/
def engF (f : Fld) (p e : Nat) : Fld := f.at (0x10000 * p + 0x1000 * e)

/-- The field of element i of a register array. -/
def idxF (f : Fld) (stride i : Nat) : Fld := f.at (stride * i)

/-- The field of port p, or of link protocol engine p. -/
def portF (f : Fld) (p : Nat) : Fld := f.at (0x10000 * p)

/-- The field of HBM stack s. -/
def hbmF (f : Fld) (s : Nat) : Fld := f.at (0x40000 * s)

/-- HBM_CH_MAP of physical channel n (R225). -/
def chF (f : Fld) (n : Nat) : Fld := f.at (0x40000 * (n / 32) + 4 * (n % 32))

/-- HBM_CH_ERR of physical channel n (R225). -/
def chErrF (f : Fld) (n : Nat) : Fld := f.at (0x40000 * (n / 32) + 8 * (n % 32))

/-! ### Power, READY -/

/-- The module runs: regulators on, RESET_N released, system clock present (R485, R489, R495). -/
def running (c : Ctl) : Bool := c.pwr.on && c.pwr.released && !c.pwr.noSystem && !c.pwr.held

/-- Whether physical core p is READY (R445). -/
def coreReady (c : Ctl) (p : Nat) : Bool :=
  if p < 64 then getB c { R.READY_CORE0.CORES with lo := p, w := 1 }
  else p < 72 && getB c { R.READY_CORE1.CORES with lo := p - 64, w := 1 }

/-- Whether physical port p is READY (R445). -/
def portReady (c : Ctl) (p : Nat) : Bool := p < 38 && getB c { R.READY_PORT.PORTS with lo := p, w := 1 }

/-- Whether bit `b` of READY_MAIN is set (R444). -/
def mainReady (c : Ctl) (b : Nat) : Bool := getB c { R.READY_MAIN.HOST with lo := b, w := 1 }

/-- A register access acts only while the function behind bit b of READY_MAIN is READY (R3, R428, R444). -/
def whenReady (b : Nat) (f : Ctl → Ctl) (c : Ctl) : Ctl := if mainReady c b then f c else c

/-! ### Logical and physical units -/

/-- Logical cores of a grade (R1, R12). -/
def lcores : Grade → Nat
  | .a64 => 64
  | .b48 => 48

/-- HBM stacks of a grade (R1). -/
def stackCount : Grade → Nat
  | .a64 => 8
  | .b48 => 6

/-- Logical HBM channels of a grade (R200). -/
def channels : Grade → Nat
  | .a64 => 240
  | .b48 => 180

/-- The core table as manufactured (log entry 3): on each die the first 16 (12) physical cores serve logical cores in order, the next two are spares, the rest are fused off. -/
def coreMfr (g : Grade) (p : Nat) : CoreSlot :=
  let n := lcores g / 4
  let d := p / 18
  let i := p % 18
  if i < n then ⟨some (n * d + i), 1, 0xF⟩
  else if i < n + 2 then ⟨none, 0, 0xF⟩
  else ⟨none, 3, 0⟩

/-- The core table's row of physical core p. -/
def coreSlot (c : Ctl) (p : Nat) : CoreSlot := (c.cores.look p).getD (coreMfr c.fuses.grade p)

/-- The physical core that serves logical core l, if one does. -/
def physCore (c : Ctl) (l : Nat) : Option Nat :=
  (List.range 72).find? (fun p => (coreSlot c p).logical == some l)

/-- The logical core served by physical core p; 0 when none (R345). -/
def logCore (c : Ctl) (p : Nat) : Nat := (coreSlot c p).logical.getD 0

/-- The physical port to which logical port q is mapped (R228, R266). -/
def physPort (c : Ctl) (q : Nat) : Option Nat :=
  (List.range 38).find? (fun p => getB c (portF R.PORT_STATUS.MAPPED p) && getF c (portF R.PORT_STATUS.LOGICAL p) == q)

/-- The logical port that physical port p serves, if any. -/
def logPort (c : Ctl) (p : Nat) : Option Nat :=
  if getB c (portF R.PORT_STATUS.MAPPED p) then some (getF c (portF R.PORT_STATUS.LOGICAL p)) else none

/-- Whether logical port q is up: its physical port is UP or PAUSED (R233, R266). -/
def portUp (c : Ctl) (q : Nat) : Bool :=
  match physPort c q with
  | some p => getF c (portF R.PORT_STATUS.STATE p) == 2 || getF c (portF R.PORT_STATUS.STATE p) == 3
  | none => false

/-- The logical ports that are up, in ascending order. -/
def upPorts (c : Ctl) : List Nat := (List.range 36).filter (portUp c)

/-- The physical link protocol engine that serves logical port q (R237, R271). -/
def lpeOf (c : Ctl) (q : Nat) : Nat :=
  ((List.range 7).find? (fun e => getB c (portF R.LPE_STATUS.ACTIVE e) && getF c (portF R.LPE_STATUS.LOGICAL e) == q / 6)).getD (q / 6)

/-! ### Physical sources (R454) -/

def srcDevice : Nat := 0
def srcCore (p : Nat) : Nat := 0x1000 + p
def srcEngine (p e : Nat) : Nat := 0x2000 + 4 * p + e
def srcVector (p : Nat) : Nat := 0x3000 + p
def srcTreadle (p t : Nat) : Nat := 0x4000 + 8 * p + t
def srcStack (s : Nat) : Nat := 0x5000 + s
def srcChannel (n : Nat) : Nat := 0x6000 + n
def srcPackage (k : Nat) : Nat := 0x7000 + k
def srcMpChannel (n : Nat) : Nat := 0x8000 + n
def srcPort (p : Nat) : Nat := 0x9000 + p
def srcLane (p l : Nat) : Nat := 0xA000 + 8 * p + l
def srcLpe (e : Nat) : Nat := 0xB000 + e
def srcCp (i : Nat) : Nat := 0xC000 + i
def srcSensor (i : Nat) : Nat := 0xD000 + i
def srcShared (i : Nat) : Nat := 0xE000 + i
def srcCommons : Nat := 0xE000
def srcGovernor : Nat := 0xE001
def srcFantail : Nat := 0xE002
def srcSluice : Nat := 0xE003
def srcSelvedge : Nat := 0xE004
def srcTimebase : Nat := 0xE005
def srcHost : Nat := 0xE006

/-! ### Interrupts (R457, R458) -/

/-- The word of MSI-X table entry v, part k: address low and high, data, vector control (R459). -/
def msixWord (v k : Nat) : Nat := 0x1000 + 16 * v + 4 * k

/-- The pending-bit array (R459). -/
def pbaOff : Nat := 0x2000

/-- Bus Master Enable (R447). -/
def masterOn (c : Ctl) : Bool := c.host.cfg.command.getLsbD 2

/-- Whether vector v may send now: Bus Master Enable, MSI-X enabled and not masked, not D3hot, link up (R447, R448, R458). -/
def msixOpen (v : Nat) (c : Ctl) : Bool :=
  masterOn c && c.host.cfg.msixEn && !c.host.cfg.funcMask && !c.host.d3 && !c.host.loopback && c.host.linkUp && getReg c (msixWord v 3) &&& 1 == 0

/-- Send one message on vector v, or record its pending bit (R447, R458). -/
def msixSend (v : Nat) (c : Ctl) : Ctl :=
  if msixOpen v c then
    let a := getReg c (msixWord v 0) ||| (getReg c (msixWord v 1) <<< 32)
    let m : MsixMsg := { vector := v, addr := a, data := (getReg c (msixWord v 2)).setWidth 32 }
    { c with host := { c.host with msix := c.host.msix ++ [m] } }
  else setReg pbaOff (getReg c pbaOff ||| (1 <<< v)) c

/-- Vectors with a pending bit send once they may (R447, R448). -/
def msixRetry (c : Ctl) : Ctl :=
  forN 64 (fun v c =>
    if (getReg c pbaOff).getLsbD v && msixOpen v c then
      msixSend v (setReg pbaOff (getReg c pbaOff &&& ~~~ ((1 : Dword) <<< v)) c)
    else c) c

/-- A cause of vector v arises: its status bit is set, and a 0-to-1 change with the vector enabled sends one message (R458). -/
def cause (v : Nat) (c : Ctl) : Ctl :=
  if (getReg c R.IRQ_STATUS.adr).getLsbD v then c
  else
    let c := setReg R.IRQ_STATUS.adr (getReg c R.IRQ_STATUS.adr ||| (1 <<< v)) c
    if (getReg c R.IRQ_ENABLE.adr).getLsbD v then msixSend v c else c

/-! ### Events (R453 to R456) -/

/-- The most records the queue holds (R456). -/
def evqMax : Nat := 4096

/-- A record of class, subcode, source and 48-bit detail, of a given beat and step (R453). -/
def mkEvent (cls sub src detail beat step : Nat) (c : Ctl) : Event :=
  { dw0 := BitVec.ofNat 64 (cls + sub % 256 * 2 ^ 8 + src % 65536 * 2 ^ 16 + beat % 2 ^ 32 * 2 ^ 32)
    dw1 := BitVec.ofNat 64 (step % 65536 + detail % 2 ^ 48 * 2 ^ 16)
    entered := c.ticks }

/-- CLASS and SOURCE of a record, as the order within one cycle compares them (R456). -/
def eventRank (e : Event) : Nat := e.dw0.toNat % 16 * 65536 + e.dw0.toNat / 65536 % 65536

/-- The queue holds at least EVT_IRQ.LEVEL records: a cause of vector 0 (R457, R461). -/
def evtLevel (c : Ctl) : Ctl := if max 1 (getF c R.EVT_IRQ.LEVEL) ≤ c.host.evq.length then cause 0 c else c

/-- A record enters the queue, or is dropped and counted when the queue is full (R456); entering signals the vector of its class, and vector 0 at the level (R457). -/
def eventPush (e : Event) (c : Ctl) : Ctl :=
  if evqMax ≤ c.host.evq.length then satF R.EVT_STATUS.DROPS 1 c
  else
    let c := { c with host := { c.host with evq := c.host.evq ++ [e] } }
    evtLevel (cause (e.dw0.toNat % 16) c)

/-- A record is raised of a given beat and step: into the queue, or into the gathered records of the cycle. -/
def raiseAt (beat step cls sub src detail : Nat) (c : Ctl) : Ctl :=
  let e := mkEvent cls sub src detail beat step c
  match c.host.gather with
  | some l => { c with host := { c.host with gather := some (l ++ [e]) } }
  | none => eventPush e c

/-- A record is raised in the current beat and step. -/
def raise (cls sub src detail : Nat) (c : Ctl) : Ctl :=
  raiseAt (getF c R.BEAT_NOW.BEAT) (getF c R.STEP_NOW.STEP) cls sub src detail c

/-- A record placed among records in ascending CLASS, then SOURCE, after its equals. -/
def eventInsert (e : Event) : List Event → List Event
  | [] => [e]
  | x :: xs => if eventRank e < eventRank x then e :: x :: xs else x :: eventInsert e xs

/-- Begin gathering the records of one cycle. -/
def gatherStart (c : Ctl) : Ctl := { c with host := { c.host with gather := some [] } }

/-- The gathered records enter together, in ascending CLASS, then SOURCE (R456). -/
def gatherEnd (c : Ctl) : Ctl :=
  match c.host.gather with
  | some l =>
    let sorted := l.foldl (fun acc e => eventInsert e acc) []
    sorted.foldl (fun c e => eventPush e c) { c with host := { c.host with gather := none } }
  | none => c

/-- What a change of control state raises in one cycle enters the queue in order of class and source (R456). -/
def inCycle (f : Ctl → Ctl) (c : Ctl) : Ctl := if c.host.gather.isSome then f c else gatherEnd (f (gatherStart c))

/-- Event classes (R453). -/
def evProgram : Nat := 1
def evArith : Nat := 2
def evNonfinite : Nat := 3
def evLink : Nat := 4
def evMemory : Nat := 5
def evThermal : Nat := 6
def evMargin : Nat := 7
def evAdmission : Nat := 8
def evGovernor : Nat := 9
def evHotspot : Nat := 10

/-- A LINK event that names a peer (R455). -/
def raiseLinkPeer (sub src peer extra : Nat) (c : Ctl) : Ctl :=
  raise evLink sub src (peer % 65536 + 2 ^ 16 + extra * 2 ^ 17) c

/-- A LINK event that names none (R455). -/
def raiseLink (sub src extra : Nat) (c : Ctl) : Ctl := raise evLink sub src (extra * 2 ^ 17) c

/-! ### Steps and check failures (R316, R331) -/

/-- Whether a step is OPEN (R340). -/
def stepOpen (c : Ctl) : Bool := getB c R.STEP_STATUS.OPEN

/-- What a failed check or fault records (R318, R345). -/
structure FailRec where
  cause : Nat
  step : Nat
  lcore : Nat
  unit : Nat
  pick : Nat
  detail : Nat
  source : Nat
  row : Nat
  /-- checksum columns that disagreed (R82) -/
  cols : Nat := 0
  deriving DecidableEq, Repr

/-- A fault of the device that names no unit. -/
def failRec (cause source : Nat) (c : Ctl) : FailRec :=
  { cause := cause, step := getF c R.STEP_NOW.STEP, lcore := 0, unit := 0, pick := 0, detail := 0, source := source, row := 0, cols := 0 }

/-- A fault of the OPEN step is classed as a program or data fault: STOP with CKFAIL in the step trailer; owed to the next step opened when VOTE_UP has been sent or the step holds no VOTE (R332, R336). -/
def classProgram (cls : Nat) (c : Ctl) : Ctl :=
  let s := getF c R.STEP_NOW.STEP
  let c := setF R.CHK_CLASS.CLASS cls (setF R.CHK_CLASS.STEP s c)
  if c.step.voteSent || !c.step.hasVote then { c with step := { c.step with stopNext := true } }
  else setB R.STEP_STATUS.CKFAIL true { c with step := { c.step with stop := true } }

/-- The bits of CHK_FIRST0 that the signature names: CAUSE, LCORE, UNIT, PICK, BEAT_IN_STEP, DETAIL (R331). -/
def signatureMask : Dword := 0xFFFFFFFF7FF73F3F

/-- Whether the record in CHK_FIRST has the signature of CHK_PREV (R331): its row counts for cause RANGE only, and is 0 otherwise. -/
def sameSignature (c : Ctl) : Bool :=
  getB c R.CHK_PREV0.VALID && (getReg c R.CHK_FIRST0.adr &&& signatureMask) == (getReg c R.CHK_PREV0.adr &&& signatureMask) &&
    getF c R.CHK_FIRST1.STEP == getF c R.CHK_PREV1.STEP && getF c R.CHK_FIRST2.ROW == getF c R.CHK_PREV2.ROW

/-- Whether the OPEN step is the replay of the faulty step f (R334, R336). -/
def replayingFault (c : Ctl) : Bool :=
  getF c R.REC_STATE.STATE == 2 && getF c R.STEP_NOW.STEP == getF c R.REC_FAULT_STEP.STEP

/-- The first check failure or fault of the OPEN step is recorded while VALID is 0 (R331, R345); in the replay of f a first fault with the signature of CHK_PREV is a program or data fault (R336). -/
def recordFirst (r : FailRec) (c : Ctl) : Ctl :=
  if getB c R.CHK_FIRST0.VALID then c
  else
    let w0 := r.cause % 64 + 2 ^ 6 + r.lcore % 64 * 2 ^ 8 + r.unit % 8 * 2 ^ 16 + r.pick % 2048 * 2 ^ 20 +
      c.step.beat % 65536 * 2 ^ 32 + r.detail % 65536 * 2 ^ 48
    let c := setReg R.CHK_FIRST2.adr (BitVec.ofNat 64 (r.source % 65536 + r.row % 2 ^ 32 * 2 ^ 16))
      (setReg R.CHK_FIRST1.adr (BitVec.ofNat 64 r.step) (setReg R.CHK_FIRST0.adr (BitVec.ofNat 64 w0) { c with step := { c.step with ckFirst := r.cols } }))
    if replayingFault c && sameSignature c then classProgram 2 c else c

/-- STEP_BAD takes the lowest step with a failed check (R316, R339). -/
def markBad (s : Nat) (c : Ctl) : Ctl :=
  if getB c R.STEP_STATUS.BAD && getF c R.STEP_BAD.STEP ≤ s then c
  else setB R.STEP_STATUS.BAD true (setF R.STEP_BAD.STEP s c)

/-- The check-failure state of the OPEN step, and the commit-fault bit once VOTE_UP has been sent (R316 steps 1 and 2). -/
def setCkfail (c : Ctl) : Ctl :=
  if stepOpen c then
    let c := setB R.STEP_STATUS.CKFAIL true c
    if c.step.voteSent then { c with step := { c.step with fault := true } } else c
  else c

/-- A check or fault of R318: the check-failure state, the first record, and STEP_BAD where a check has failed (causes 0x01 to 0x07; log entry 8). The event is the caller's. -/
def checkFail (r : FailRec) (c : Ctl) : Ctl :=
  let c := recordFirst r (setCkfail c)
  if 1 ≤ r.cause ∧ r.cause ≤ 7 then markBad r.step c else c

/-- A fault while a step is OPEN, recorded with no more than its cause and source (R318). -/
def faultIfOpen (cause source : Nat) (c : Ctl) : Ctl :=
  if stepOpen c then checkFail (failRec cause source c) c else c

/-! ### Free values -/

/-- A value the spec leaves open, fresh at each draw (log entry 6). -/
def freeValue (c : Ctl) : BitVec 256 := Config.freeBits c.fresh

/-- The control state after a free value has been drawn. -/
def drawn (c : Ctl) : Ctl := { c with fresh := c.fresh + 1 }

/-- Lift a change of control state to the device. -/
def onCtl (f : Ctl → Ctl) (d : Dev) : Dev := { d with c := f d.c }

/-- Lift a change of the device to the block, the queue untouched. -/
def onDev (f : Dev → Dev) (s : State) : State := { s with dev := f s.dev }

/-- The same of a change of the device. -/
def inCycleDev (f : Dev → Dev) (d : Dev) : Dev := if d.c.host.gather.isSome then f d else onCtl gatherEnd (f (onCtl gatherStart d))

/-- A meaning that changes control state only, while the module runs. -/
def runCtl (f : Ctl → Ctl) (s : State) : Host.Outcome State Fault Refusal :=
  .next (if running s.dev.c then onDev (onCtl f) s else s)

/-- A meaning that may change memory too, while the module runs. -/
def runDev (f : Dev → Dev) (s : State) : Host.Outcome State Fault Refusal :=
  .next (if running s.dev.c then onDev f s else s)

end Sys2Proof.Machine
end

