-- ==== Sys2Proof/Machine/FanCore.lean ====
section
/-! DEFINITION. Findings and scores of the fantail (R383 to R386): tags, charges, the log, decay. What is done about a unit stands in Machine/Fantail.lean. -/

namespace Sys2Proof.Machine

/-- The fantail's state changed. -/
def onFan (f : FanSt → FanSt) (c : Ctl) : Ctl := { c with fan := f c.fan }

/-! ### Tags (R383) -/

/-- Temperature of sensor i in 0.125 degrees. -/
def sensorT (c : Ctl) (i : Nat) : Nat := (c.fan.temps.getD i (0, 0)).1

/-- The sensors of die d: its cores, then its shared units (R382). -/
def dieSensors (d : Nat) : List Nat := (List.range 18).map (18 * d + ·) ++ (List.range 6).map (72 + 6 * d + ·)

/-- The die of a core, engine, vector unit or treadle by its source (R12, R454). -/
def dieOf (src : Nat) : Option Nat :=
  let i := src % 4096
  match src / 4096 with
  | 1 => some (i / 18)
  | 2 => some (i / 72)
  | 3 => some (i / 18)
  | 4 => some (i / 144)
  | _ => none

/-- The sensors whose hottest one gives a unit's band: its die, its stack for HBM units; every die sensor where the spec names no die (log entry 15). A die sensor lies on a die: sensor c in core c, sensors 72 to 95 six to a die (R382). -/
def unitSensors (src : Nat) : List Nat :=
  match src / 4096 with
  | 5 => [96 + src % 4096]
  | 6 => [96 + src % 4096 / 32]
  | 13 =>
    let i := src % 4096
    if i < 72 then dieSensors (i / 18) else if i < 96 then dieSensors ((i - 72) / 6) else [i]
  | _ => match dieOf src with
    | some d => dieSensors d
    | none => List.range 96

/-- The temperature band of a temperature in 0.125 degrees (R383). -/
def bandOf (t : Nat) : Nat := min 7 ((t - 240) / 80)

/-- The band of a unit. -/
def unitBand (c : Ctl) (src : Nat) : Nat := bandOf ((unitSensors src).foldl (fun m i => max m (sensorT c i)) 0)

/-- The load pattern of an activity: the first code of the table whose condition holds; "mostly" is more than half (R383). -/
def loadPattern (a : Activity) : Nat :=
  let busy := a.s4 + a.s8 + a.wide
  if 500 ≤ busy ∧ busy < 2 * a.s4 then 1
  else if 500 ≤ busy ∧ busy < 2 * a.s8 then 2
  else if 500 ≤ busy ∧ busy < 2 * a.wide then 3
  else if 500 ≤ a.vector then 4
  else if 500 ≤ a.hbm then 5
  else if 500 ≤ a.ports then 6
  else if busy < 100 ∧ a.vector < 100 ∧ a.hbm < 100 ∧ a.ports < 100 then 0
  else 7

/-- FAN_CORE of physical core p. -/
def fanCoreF (f : Fld) (p : Nat) : Fld := idxF f 8 p

/-- The load pattern of a unit: its core's, else the device's (R383). -/
def unitLoad (c : Ctl) (src : Nat) : Nat :=
  let i := src % 4096
  match src / 4096 with
  | 1 => getF c (fanCoreF R.FAN_CORE.LOAD i)
  | 2 => getF c (fanCoreF R.FAN_CORE.LOAD (i / 4))
  | 3 => getF c (fanCoreF R.FAN_CORE.LOAD i)
  | _ => c.fan.load

/-! ### Units (R385, R388) -/

/-- A unit without findings. -/
def FUnit.zero : FUnit :=
  { acc := 0, findings := 0, retired := false, heavy := 0, band := none, load := none, cond := false, condBand := 0, condLoad := 0, stuck := false }

/-- What is held of a unit. -/
def fanUnit (c : Ctl) (k : Nat) : FUnit := c.fan.units.getD k FUnit.zero

/-- A unit changed. -/
def onUnit (k : Nat) (f : FUnit → FUnit) (c : Ctl) : Ctl := onFan (fun s => { s with units := s.units.put k (f (fanUnit c k)) }) c

/-- The key of column n of engine e of core p: logical columns 0 to 127, extra columns 128 to 131. -/
def columnKey (p e n : Nat) : Nat := 0x10000 + 256 * (4 * p + e) + n

/-- The physical source of a unit key: a column carries its engine's (R454). -/
def keySource (k : Nat) : Nat := if k < 0x10000 then k else 0x2000 + (k - 0x10000) / 256

/-- Fuse repair records (R428). -/
def repairMax : Nat := 256

/-- A retirement is written into a repair record; with the records full it lasts until power-off and raises a MARGIN event (R428). -/
def repairRecord (k : Nat) (c : Ctl) : Ctl :=
  if c.fuses.repairs.contains k then c
  else if c.fuses.repairs.length < repairMax then { c with fuses := { c.fuses with repairs := c.fuses.repairs ++ [k] } }
  else raise evMargin 0 (keySource k) 0 c

/-- A unit is marked retired, and its retirement recorded (R390, R428). -/
def markRetired (k : Nat) (c : Ctl) : Ctl := repairRecord k (onUnit k (fun u => { u with retired := true }) c)

/-- The READY bit of a retired unit returns to 0 (R427). -/
def unready (f : Func) (c : Ctl) : Ctl :=
  match f with
  | .main b => setB { R.READY_MAIN.HOST with lo := b, w := 1 } false c
  | .port p => setB { R.READY_PORT.PORTS with lo := p, w := 1 } false c
  | .core p => if p < 64 then setB { R.READY_CORE0.CORES with lo := p, w := 1 } false c else setB { R.READY_CORE1.CORES with lo := p - 64, w := 1 } false c

/-- Points added to an accumulator of points × 64 (R385). -/
def addPoints (acc points : Nat) : Nat := min 0xFFFF (acc + 64 * points)

/-- A value all findings share, with one more finding. -/
def shared (n : Nat) (old : Option Nat) (x : Nat) : Option Nat := if n = 0 then some x else if old = some x then old else none

/-- A finding enters a unit's accumulator and its record for R388. -/
def unitFinding (points band load : Nat) (u : FUnit) : FUnit :=
  let u := { u with acc := addPoints u.acc points, findings := min (2 ^ 32 - 1) (u.findings + 1) }
  if points < 32 then u
  else { u with heavy := u.heavy + 1, band := shared u.heavy u.band band, load := shared u.heavy u.load load }

/-- A field of FAN_CFG as it is in force: a write applies from the next boundary (R404). -/
def fanCfg (c : Ctl) (f : Fld) : Nat := fldGet (c.fan.cfgHeld.getD (getReg c R.FAN_CFG.adr)) f

/-- FAN_CFG is about to be written: until the next boundary the value in force stays (R404). -/
def fanCfgHold (c : Ctl) : Ctl := onFan (fun s => { s with cfgHeld := some (s.cfgHeld.getD (getReg c R.FAN_CFG.adr)) }) c

/-- FAN_CFG as written takes effect, at a boundary (R404). -/
def fanCfgTake (c : Ctl) : Ctl := onFan (fun s => { s with cfgHeld := none }) c

/-- Whether a unit is conditional (R388). -/
def isConditional (c : Ctl) (u : FUnit) : Bool :=
  decide (max 1 (fanCfg c R.FAN_CFG.COND_MIN) ≤ u.heavy) && (u.band.isSome || u.load.isSome)

/-- The unit score (R385). -/
def unitScore (u : FUnit) : Nat := min 255 (u.acc / 64)

/-- A unit whose score reaches UNIT_RETIRE, or that is conditional, is due for action (R388, R390). -/
def markDue (k : Nat) (c : Ctl) : Ctl :=
  let u := fanUnit c k
  let cond := isConditional c u
  let c := if cond then onUnit k (fun u => { u with cond := true, condBand := u.band.getD 0, condLoad := u.load.getD 0 }) c else c
  if (cond || decide (fanCfg c R.FAN_CFG.UNIT_RETIRE ≤ unitScore u)) && !u.retired && !c.fan.due.contains k then
    onFan (fun s => { s with due := s.due ++ [k] }) c
  else c

/-! ### Charges (R384, R386) -/

def kWarn : Nat := 1
def kFail : Nat := 2
def kCorr : Nat := 3
def kUncorr : Nat := 4
def kLane : Nat := 5
def kLaser : Nat := 6
def kHw : Nat := 7
def kKap : Nat := 8
def kCp : Nat := 9
def kHeat : Nat := 10
def kNospare : Nat := 11

/-- Points of a KIND (R384). -/
def kindPoints (kind : Nat) : Nat :=
  match kind with
  | 1 => 1
  | 2 => 32
  | 3 => 2
  | 4 => 32
  | 5 => 16
  | 6 => 16
  | 7 => 128
  | 8 => 96
  | 9 => 256
  | 10 => 8
  | 11 => 256
  | _ => 0

/-- A log entry (R406). -/
def logWord (kind points band load src beat : Nat) : Nat :=
  kind + min 255 points * 2 ^ 4 + band * 2 ^ 12 + load * 2 ^ 15 + src * 2 ^ 24 + beat % 2 ^ 24 * 2 ^ 40

/-- The beat that a finding carries: the current one, or the ending one while its measurements are being charged (R383, R386). -/
def findingBeat (c : Ctl) : Nat := (c.fan.ending.map (·.1)).getD (getF c R.BEAT_NOW.BEAT)

/-- The step that a finding's event carries (R453). -/
def findingStep (c : Ctl) : Nat := (c.fan.ending.map (·.2)).getD (getF c R.STEP_NOW.STEP)

/-- Findings of `f` that arose in beat b of step s. -/
def inBeat (b s : Nat) (f : Ctl → Ctl) (c : Ctl) : Ctl :=
  onFan (fun x => { x with ending := none }) (f (onFan (fun x => { x with ending := some (b, s) }) c))

/-- A finding: the device accumulator, the unit's where one is named, the log, and from KIND 0x2 a MARGIN or THERMAL event (R384, R386). `points` is 0 for a fault of an injected step (R467). -/
def finding (kind points src : Nat) (unit : Option Nat) (c : Ctl) : Ctl :=
  let band := unitBand c src
  let load := unitLoad c src
  let w := logWord kind points band load src (findingBeat c)
  let head := getF c R.FAN_LOG_SEL.HEAD
  let c := setF R.FAN_LOG_SEL.HEAD (head + 1) (onFan (fun s => { s with log := s.log.put head w }) c)
  let c := setF R.FAN_STATUS.ACC (addPoints (getF c R.FAN_STATUS.ACC) points) c
  let c := match unit with
    | some k => markDue k (onUnit k (unitFinding points band load) c)
    | none => c
  if kind < 2 then c
  else raiseAt (findingBeat c) (findingStep c) (if kind = kHeat then evThermal else evMargin) kind src (w % 2 ^ 24 + w / 2 ^ 40 * 2 ^ 24) c

/-- A finding of a KIND charged to the unit of its source. -/
def chargeUnit (kind src : Nat) (c : Ctl) : Ctl := finding kind (kindPoints kind) src (some src) c

/-- A finding of a KIND charged to the device alone. -/
def chargeDevice (kind src : Nat) (c : Ctl) : Ctl := finding kind (kindPoints kind) src none c

/-- A finding that concerns a column. -/
def chargeColumn (kind p e n : Nat) (c : Ctl) : Ctl := finding kind (kindPoints kind) (srcEngine p e) (some (columnKey p e n)) c

/-- A unit due for retirement with no spare: charged once (R384, R390). -/
def noSpare (k : Nat) (c : Ctl) : Ctl :=
  if (fanUnit c k).stuck then c else chargeDevice kNospare (keySource k) (onUnit k (fun u => { u with stuck := true }) c)

/-- A beat spent unaligned: one point, not logged (R15, R384). -/
def chargeUnaligned (c : Ctl) : Ctl := setF R.FAN_STATUS.ACC (addPoints (getF c R.FAN_STATUS.ACC) 1) c

/-- A WARN finding, once per step for a quantity of a unit (R382). -/
def warnOnce (q src : Nat) (c : Ctl) : Ctl :=
  if c.fan.warned.contains (q * 65536 + src) then c
  else chargeUnit kWarn src (onFan (fun s => { s with warned := (q * 65536 + src) :: s.warned }) c)

/-- A value past its fail limit is charged each time; one past its warn limit only, once per step (R382; log entry 16). The second result says whether the fail limit was crossed. -/
def limitCheck (q src : Nat) (warn fail : Bool) (c : Ctl) : Ctl × Bool :=
  if fail then (chargeUnit kFail src c, true) else if warn then (warnOnce q src c, false) else (c, false)

/-- A corrected error of a channel or package: the 65th of a step is charged (R384). -/
def corrected (src : Nat) (c : Ctl) : Ctl :=
  let n := c.fan.corr.getD src 0 + 1
  let c := onFan (fun s => { s with corr := s.corr.put src n }) c
  if n = 65 then chargeUnit kCorr src c else c

/-- What a step's opening clears. -/
def fanStep (c : Ctl) : Ctl := onFan (fun s => { s with warned := [], corr := [] }) c

/-- Decay at a seal (R385); an accumulator that is 0 has no findings for R388. -/
def fanDecay (c : Ctl) : Ctl :=
  let k := max 1 (fanCfg c R.FAN_CFG.DECAY)
  let a := getF c R.FAN_STATUS.ACC
  let c := setF R.FAN_STATUS.ACC (a - a / 2 ^ k) c
  onFan (fun s => { s with units := s.units.map (fun e =>
    let a := e.2.acc - e.2.acc / 2 ^ k
    (e.1, if a = 0 then { e.2 with acc := 0, heavy := 0, band := none, load := none } else { e.2 with acc := a })) }) c

end Sys2Proof.Machine
end

