-- ==== Sys2Proof/Machine/Formats.lean ====
section
/-! DEFINITION. Number formats (spec/02_number_formats.md): the values of codes, exact arithmetic on them, and the one rounding of every conversion.
A value is an exact dyadic number, so a corner of rounding shows as one comparison of natural numbers. -/

namespace Sys2Proof.Machine

/-- The floating-point formats (R33). -/
inductive Format where
  | s4
  | s8
  | s8w
  | h16
  | b16
  | f32
  | acc48
  deriving DecidableEq, Repr

/-- A value: `fin neg m e` is the number m·2^e with a sign (m = 0 is a zero of that sign), or an infinity, or the one NaN (R34). -/
inductive Num where
  | fin (neg : Bool) (m : Nat) (e : Int)
  | inf (neg : Bool)
  | nan
  deriving DecidableEq, Repr

/-- Width of the exponent field (R33). -/
def fmtExpBits : Format → Nat
  | .s4 => 2
  | .s8 => 4
  | .s8w => 5
  | .h16 => 5
  | .b16 => 8
  | .f32 => 8
  | .acc48 => 9

/-- Width of the fraction field (R33). -/
def fmtFracBits : Format → Nat
  | .s4 => 1
  | .s8 => 3
  | .s8w => 2
  | .h16 => 10
  | .b16 => 7
  | .f32 => 23
  | .acc48 => 38

/-- Exponent bias (R33). -/
def fmtBias : Format → Nat
  | .s4 => 1
  | .s8 => 7
  | .s8w => 15
  | .h16 => 15
  | .b16 => 127
  | .f32 => 127
  | .acc48 => 255

/-- Width of a code in bits (R33). -/
def fmtBits (f : Format) : Nat := 1 + fmtExpBits f + fmtFracBits f

/-- The formats that keep subnormals (R33, R36). -/
def fmtShort : Format → Bool
  | .f32 => false
  | .acc48 => false
  | _ => true

/-- The canonical NaN, the only NaN the device writes (R33, R34). -/
def fmtNaN : Format → Nat
  | .s4 => 0x8
  | .s8 => 0x7C
  | .s8w => 0x7E
  | .h16 => 0x7E00
  | .b16 => 0x7FC0
  | .f32 => 0x7FC00000
  | .acc48 => 0x7FE000000000

/-- The sign bit's place value. -/
def fmtSign (f : Format) (neg : Bool) : Nat :=
  if neg then 2 ^ (fmtBits f - 1) else 0

/-- The code of an infinity; S4 has none and gives its NaN (R33, R51). -/
def fmtInf (f : Format) (neg : Bool) : Nat :=
  match f with
  | .s4 => 0x8
  | _ => fmtSign f neg + (2 ^ fmtExpBits f - 1) * 2 ^ fmtFracBits f

/-- The largest exponent of a finite value (R33): the all-ones exponent field is finite in S4 only. -/
def fmtEmax : Format → Int
  | .s4 => 2
  | f => (2 ^ fmtExpBits f : Int) - 2 - fmtBias f

/-- The exponent of the smallest normal value (R33). -/
def fmtEmin (f : Format) : Int := 1 - (fmtBias f : Int)

/-- The code of the largest finite value with a sign (R33, R50). -/
def fmtMax (f : Format) (neg : Bool) : Nat :=
  match f with
  | .s4 => if neg then 0xF else 0x7
  | _ => fmtSign f neg + (2 ^ fmtExpBits f - 1) * 2 ^ fmtFracBits f - 1

/-- The value of a code (R33, R34, R36): subnormals of F32 and ACC48 read as zero of their sign. -/
def fmtDecode (f : Format) (code : Nat) : Num :=
  let c := code % 2 ^ fmtBits f
  let fb := fmtFracBits f
  let neg := decide (2 ^ (fmtBits f - 1) ≤ c)
  let ex := c / 2 ^ fb % 2 ^ fmtExpBits f
  let fr := c % 2 ^ fb
  if f = .s4 ∧ c = 8 then .nan
  else if f ≠ .s4 ∧ ex = 2 ^ fmtExpBits f - 1 then (if fr = 0 then .inf neg else .nan)
  else if ex = 0 then
    (if fmtShort f then .fin neg fr (fmtEmin f - fb) else .fin neg 0 0)
  else .fin neg (2 ^ fb + fr) ((ex : Int) - fmtBias f - fb)

/-- Number of bits of a natural number. -/
def bitLen (m : Nat) : Nat := if m = 0 then 0 else Nat.log2 m + 1

/-- The exponent of the leading bit of m·2^e, m not zero. -/
def leadExp (m : Nat) (e : Int) : Int := (Nat.log2 m : Int) + e

/-- m·2^e rounded to nearest, ties to even, to a multiple of 2^q (R46): the multiple. `sticky` says that the value lies above m·2^e by less than one unit of m. -/
def roundUnit (m : Nat) (e q : Int) (sticky : Bool) : Nat :=
  if q ≤ e then m * 2 ^ (e - q).toNat
  else
    let d := (q - e).toNat
    let lo := m / 2 ^ d
    let rem := m % 2 ^ d
    let half := 2 ^ (d - 1)
    if half < rem ∨ (rem = half ∧ (sticky ∨ lo % 2 = 1)) then lo + 1 else lo

/-- The unit in which format `f` holds a value with leading exponent `le`: bounded below for the short formats, unbounded for F32 and ACC48 (R49 step 2). -/
def fmtUnit (f : Format) (le : Int) : Int :=
  let u := le - fmtFracBits f
  if fmtShort f then max u (fmtEmin f - fmtFracBits f) else u

/-- The result of a narrowing: the code, and what R52 and R50 report of it. -/
structure Narrowed where
  code : Nat
  /-- the finite result overflowed (R49 step 3) -/
  overs : Bool
  /-- a nonzero finite source gave zero (R52) -/
  vanished : Bool
  /-- the result is NaN or infinity (R52) -/
  nonfin : Bool
  deriving DecidableEq, Repr

/-- The code of an exactly representable magnitude m·2^q at or below the largest finite value, with F32 and ACC48 flushed at the bottom (R36, R49). -/
def fmtPack (f : Format) (neg : Bool) (m : Nat) (q : Int) : Nat :=
  let fb := fmtFracBits f
  let le := leadExp m q
  if m = 0 then (if f = .s4 then 0 else fmtSign f neg)
  else if le < fmtEmin f then
    (if fmtShort f then fmtSign f neg + m * 2 ^ (q - (fmtEmin f - fb)).toNat else fmtSign f neg)
  else
    let u := le - fb
    let sig := if u ≤ q then m * 2 ^ (q - u).toNat else m / 2 ^ (u - q).toNat
    fmtSign f neg + (le + fmtBias f).toNat * 2 ^ fb + (sig - 2 ^ fb)

/-- What an overflowing finite value gives (R50): ACC48 and S4 always the largest value, the others as OUT_SATCONV says. -/
def fmtOver (f : Format) (sat neg : Bool) : Nat :=
  if f = .s4 ∨ f = .acc48 ∨ sat then fmtMax f neg else fmtInf f neg

/-- The narrowing of a finite value ±m·2^e (R49, R50), with the sticky bit of `roundUnit`. -/
def narrowFin (f : Format) (sat neg : Bool) (m : Nat) (e : Int) (sticky : Bool) : Narrowed :=
  if m = 0 ∧ sticky = false then ⟨fmtPack f neg 0 0, false, false, false⟩
  else
    let q := fmtUnit f (leadExp m e)
    let r := roundUnit m e q sticky
    if r ≠ 0 ∧ fmtEmax f < leadExp r q then
      let c := fmtOver f sat neg
      ⟨c, true, false, !(f == .s4 || f == .acc48 || sat)⟩
    else
      let c := fmtPack f neg r q
      ⟨c, false, r == 0 || (c == fmtSign f neg && !fmtShort f), false⟩

/-- The narrowing of any value into a format (R49 to R51). -/
def narrow (f : Format) (sat : Bool) : Num → Narrowed
  | .nan => ⟨fmtNaN f, false, false, true⟩
  | .inf neg => ⟨fmtInf f neg, false, false, true⟩
  | .fin neg m e => narrowFin f sat neg m e false

/-- The code alone of a narrowing. -/
def narrowCode (f : Format) (sat : Bool) (x : Num) : Nat := (narrow f sat x).code

/-- x·2^k, exact; a scale never changes a non-finite value (R49, R51). -/
def numScale (k : Int) : Num → Num
  | .fin neg m e => .fin neg m (e + k)
  | x => x

/-- The value with its sign turned. -/
def numNeg : Num → Num
  | .fin neg m e => .fin (!neg) m e
  | .inf neg => .inf (!neg)
  | .nan => .nan

/-- The magnitude. -/
def numAbs : Num → Num
  | .fin _ m e => .fin false m e
  | .inf _ => .inf false
  | .nan => .nan

/-- m with a sign, as an integer. -/
def signed (neg : Bool) (m : Nat) : Int := if neg then -(m : Int) else (m : Int)

/-- Exact sum (R35 for zeros; opposite infinities give NaN, R34). -/
def numAdd : Num → Num → Num
  | .nan, _ => .nan
  | _, .nan => .nan
  | .inf a, .inf b => if a = b then .inf a else .nan
  | .inf a, .fin _ _ _ => .inf a
  | .fin _ _ _, .inf b => .inf b
  | .fin na ma ea, .fin nb mb eb =>
    if ma = 0 ∧ mb = 0 then .fin (na && nb) 0 0
    else
      let q := min ea eb
      let s := signed na (ma * 2 ^ (ea - q).toNat) + signed nb (mb * 2 ^ (eb - q).toNat)
      if s = 0 then .fin false 0 0 else .fin (decide (s < 0)) s.natAbs q

/-- Exact product (R35; zero times infinity is NaN). -/
def numMul : Num → Num → Num
  | .nan, _ => .nan
  | _, .nan => .nan
  | .inf a, .inf b => .inf (a != b)
  | .inf a, .fin nb mb _ => if mb = 0 then .nan else .inf (a != nb)
  | .fin na ma _, .inf b => if ma = 0 then .nan else .inf (na != b)
  | .fin na ma ea, .fin nb mb eb => .fin (na != nb) (ma * mb) (ea + eb)

/-- Whether a value is finite. -/
def numFinite : Num → Bool
  | .fin _ _ _ => true
  | _ => false

/-- Whether a value is NaN. -/
def numIsNaN : Num → Bool
  | .nan => true
  | _ => false

/-- Whether a value is a zero of either sign. -/
def numIsZero : Num → Bool
  | .fin _ m _ => m == 0
  | _ => false

/-- Whether a value's sign is minus. -/
def numIsNeg : Num → Bool
  | .fin neg m _ => neg && m != 0
  | .inf neg => neg
  | .nan => false

/-- x < y as numbers, false where one is NaN. -/
def numLt : Num → Num → Bool
  | .nan, _ => false
  | _, .nan => false
  | .inf a, .inf b => a && !b
  | .inf a, .fin _ _ _ => a
  | .fin _ _ _, .inf b => !b
  | .fin na ma ea, .fin nb mb eb =>
    let q := min ea eb
    decide (signed na (ma * 2 ^ (ea - q).toNat) < signed nb (mb * 2 ^ (eb - q).toNat))

/-- The value of an F32 code (R36). -/
def f32 (c : Nat) : Num := fmtDecode .f32 c

/-- The F32 code of a value, rounded to nearest even, overflow to infinity (R40, R46). -/
def toF32 (x : Num) : Nat := narrowCode .f32 false x

/-- F32 sum of two codes (R46). -/
def addF32 (a b : Nat) : Nat := toF32 (numAdd (f32 a) (f32 b))

/-- F32 product of two codes (R46). -/
def mulF32 (a b : Nat) : Nat := toF32 (numMul (f32 a) (f32 b))

/-- B16 sum of two codes (R46). -/
def addB16 (a b : Nat) : Nat := narrowCode .b16 false (numAdd (fmtDecode .b16 a) (fmtDecode .b16 b))

/-- A code's class: NaN or infinity. -/
def codeNonfin (f : Format) (c : Nat) : Bool := !numFinite (fmtDecode f c)

/-- Stochastic rounding to F32 with the random number r (R47). -/
def roundStochastic (x : Num) (r : Nat) : Nat :=
  match x with
  | .nan => fmtNaN .f32
  | .inf neg => fmtInf .f32 neg
  | .fin neg m e =>
    if m = 0 then fmtSign .f32 neg
    else
      let q := leadExp m e - 23
      if q ≤ e then narrowCode .f32 false x
      else
        let d := (q - e).toNat
        let lo := m / 2 ^ d
        let t16 := (m % 2 ^ d) * 65536 / 2 ^ d
        let up := if r < t16 then lo + 1 else lo
        narrowCode .f32 false (.fin neg up q)

/-- The format of a format code (R44); the integer types and reserved codes have none. -/
def fmtOfCode : Nat → Option Format
  | 0 => some .s4
  | 1 => some .s8
  | 2 => some .s8w
  | 3 => some .h16
  | 4 => some .b16
  | 5 => some .f32
  | 6 => some .acc48
  | _ => none

/-- Bits of an element of a format code, the integer types included (R43, R44). -/
def codeBits : Nat → Nat
  | 0 => 4
  | 1 => 8
  | 2 => 8
  | 3 => 16
  | 4 => 16
  | 5 => 32
  | 6 => 48
  | 7 => 32
  | 8 => 64
  | _ => 0

/-- The sum of two elements of an add format: F32, B16, I32, I64 (R43, R46); other codes name no add format. -/
def addElem (code a b : Nat) : Nat :=
  match code with
  | 4 => addB16 a b
  | 5 => addF32 a b
  | 7 => (a + b) % 2 ^ 32
  | 8 => (a + b) % 2 ^ 64
  | _ => b

/-- Whether a format code names an add format (R178, R241). -/
def isAddFormat (code : Nat) : Bool :=
  code == 4 || code == 5 || code == 7 || code == 8

end Sys2Proof.Machine
end

