-- ==== Sys2Proof/Machine/Space.lean ====
section
/-! DEFINITION. The local address space (R170): where an address lies, reading and writing one unit that crosses no 256-byte boundary (R171), with what lies beneath the HBM addresses: interleave, re-key and channel-move routing, fallback, spill, snapshot copies (R197 to R216, R401). Register space is not here: Machine/RegSpace.lean. -/

namespace Sys2Proof.Machine

/-! ### Bytes by home key -/

/-- What an unlisted home key reads as: zero, or undefined contents in HBM and millpond after a load that left them undefined (R422; log entries 5 and 6). -/
def storeDefault (gen key : Nat) : Byte :=
  if gen = 0 then 0 else if key < 0x18000000000 then Config.freeByte gen key else 0

/-- The byte at a home key. -/
def storeGet (m : Store) (key : Nat) : Byte :=
  match Tab.look m.cells key with
  | some b => b
  | none => storeDefault m.gen key

/-- `n` bytes from a home key on. -/
def readBytes (m : Store) (key : Nat) : Nat → List Byte
  | 0 => []
  | n + 1 => storeGet m key :: readBytes m (key + 1) n

/-- The entries of bytes from a home key on, without those that an unlisted key reads as. -/
def listed (gen key : Nat) : List Byte → List Host.Cell
  | [] => []
  | b :: bs => if b = storeDefault gen key then listed gen (key + 1) bs else (key, b) :: listed gen (key + 1) bs

/-- The memory with bytes from a home key on, in canonical form. -/
def writeBytes (m : Store) (key : Nat) (bs : List Byte) : Store :=
  { m with cells := m.cells.filter (fun x => decide (x.1 < key)) ++ (listed m.gen key bs ++ m.cells.filter (fun x => decide (key + bs.length ≤ x.1))) }

/-- The canonical form: keys strictly rising, no byte equal to what an unlisted key reads as. -/
def Memory.wf (m : Store) : Bool :=
  Tab.rising m.cells && m.cells.all (fun p => p.2 != storeDefault m.gen p.1)

/-! ### The interleave and the heddle map beneath HBM addresses -/

/-- Logical channel and local index of the granule of an HBM address under a salt (R201). -/
def hbmPlace (a salt nch : Nat) : Nat × Nat :=
  let g := a / 256
  let q := g / nch
  let r := g % nch
  let x := (q ^^^ salt) * 0xD6E8FEB86659FD93 % 2 ^ 64
  let f := (x / 2 ^ 32) ^^^ (x % 2 ^ 32)
  ((r + f * nch / 2 ^ 32) % nch, q)

/-- Where a logical channel's granules lie: a physical channel, or a fallback slot (R213, R214). -/
inductive ChHome where
  | phys (n : Nat)
  | slot (f : Nat)
  deriving DecidableEq, Repr

/-- Whether physical channel n carries logical channel l (R225: STATE DATA or SOURCE). -/
def chCarries (c : Ctl) (l n : Nat) : Bool :=
  let w := getReg c (chF R.HBM_CH_MAP.LOGICAL n).off
  fldGet w R.HBM_CH_MAP.LOGICAL == l && (fldGet w R.HBM_CH_MAP.STATE == 0 || fldGet w R.HBM_CH_MAP.STATE == 2)

/-- The home the heddle map gives a logical channel (R200, R214). -/
def chHome (c : Ctl) (l : Nat) : ChHome :=
  match (List.range 5).find? (fun f => getB c (idxF R.MP_FB_SLOT.USED 4 f) && getF c (idxF R.MP_FB_SLOT.LOGICAL 4 f) == l) with
  | some f => .slot f
  | none =>
    let s := l / 30
    let n0 := 32 * s + l % 30
    if chCarries c l n0 then .phys n0
    else .phys (((List.range 32).map (fun i => 32 * s + i)).find? (chCarries c l) |>.getD n0)

/-- The source or destination a channel move names (R220). -/
def moveEnd (c : Ctl) (dest : Bool) : ChHome :=
  if dest then
    (if getB c R.SLU_CHMOVE.DEST_FB then .slot (getF c R.SLU_CHMOVE.DEST) else .phys (getF c R.SLU_CHMOVE.DEST))
  else
    (if getB c R.SLU_CHMOVE.SRC_FB then .slot (getF c R.SLU_CHMOVE.SRC) else .phys (getF c R.SLU_CHMOVE.SRC))

/-- Channel-move routing of granule q of logical channel l (R209). -/
def chRoute (c : Ctl) (l q : Nat) : ChHome :=
  if c.slu.chLive && getF c R.SLU_CHMOVE.LOGICAL == l then moveEnd c (decide (q < getF c R.SLU_CHMOVE.W))
  else chHome c l

/-- The salt under which group q lies, with re-key routing (R209, R216). -/
def saltFor (c : Ctl) (q : Nat) : Nat :=
  if c.slu.rkLive && decide (q < getF c R.SLU_REKEY.W) then c.slu.rkSalt.toNat else getF c R.SLU_SALT.SALT

/-- Logical channel and local index of an HBM address as routed now. -/
def hbmRoute (c : Ctl) (a : Nat) : Nat × Nat :=
  let nch := channels c.fuses.grade
  hbmPlace a (saltFor c (a / 256 / nch)) nch

/-- Local address at which granule q of a channel in fallback slot f lies (R214). -/
def slotAddr (f q : Nat) : Nat := 0x17C00000000 + f * 0xC0000000 + 256 * q

/-- The home key of the granule of an HBM address for a given channel home: its own address, or its place in a fallback slot. -/
def granuleKey (a q : Nat) : ChHome → Nat
  | .phys _ => a / 256 * 256
  | .slot f => slotAddr f q

/-- The spill entry that holds an HBM granule, if any (R401). -/
def spillOf (c : Ctl) (a : Nat) : Option SpillEntry := c.slu.spill.find? (fun e => e.granule == a / 256)

/-- The home key of an HBM address: its spill entry, else where its channel lies. -/
def hbmKey (c : Ctl) (a : Nat) : Nat :=
  match spillOf c a with
  | some e => e.home + a % 256
  | none =>
    let r := hbmRoute c a
    granuleKey a r.2 (chRoute c r.1 r.2) + a % 256

/-- The physical stack that serves an HBM address: that of its physical channel; the home stack of a channel in fallback (R200, R214). -/
def hbmStack (c : Ctl) (a : Nat) : Nat :=
  let r := hbmRoute c a
  match chRoute c r.1 r.2 with
  | .phys n => n / 32
  | .slot _ => r.1 / 30

/-- First address past populated HBM (R2, R170). -/
def hbmEnd : Grade → Nat
  | .a64 => 0xA000000000
  | .b48 => 0x7800000000

/-- Base of the millpond (R170). -/
def millBase : Nat := 0x10000000000

/-- The packages of the millpond and the bytes of each that the address map shows: eight of 64 GiB (R198). -/
def packages : Nat := 8
def packageBytes : Nat := 0x1000000000

/-- First address past the millpond: 512 GiB (R170, R198). -/
def millEnd : Nat := millBase + packages * packageBytes

/-- The millpond package of a local address (R198, R206). -/
def packageOf (key : Nat) : Nat := (key - millBase) / 4096 % packages

/-- Base of commons data (R170). -/
def commonsBase : Nat := 0x20000000000

/-- Base of the chip flags (R170). -/
def flagBase : Nat := 0x20004000000

/-- The commons atomic port (R170). -/
def atomicPort : Nat := 0x20004001000

/-- Base of the register space (R170). -/
def regBase : Nat := 0x80000000000

/-- Home key of the core store of physical core p (R170, by physical core). -/
def coreKey (p : Nat) : Nat := 0x40000000000 + p * 0x1000000

/-- Home key of the pick store of physical core p. -/
def pickKey (p : Nat) : Nat := coreKey p + 0x800000

/-- Bytes of a core store (R170). -/
def coreBytes : Nat := 0x600000

/-- Where a local address lies (R170). -/
inductive Place where
  /-- HBM, whose stack serves it -/
  | hbm (stack : Nat)
  /-- millpond or commons data -/
  | plain
  | flags (off : Nat)
  | atomic (off : Nat)
  | core (p off : Nat)
  | pick (p off : Nat)
  | reg (off : Nat)
  | unmapped
  deriving DecidableEq, Repr

/-- Loopback of an HBM stack: LOOP set while its READY bit is 0 (R217, R224). -/
def stackLoop (c : Ctl) (s : Nat) : Bool :=
  !mainReady c (16 + s) && (getF c (hbmF R.HBM_TEST.LOOP s) == 1 || getF c (hbmF R.HBM_TEST.LOOP s) == 2)

/-- Loopback of a millpond package: LOOP set while its READY bit is 0 (R217, R227). -/
def packageLoop (c : Ctl) (k : Nat) : Bool :=
  !mainReady c (24 + k) && (let v := getF c R.MP_TEST.LOOP / 4 ^ k % 4; v == 1 || v == 2)

/-- The place of a local address, with the units absent under R2, R3, R152, R217 and R428 unmapped. DESIGN CHOICE (log entry 163): the atomic port is the one range that ends off a 256-byte boundary, and an access that begins or ends outside it is treated by its first byte. -/
def locate (c : Ctl) (a : Nat) : Place :=
  if a < hbmEnd c.fuses.grade then
    let s := hbmStack c a
    if mainReady c (16 + s) then .hbm s else .unmapped
  else if millBase ≤ a ∧ a < millEnd then
    if mainReady c (24 + packageOf a) then .plain else .unmapped
  else if commonsBase ≤ a ∧ a < commonsBase + 0x4000000 then
    (if mainReady c 5 then .plain else .unmapped)
  else if flagBase ≤ a ∧ a < flagBase + 0x200 then
    (if mainReady c 5 then .flags (a - flagBase) else .unmapped)
  else if atomicPort ≤ a ∧ a < atomicPort + 0x20 then
    (if mainReady c 5 then .atomic (a - atomicPort) else .unmapped)
  else if 0x40000000000 ≤ a ∧ a < 0x40100000000 then
    let l := (a - 0x40000000000) / 0x1000000
    let o := a % 0x1000000
    match if l < lcores c.fuses.grade then physCore c l else none with
    | some p =>
      if coreReady c p then
        (if o < coreBytes then .core p o
         else if 0x800000 ≤ o ∧ o < 0x880000 then .pick p (o - 0x800000) else .unmapped)
      else .unmapped
    | none => .unmapped
  else if regBase ≤ a ∧ a < regBase + 0x4000000 then .reg (a - regBase)
  else .unmapped

/-! ### Partitions, traffic, poison -/

/-- Bytes in a GiB. -/
def gib : Nat := 0x40000000

/-- Whether an HBM address lies in partition p (R203, R223). -/
def inPart (c : Ctl) (p a : Nat) : Bool :=
  let b := getF c (idxF R.MEM_PART.BASE 8 p) * gib
  decide (b ≤ a) && decide (a < b + getF c (idxF R.MEM_PART.SIZE 8 p) * gib)

/-- The partition of an HBM address; FREE is 7 (R203). -/
def partOf (c : Ctl) (a : Nat) : Nat := ((List.range 7).find? (fun p => inPart c p a)).getD 7

/-- A granule of logical channel l served where `home` says: counted for the logical channel, and for the physical one that serves it (R215, R225). -/
def serveGranule (l : Nat) (home : ChHome) (c : Ctl) : Ctl :=
  let slu := { c.slu with occL := c.slu.occL.put l (c.slu.occL.getD l 0 + 1) }
  let slu := match home with
    | .phys n => { slu with occP := slu.occP.put n (slu.occP.getD n 0 + 1) }
    | .slot _ => slu
  { c with slu := slu }

/-- Bytes charged to a partition (R204, R223). -/
def chargeBytes (part bytes : Nat) (c : Ctl) : Ctl := incF (idxF R.MEM_PART_BYTES.COUNT 8 part) bytes c

/-- Charge a request at an HBM address: bytes to its partition, granules to its channel (R204, R215, R223, R225). DESIGN CHOICE (log entry 145): a granule that lies in the spill is served by no HBM channel, and counts for none. -/
def charge (part a bytes : Nat) (c : Ctl) : Ctl :=
  let r := hbmRoute c a
  let c := chargeBytes part bytes c
  if (spillOf c a).isSome then c else serveGranule r.1 (chRoute c r.1 r.2) c

/-- Whether bytes [key, key + n) touch run g of 32 bytes. -/
def inRun (key n g : Nat) : Bool := decide (key / 32 ≤ g) && decide (g ≤ (key + n - 1) / 32)

/-- Whether bytes [key, key + n) touch a run of 32 bytes, of a list by key ÷ 32. -/
def touches (l : List Nat) (key n : Nat) : Bool := l.any (inRun key n)

/-- Whether a read of bytes [key, key + n) is uncorrectable: it touches a poisoned granule, or a run of 32 bytes with an uncorrectable error (R199). -/
def poisoned (c : Ctl) (key n : Nat) : Bool :=
  c.poison.any (fun g => decide (key / 256 ≤ g) && decide (g ≤ (key + n - 1) / 256)) || touches c.bad key n

/-- Bytes as read: those that are uncorrectable are zero (R199). -/
def maskPoison (c : Ctl) (key : Nat) : List Byte → List Byte
  | [] => []
  | b :: bs => (if c.poison.contains (key / 256) || c.bad.contains (key / 32) then 0 else b) :: maskPoison c (key + 1) bs

/-- A write of n bytes at a key lifts poison from the granules that it covers in full, and storage errors from the runs of 32 bytes that it covers in full (R199; log entry 146). -/
def clearPoison (key n : Nat) (c : Ctl) : Ctl :=
  let spares (k : Nat) (g : Nat) : Bool := !(decide (key ≤ k * g) && decide (k * g + k ≤ key + n))
  { c with poison := c.poison.filter (spares 256), bad := c.bad.filter (spares 32), soft := c.soft.filter (fun k => spares 32 (k / 32)) }

/-- The physical unit for error reports of what is read at home key `key` for local address a: HBM channel or millpond package (R199). -/
def errSource (c : Ctl) (a key : Nat) : Nat :=
  if millBase ≤ key then srcPackage (packageOf key)
  else
    let r := hbmRoute c a
    match chRoute c r.1 r.2 with
    | .phys n => srcChannel n
    | .slot f => srcPackage (packageOf (slotAddr f r.2))

/-- A field of the error register of a channel or package, by its source. -/
def errF (hbm mp : Fld) (src : Nat) : Fld := if src / 4096 == 6 then chErrF hbm (src % 4096) else idxF mp 8 (src % 4096)

/-- An uncorrectable read of unit `src` for local address a: counted, charged, a MEMORY event, and a check failure of the OPEN step (R199, R318, R384). -/
def uncorrectable (src a : Nat) : Ctl → Ctl :=
  inCycle (fun c => faultIfOpen 0x08 src (raise evMemory 0x02 src a (chargeUnit kUncorr src (satF (errF R.HBM_CH_ERR.UNCORR R.MP_ERR.UNCORR src) 1 c))))

/-- A corrected error of unit `src`: counted, and charged as CORR past 64 in a step (R199, R384). -/
def correctedAt (src : Nat) (c : Ctl) : Ctl := corrected src (satF (errF R.HBM_CH_ERR.CORR R.MP_ERR.CORR src) 1 c)

/-- The errors met in reading bytes [key, key + n) for local address a: each corrected run of 32 bytes is counted, an uncorrectable read is reported (R199). DESIGN CHOICE (log entry 146): one read that touches several uncorrectable runs is counted and reported once. -/
def readErrors (a key n : Nat) (c : Ctl) : Ctl :=
  let src := errSource c a key
  let k := (c.soft.filter (fun x => inRun key n (x / 32))).length
  let c := if k = 0 then c else forN k (fun _ => correctedAt src) c
  if poisoned c key n then uncorrectable src a c else c

/-- A storage error comes about at a home key of HBM or millpond: the controllers' code corrects one symbol and detects two in each 32 bytes, so a second byte of a run in error makes the run uncorrectable (R197 to R199). -/
def upset (u : Upset) (c : Ctl) : Ctl :=
  let g := u.key / 32
  if millEnd ≤ u.key || c.bad.contains g || c.soft.contains u.key && u.correctable then c
  else if u.correctable && !c.soft.any (fun k => k / 32 == g) then { c with soft := c.soft ++ [u.key] }
  else { c with bad := c.bad ++ [g], soft := c.soft.filter (fun k => k / 32 != g) }

/-! ### Reading a unit -/

/-- How an access ended. -/
inductive Acc where
  | ok
  /-- outside the map or at an absent unit (R2, R171) -/
  | unmapped
  /-- held: the write will be performed later (R401) -/
  | held
  deriving DecidableEq, Repr

/-- The effects of an access to an unmapped address (R2, R171). -/
def unmappedEvent (a : Nat) (c : Ctl) : Ctl := raise evMemory 0x01 srcDevice a c

/-- Bytes of the chip flags (R181). -/
def flagBytes (c : Ctl) (off n : Nat) : List Byte := leBytes n (c.chip.toNat / 2 ^ (8 * off))

/-- Zero bytes. -/
def zeros (n : Nat) : List Byte := List.replicate n 0

/-- Read n bytes at local address a, a unit inside 256 bytes and outside register space (R170, R171, R184, R199). -/
def readUnit (m : Store) (a n : Nat) (c : Ctl) : List Byte × Acc × Ctl :=
  match locate c a with
  | .hbm _ =>
    let key := hbmKey c a
    let bs := readBytes m key n
    (maskPoison c key bs, .ok, readErrors a key n (charge (partOf c a) a n c))
  | .plain => (maskPoison c a (readBytes m a n), .ok, readErrors a a n c)
  | .flags o => (flagBytes c o n, .ok, c)
  | .atomic _ => (zeros n, .ok, c)
  | .core p o => (readBytes m (coreKey p + o) n, .ok, c)
  | .pick p o => (readBytes m (pickKey p + o) n, .ok, c)
  | .reg _ => (zeros n, .ok, c)
  | .unmapped => (zeros n, .unmapped, unmappedEvent a c)

/-! ### Snapshot lines (R210) -/

/-- Bytes of a snapshot line. -/
def lineBytes : Nat := 0x10000

/-- HBM address of image offset o: WEIGHTS, then OPTIM (R210). -/
def imageAddr (c : Ctl) (o : Nat) : Nat :=
  let ws := getF c R.MEM_PART.SIZE * gib
  if o < ws then getF c R.MEM_PART.BASE * gib + o
  else getF c (idxF R.MEM_PART.BASE 8 1) * gib + (o - ws)

/-- Image offset of an HBM address of the persistent shard, if it lies there. -/
def imageOff (c : Ctl) (a : Nat) : Option Nat :=
  if inPart c 0 a then some (a - getF c R.MEM_PART.BASE * gib)
  else if inPart c 1 a then some (getF c R.MEM_PART.SIZE * gib + (a - getF c (idxF R.MEM_PART.BASE 8 1) * gib))
  else none

/-- Bytes of the persistent-shard image (R207, R210). -/
def imageBytes (c : Ctl) : Nat := (getF c R.MEM_PART.SIZE + getF c (idxF R.MEM_PART.SIZE 8 1)) * gib

/-- Local address of a millpond region (R207, R226): 0 SNAP, 1 and 2 MIRROR, 3 RETAIN, 4 TAIL, 5 FALLBACK. -/
def regionBase (c : Ctl) (x : Nat) : Nat := millBase + getF c (idxF R.MP_REGION.BASE 8 x) * gib

/-- A granule of 256 bytes written by the sluice: the poison pattern where `bad` (R199). -/
def putGranule (dst : Nat) (bs : List Byte) (bad : Bool) (d : Dev) : Dev :=
  let c := clearPoison dst 256 d.c
  { c := if bad then { c with poison := c.poison ++ [dst / 256] } else c, m := writeBytes d.m dst bs }

/-- Copy one granule of 256 bytes: an uncorrectable granule is copied as a poisoned one (R199, R210). -/
def copyGranule (src dst : Nat) (d : Dev) : Dev × Bool :=
  let bad := poisoned d.c src 256
  (putGranule dst (maskPoison d.c src (readBytes d.m src 256)) bad d, bad)

/-- A granule of HBM copied into an image, charged to SNAP; an uncorrectable one makes the image bad (R204, R210, R211). -/
def snapGranule (a dst : Nat) (d : Dev) : Dev :=
  let key := hbmKey d.c a
  let r := copyGranule key dst (onCtl (fun c => readErrors a key 256 (charge 5 a 256 c)) d)
  if r.2 then onCtl (fun c => setB R.SLU_STATUS.SNAP_BAD true { c with slu := { c.slu with snapBad := true } }) r.1 else r.1

/-- Copy snapshot line i into SNAP; an uncorrectable granule makes the image bad (R210, R211). -/
def copyLine (i : Nat) (d : Dev) : Dev :=
  let c0 := d.c
  forN 256 (fun g d =>
    let o := lineBytes * i + 256 * g
    snapGranule (imageAddr c0 o) (regionBase c0 0 + o) d)
    { d with c := { d.c with slu := { d.c.slu with copied := i :: d.c.slu.copied } } }

/-- Before a write to an HBM address: a line of the shard that a running snapshot has not copied is copied first (R210). -/
def forcedCopy (a : Nat) (d : Dev) : Dev :=
  if getB d.c R.SLU_STATUS.SNAP_ACTIVE then
    match imageOff d.c a with
    | some o =>
      let i := o / lineBytes
      if getF d.c R.SLU_SNAP.W ≤ i && !d.c.slu.copied.contains i then
        copyLine i (onCtl (incF R.SLU_FORCED.COUNT 1) d)
      else d
    | none => d
  else d

/-! ### Writing a unit -/

/-- The elements of an add-write: old and new bytes added element by element in a format (R178, R205). -/
def addBytes (fmt : Nat) (old new : List Byte) : List Byte :=
  let k := codeBits fmt / 8
  if k = 0 then old
  else
    let n := new.length / k
    (List.zipWith (fun o x => leBytes k (addElem fmt (leNat o) (leNat x))) (chunksOf' k n old) (chunksOf' k n new)).flatten
where
  chunksOf' (k : Nat) : Nat → List Byte → List (List Byte)
    | 0, _ => []
    | n + 1, l => l.take k :: chunksOf' k n (l.drop k)

/-- Local address of the k-th usable spill entry: the last GiB of FALLBACK, then fallback slots that hold no channel, in descending order (R401). -/
def spillAddr (c : Ctl) (k : Nat) : Option Nat :=
  if k < 4194304 then some (0x17C00000000 + 0x3C0000000 + 256 * k)
  else
    let free := ((List.range 5).reverse).filter (fun f => !getB c (idxF R.MP_FB_SLOT.USED 4 f) &&
      !(c.slu.chLive && getB c R.SLU_CHMOVE.DEST_FB && getF c R.SLU_CHMOVE.DEST == f))
    let j := k - 4194304
    (free[j / 12582912]?).map (fun f => slotAddr f (j % 12582912))

/-- The next free spill entry (R401). -/
def spillNext (c : Ctl) : Option Nat :=
  ((List.range (c.slu.spill.length + 1)).filterMap (spillAddr c)).find?
    (fun a => c.slu.spill.all (fun e => e.home != a))

/-- Perform a write or add-write of bytes at a home key. DESIGN CHOICE (log entry 146): an add-write writes no granule in full, since it adds to what it has read; into a poisoned granule it adds to zeros, and the granule stays poisoned (R199). -/
def performAt (key : Nat) (data : List Byte) (add : Option Nat) (d : Dev) : Dev :=
  match add with
  | none => { c := clearPoison key data.length d.c, m := writeBytes d.m key data }
  | some fmt =>
    let old := maskPoison d.c key (readBytes d.m key data.length)
    { d with m := writeBytes d.m key (addBytes fmt old data) }

/-- Perform a write or add-write at an HBM address: charged, snapshot line copied first (R204, R205, R210). -/
def performHbm (a : Nat) (data : List Byte) (add : Option Nat) (d : Dev) : Dev :=
  let cost := if add.isSome then 2 * data.length else data.length
  let d := onCtl (charge (partOf d.c a) a cost) (forcedCopy a d)
  let key := hbmKey d.c a
  performAt key data add (if add.isSome then onCtl (readErrors a key data.length) d else d)

/-- Whether a stack is in WRITE_STOP (R399). -/
def writeStop (c : Ctl) (s : Nat) : Bool := getF c (idxF R.FAN_HEAT.LEVEL 8 s) == 3

/-- A spill entry of stack s is taken for the granule of an HBM address (R401, R411). -/
def addSpill (s a home : Nat) (c : Ctl) : Ctl :=
  incF (idxF R.FAN_HEAT.SPILLED 8 s) 1 (setB (idxF R.FAN_HEAT.SPILL 8 s) true
    { c with slu := { c.slu with spill := c.slu.spill ++ [⟨a / 256, home, s⟩] } })

/-- Take a spill entry of stack s for the granule of an HBM address: its old contents are read from the stack and merged into the entry (R401). DESIGN CHOICE (log entry 145): the read of the old contents is charged to no partition. -/
def takeSpill (s a home : Nat) (d : Dev) : Dev :=
  let src := hbmKey d.c a / 256 * 256
  onCtl (addSpill s a home) (copyGranule src home (onCtl (fun c =>
    let r := hbmRoute c a
    readErrors a src 256 (serveGranule r.1 (chRoute c r.1 r.2) c)) d)).1

/-- No entry is left for a COLL granule of stack s: SPILL_FULL and a MEMORY event (R401). -/
def spillFull (s a : Nat) (c : Ctl) : Ctl := raise evMemory 0x0C (srcStack s) a (setB (idxF R.FAN_HEAT.SPILL_FULL 8 s) true c)

/-- Hold a write in the channel queues (R401). -/
def holdWrite (s a : Nat) (data : List Byte) (add : Option Nat) (who : HeldFor) (d : Dev) : Dev :=
  onCtl (fun c => { c with slu := { c.slu with held := c.slu.held ++ [⟨s, a, data, add, who⟩] } }) d

/-- The stack at which an earlier write to the granule of an HBM address is held: a later one keeps its place behind it, wherever the granule lies by now (R190, R401). -/
def heldAt (c : Ctl) (a : Nat) : Option Nat := (c.slu.held.find? (fun h => h.addr / 256 == a / 256)).map (·.stack)

/-- Write or add-write at an HBM address whose stack is s, none to its granule being held: performed, or held by WRITE_STOP, or performed in the spill (R401). -/
def hbmNow (s a : Nat) (data : List Byte) (add : Option Nat) (who : HeldFor) (d : Dev) : Dev × Acc :=
  if (spillOf d.c a).isSome || !writeStop d.c s then (performHbm a data add d, .ok)
  else if partOf d.c a = 4 then
    match spillNext d.c with
    | some home => (performHbm a data add (takeSpill s a home d), .ok)
    | none => (holdWrite s a data add who (onCtl (spillFull s a) d), .held)
  else (holdWrite s a data add who d, .held)

/-- Write or add-write at an HBM address whose stack is s, behind what is held of its granule (R190, R401). -/
def writeHbm (s a : Nat) (data : List Byte) (add : Option Nat) (who : HeldFor) (d : Dev) : Dev × Acc :=
  match heldAt d.c a with
  | some q => (holdWrite q a data add who d, .held)
  | none => hbmNow s a data add who d

/-- Granules that a job of the sluice is about to write, each with the stack that it goes to, of those that WRITE_STOP keeps from being written there (R401). -/
def stopped (c : Ctl) (l : List (Nat × Nat)) : List (Nat × Nat) := l.filter (fun x => writeStop c x.2 && (spillOf c x.1).isNone)

/-- Whether a unit of a move job waits: a granule that may be written neither to its stack nor to the spill holds it (R209, R401; log entry 164). -/
def sluiceWaits (c : Ctl) (l : List (Nat × Nat)) : Bool :=
  let x := stopped c l
  x.any (fun y => partOf c y.1 != 4) || (!x.isEmpty && (spillAddr c (c.slu.spill.length + x.length - 1)).isNone)

/-- A unit that waits for room in the spill: SPILL_FULL and a MEMORY event, once (R401). -/
def sluiceFull (l : List (Nat × Nat)) (c : Ctl) : Ctl :=
  match stopped c l with
  | x :: xs =>
    if (x :: xs).all (fun y => partOf c y.1 == 4) && !getB c (idxF R.FAN_HEAT.SPILL_FULL 8 x.2) then spillFull x.2 x.1 c else c
  | [] => c

/-- A granule of 256 bytes at HBM address a written by a move job where key and stack s say, or to the spill (R209, R401). -/
def sluicePut (s a key : Nat) (bs : List Byte) (bad : Bool) (d : Dev) : Dev :=
  match spillOf d.c a, writeStop d.c s, spillNext d.c with
  | some _, _, _ => d
  | none, true, some home => putGranule home bs bad (onCtl (addSpill s a home) d)
  | none, _, _ => putGranule key bs bad d

/-- Lines of 128 bytes in a core store; those of the pick store follow (R392). -/
def coreLines : Nat := 49152

/-- A write at byte `o` of the stores of physical core p, counted from the core store with the pick store after it, mirrored into the spare of a running core move below its watermark (R392). -/
def mirrorStore (c : Ctl) (p o : Nat) (keyOf : Nat → Nat) (data : List Byte) (m : Store) : Store :=
  match c.coreMove with
  | some mv =>
    if mv.src = p && !mv.switched then writeBytes m (keyOf mv.dst) (data.take (128 * mv.line - o)) else m
  | none => m

/-- A write at offset o of the core store of physical core p (R174, R392). -/
def writeCore (c : Ctl) (p o : Nat) (data : List Byte) (m : Store) : Store :=
  mirrorStore c p o (fun q => coreKey q + o) data (writeBytes m (coreKey p + o) data)

/-- A write at offset o of the pick store of physical core p (R139, R392). -/
def writePick (c : Ctl) (p o : Nat) (data : List Byte) (m : Store) : Store :=
  mirrorStore c p (128 * coreLines + o) (fun q => pickKey q + o) data (writeBytes m (pickKey p + o) data)

/-- Whether a pick-store write has an accepted width and alignment (R139, R175). -/
def pickWidthOk (o n : Nat) : Bool := (n == 4 && o % 4 == 0) || (n == 8 && o % 8 == 0)

/-- The write of a unit at a local address outside register space and the atomic port, by any master (R170, R171, R175, R181). Whole images written by PLOAD pass through Machine/Shuttle.lean. -/
def writeUnit (a : Nat) (data : List Byte) (who : HeldFor) (d : Dev) : Dev × Acc :=
  match locate d.c a with
  | .hbm s => writeHbm s a data none who d
  | .plain => (performAt a data none d, .ok)
  | .flags _ => (onCtl (raise evMemory 0x06 srcDevice a) d, .ok)
  | .core p o => ({ d with m := writeCore d.c p o data d.m }, .ok)
  | .pick p o =>
    if pickWidthOk o data.length then ({ d with m := writePick d.c p o data d.m }, .ok)
    else (onCtl (raise evMemory 0x05 srcDevice a) d, .ok)
  | .atomic _ => (d, .ok)
  | .reg _ => (d, .ok)
  | .unmapped => (onCtl (unmappedEvent a) d, .unmapped)

/-- An add-write of a unit (R178): by the HBM add pipeline, or by the commons in F32, I32 or I64; elsewhere not performed. The second result says whether it was performed or held. -/
def addUnit (fmt a : Nat) (data : List Byte) (who : HeldFor) (d : Dev) : Dev × Acc × Bool :=
  match locate d.c a with
  | .hbm s =>
    let r := writeHbm s a data (some fmt) who d
    (r.1, r.2, true)
  | .unmapped => (onCtl (unmappedEvent a) d, .unmapped, false)
  | .plain =>
    if commonsBase ≤ a ∧ fmt ≠ 4 then (performAt a data (some fmt) d, .ok, true)
    else (onCtl (raise evMemory 0x0B srcDevice a) d, .ok, false)
  | _ => (onCtl (raise evMemory 0x0B srcDevice a) d, .ok, false)

end Sys2Proof.Machine
end

