-- ==== Sys2Proof/Machine/Fabric.lean ====
section
/-! DEFINITION. The fabric: frames and their check value (R239, R240), flow contexts and alive counters (R244, R245), choosing ports and sending (R233, R242), ports going down (R235, R236), quarantine (R256), the checks on every received frame (R255), and requests with their deadlines (R243, R263). -/

namespace Sys2Proof.Machine

/-! ### Tension in force (R465, R466) -/

/-- A field of a perturbation register as it is in force in this beat; 0 when tension is not in force. -/
def tenF (c : Ctl) (f : Fld) : Nat :=
  match c.ten with
  | some t => fldGet (t.getD f.off 0) f
  | none => 0

/-- A count of a setting in force goes down by one, in force and in its register (R466). -/
def tenSpend (f : Fld) (c : Ctl) : Ctl :=
  match c.ten with
  | some t =>
    let w := t.getD f.off 0
    let w' := fldPut w f (fldGet w f - 1)
    let c := if getReg c f.off = w then setReg f.off w' c else c
    { c with ten := some (t.put f.off w') }
  | none => c

/-- An injection has taken effect; the OPEN step keeps note of it (R467). -/
def tenInjected (c : Ctl) : Ctl :=
  let s := getF c R.STEP_NOW.STEP
  let c := if stepOpen c && !c.step.injected.contains s then { c with step := { c.step with injected := s :: c.step.injected } } else c
  setB R.TEN_STATUS.INJECTED true c

/-- Whether tension selects physical core p (R468). -/
def tenCore (c : Ctl) (p : Nat) : Bool :=
  if p < 64 then tenF c { R.TEN_CORE_MASK0.CORES with lo := p, w := 1 } == 1
  else tenF c { R.TEN_CORE_MASK1.CORES with lo := p - 64, w := 1 } == 1

/-- Whether CRC injection corrupts a frame of class `cls` on physical port `p` in direction `dir` (R470). -/
def tenCrcHits (c : Ctl) (dir p cls : Nat) : Bool :=
  decide (0 < tenF c R.TEN_CRC.COUNT) && tenF c R.TEN_CRC.PORT == p && tenF c R.TEN_CRC.DIR == dir &&
    decide (cls < 4) && (tenF c R.TEN_CRC.CLASSES / 2 ^ cls % 2 == 1)

/-! ### Frames (R239, R240) -/

/-- The 32 bytes of a header (R239). -/
def headerBytes (h : Header) : List Byte :=
  let b (x : Bool) : Nat := if x then 1 else 0
  let r := h.rsv.toNat
  leBytes 4 (h.ver.toNat + h.cls.toNat * 2 ^ 4 + b h.first * 2 ^ 7 + h.type.toNat * 2 ^ 8 + h.alive.toNat * 2 ^ 16 + r % 2 ^ 8 * 2 ^ 24) ++
  leBytes 4 (h.src.toNat + h.dst.toNat * 2 ^ 16) ++
  leBytes 4 (h.len.toNat + r / 2 ^ 8 % 2 ^ 3 * 2 ^ 13 + h.port.toNat * 2 ^ 16 + r / 2 ^ 11 % 2 ^ 10 * 2 ^ 22) ++
  leBytes 4 h.rosterVer.toNat ++
  leBytes 8 h.addr.toNat ++
  leBytes 4 (h.tag.toNat + h.fmt.toNat * 2 ^ 16 + h.status.toNat * 2 ^ 20 + r / 2 ^ 21 * 2 ^ 24) ++
  leBytes 4 h.arg.toNat

/-- The header that 32 bytes spell (R239). -/
def headerOf (bs : List Byte) : Header :=
  let w (i : Nat) : Nat := leNat ((bs.drop (4 * i)).take 4)
  { ver := BitVec.ofNat 4 (w 0), cls := BitVec.ofNat 3 (w 0 / 2 ^ 4), first := w 0 / 2 ^ 7 % 2 == 1,
    type := BitVec.ofNat 8 (w 0 / 2 ^ 8), alive := BitVec.ofNat 8 (w 0 / 2 ^ 16),
    src := BitVec.ofNat 16 (w 1), dst := BitVec.ofNat 16 (w 1 / 2 ^ 16),
    len := BitVec.ofNat 13 (w 2), port := BitVec.ofNat 6 (w 2 / 2 ^ 16),
    rosterVer := BitVec.ofNat 32 (w 3),
    addr := BitVec.ofNat 64 (w 4 + w 5 * 2 ^ 32),
    tag := BitVec.ofNat 16 (w 6), fmt := BitVec.ofNat 4 (w 6 / 2 ^ 16), status := BitVec.ofNat 4 (w 6 / 2 ^ 20),
    arg := BitVec.ofNat 32 (w 7),
    rsv := BitVec.ofNat 29 (w 0 / 2 ^ 24 % 2 ^ 8 + w 2 / 2 ^ 13 % 2 ^ 3 * 2 ^ 8 + w 2 / 2 ^ 22 % 2 ^ 10 * 2 ^ 11 + w 6 / 2 ^ 24 % 2 ^ 8 * 2 ^ 21) }

/-- Header, payload and zero padding to a multiple of 4 (R240). -/
def frameBytes (f : Frame) : List Byte :=
  headerBytes f.hdr ++ f.payload ++ zeros ((4 - f.payload.length % 4) % 4)

/-- The CRC-32C that follows a frame (R240). -/
def frameCrc (f : Frame) : Word := BitVec.ofNat 32 (crc32c (frameBytes f))

/-- What the sender of a frame chooses; the rest is filled in on sending. -/
structure Out where
  cls : Nat
  type : Nat
  dst : Nat
  payload : List Byte
  addr : Nat
  tag : Nat
  fmt : Nat
  status : Nat
  arg : Nat

/-- A frame of a class and type to a peer, every other field 0. -/
def out (cls type dst : Nat) (payload : List Byte) : Out :=
  { cls := cls, type := type, dst := dst, payload := payload, addr := 0, tag := 0, fmt := 0, status := 0, arg := 0 }

/-- Own roster number; 0 when there is none. -/
def myNum (c : Ctl) : Nat := c.place.me.getD 0

/-- The frame as it is handed to a port; FIRST, ALIVE, PORT and ROSTER_VER are set when it leaves (R239, R245). -/
def mkFrame (o : Out) (c : Ctl) : Frame :=
  { hdr :=
      { ver := 1, cls := BitVec.ofNat 3 o.cls, first := false, type := BitVec.ofNat 8 o.type, alive := 0,
        src := BitVec.ofNat 16 (myNum c), dst := BitVec.ofNat 16 o.dst, len := BitVec.ofNat 13 o.payload.length,
        port := 0, rosterVer := 0, addr := BitVec.ofNat 64 o.addr, tag := BitVec.ofNat 16 o.tag,
        fmt := BitVec.ofNat 4 o.fmt, status := BitVec.ofNat 4 o.status, arg := BitVec.ofNat 32 o.arg, rsv := 0 },
    payload := o.payload }

/-! ### Flow contexts (R244, R245) -/

/-- The key of the flow to or from a peer in a class on a logical port. -/
def flowKey (peer cls q : Nat) : Nat := (peer * 4 + cls) * 64 + q

/-- Flow contexts of the device (R244). -/
def flowMax : Nat := 4096

/-- The control state with a context for the flow, allocated if there is none; none when none is free (R244). -/
def flowTake (peer cls q : Nat) (c : Ctl) : Option Ctl :=
  let k := flowKey peer cls q
  if c.flows.has k then some c
  else if flowMax ≤ c.flows.length then none
  else
    let c := { c with flows := c.flows.put k { peer := peer, cls := cls, port := q, tx := none, rx := none, last := c.ticks } }
    some (if getF c R.SEL_FLOWS.PEAK < c.flows.length then setF R.SEL_FLOWS.PEAK c.flows.length c else c)

/-- The LPE that serves a logical port counts a frame (R271). -/
def lpeCount (f : Fld) (q : Nat) (c : Ctl) : Ctl := incF (portF f (lpeOf c q)) 1 c

/-! ### The step trailer (R294) -/

/-- Beats of the step in progress, from the draft (R20, R142, R398). -/
def stepBeats (c : Ctl) : Nat :=
  match c.job with
  | some j => if c.step.kind = 1 then j.seq.bMeas else if c.step.kind = 2 then j.seq.bClose else j.seq.bTrain
  | none => 0

def trNonfin : Nat := 0
def trCkfail : Nat := 1
def trStretch : Nat := 2
def trHalt : Nat := 3
def trStop : Nat := 4

/-- A trailer bit. -/
def trBit (b : Nat) (x : Bool) : BitVec 5 := if x then 1 <<< b else 0

/-- The fantail asks for a longer commit beat (R294, R400): in the beat before it, a stack in THROTTLE or WRITE_STOP has made it request a stretch. -/
def fanAsks (c : Ctl) : Bool :=
  c.step.beat + 2 == stepBeats c && getF c R.FAN_HEAT_CFG.STRETCH != 0 && (List.range 8).any (fun s => decide (2 ≤ getF c (idxF R.FAN_HEAT.LEVEL 8 s)))

/-- The device's own trailer bits (R294). -/
def ownTrailer (c : Ctl) : BitVec 5 :=
  trBit trNonfin (getB c R.GOV_STATUS.NONFIN_STEP) ||| trBit trCkfail (getB c R.STEP_STATUS.CKFAIL) |||
    trBit trStretch (getB c R.VOTE_CTRL.STRETCH || fanAsks c) ||| trBit trHalt (getB c R.VOTE_CFG.POLICY) ||| trBit trStop c.step.stop

/-- The step trailer: own bits and those heard (R294). -/
def stepTrailer (c : Ctl) : BitVec 5 := ownTrailer c ||| c.step.heard

/-- ARG of a frame as it leaves: a COLL frame of the OPEN step carries the step trailer as it stands now; a VOTE_UP carries it too, a VOTE_DOWN the vote (R294, R295). -/
def argOut (c : Ctl) (h : Header) : Word :=
  let t : Word := (stepTrailer c).setWidth 32
  if h.cls != 1 || !stepOpen c || h.arg.toNat / 2 ^ 16 != getF c R.STEP_NOW.STEP % 2 ^ 16 || h.type == 6 then h.arg
  else if h.type == 5 then h.arg ||| t
  else h.arg &&& ~~~ 31 ||| t

/-- The next frame of a flow: the control state with its ALIVE number taken, and FIRST and ALIVE; none when no flow context is free (R244, R245). -/
def flowNext (peer cls q : Nat) (c : Ctl) : Option (Ctl × Bool × Nat) :=
  match flowTake peer cls q c with
  | none => none
  | some c =>
    let k := flowKey peer cls q
    let prev := (c.flows.look k).bind (·.tx)
    let a := match prev with | some t => (t + 1) % 256 | none => 0
    some ({ c with flows := c.flows.adjust k (fun x => { x with tx := some a, last := c.ticks }) }, prev.isNone, a)

/-- A frame leaves on logical port q, which physical port p serves; none when no flow context is free (R239, R240, R244, R245, R470). -/
def emit (q p : Nat) (f : Frame) (c : Ctl) : Option Ctl :=
  let peer := f.hdr.dst.toNat
  let cls := f.hdr.cls.toNat
  match flowNext peer cls q c with
  | none => none
  | some (c, first, a) =>
    let hdr := { f.hdr with first := first, alive := BitVec.ofNat 8 a, port := BitVec.ofNat 6 q,
                            rosterVer := BitVec.ofNat 32 (getF c R.PLACE_STATUS.ROSTER_VER), arg := argOut c f.hdr }
    let f := { f with hdr := hdr }
    let crc := frameCrc f
    let hit := tenCrcHits c 0 p cls
    let c := if hit then tenInjected (tenSpend R.TEN_CRC.COUNT c) else c
    let c := { c with txq := c.txq ++ [⟨p, f, if hit then crc ^^^ 1 else crc⟩] }
    some (lpeCount R.LPE_TX.COUNT q c)

/-- Port index of a waiting frame that may leave on any port. -/
def anyPort : Nat := 64

/-- Port state of physical port p beyond its registers. -/
def portSt (c : Ctl) (p : Nat) : PortSt := c.ports.getD p PortSt.reset

/-- The control state with port p's state changed. -/
def setPortSt (p : Nat) (f : PortSt → PortSt) (c : Ctl) : Ctl := { c with ports := c.ports.put p (f (portSt c p)) }

/-- The logical ports that carry frames: mapped to a physical port that is UP or PAUSED since before this beat (R233, R236, R263). -/
def carrying (c : Ctl) : List Nat :=
  (upPorts c).filter (fun q => match physPort c q with | some p => !(portSt c p).fresh | none => false)

/-- Whether logical port q is in a pause (R233). -/
def pausedPort (c : Ctl) (q : Nat) : Bool :=
  match physPort c q with
  | some p => getF c (portF R.PORT_STATUS.STATE p) == 3
  | none => false

/-- Try to send a frame on logical port q: it waits while the port pauses or no flow context is free (R233, R244). -/
def tryPort (q : Nat) (f : Frame) (c : Ctl) : Option Ctl :=
  if pausedPort c q then none
  else match physPort c q with
    | some p => emit q p f c
    | none => none

/-- A frame joins the frames that wait. -/
def enqueueWait (q : Nat) (f : Frame) (c : Ctl) : Ctl := { c with waitq := c.waitq ++ [⟨q, f⟩] }

/-- Whether a frame finds frames waiting for its port that go before it: those of its own class, whose order is kept (R233), and those of the classes served before it (R28). -/
def waitsBehind (q : Nat) (f : Frame) (c : Ctl) : Bool :=
  c.waitq.any (fun w => w.logical == q && decide (w.frame.hdr.cls.toNat ≤ f.hdr.cls.toNat))

/-- Send on logical port q, behind the frames of its own and of the higher classes that already wait for it (R28, R233). -/
def sendOn (q : Nat) (f : Frame) (c : Ctl) : Ctl :=
  if waitsBehind q f c then enqueueWait q f c
  else match tryPort q f c with
    | some c => c
    | none => enqueueWait q f c

/-- The next port in turn among those that carry frames (R242; log entry 9). -/
def nextPort (c : Ctl) : Option Nat :=
  let l := carrying c
  if l.isEmpty then none else l[c.turn % l.length]?

/-- Send a frame on a port of the engine's choice (R242). -/
def sendAny (o : Out) (c : Ctl) : Ctl :=
  let f := mkFrame o c
  match nextPort c with
  | some q => sendOn q f { c with turn := c.turn + 1 }
  | none => enqueueWait anyPort f c

/-- Send a frame on the n lowest-numbered ports that are up (R258, R295). -/
def sendLowest (n : Nat) (o : Out) (c : Ctl) : Ctl :=
  let f := mkFrame o c
  match (carrying c).take n with
  | [] => enqueueWait anyPort f c
  | l => l.foldl (fun c q => sendOn q f c) c

/-- Whether a waiting frame may still be sent: an admission frame, or one to an admitted peer (R252, R256). -/
def maySend (c : Ctl) (f : Frame) : Bool :=
  (f.hdr.cls == 0 && (f.hdr.type == 0x10 || f.hdr.type == 0x11 || f.hdr.type == 0x12 || f.hdr.type == 0x13)) ||
    (match c.peers.look f.hdr.dst.toNat with | some p => p.state == 2 | none => false)

/-- Waiting frames in strict priority of their classes, each class in its order of waiting (R28, R233). -/
def byClass (l : List WaitFrame) : List WaitFrame :=
  (List.range 8).flatMap (fun k => l.filter (fun w => w.frame.hdr.cls.toNat == k))

/-- The port on which a waiting frame leaves: its own while that carries frames; else a TIME frame moves to the next port that is up, from the lowest one on behind the highest, and the others are spread over the ports that remain (R236, R242, R258). -/
def waitPort (w : WaitFrame) (c : Ctl) : Option Nat :=
  let l := carrying c
  if l.contains w.logical then some w.logical
  else if w.frame.hdr.cls.toNat = 0 then l.find? (fun q => decide (w.logical < q)) <|> l.head?
  else nextPort c

/-- A frame is lost inside the device: its ALIVE number is taken all the same, so that its receiver finds the gap (R238, R245). -/
def frameLost (c : Ctl) (w : WaitFrame) : Ctl :=
  match flowNext w.frame.hdr.dst.toNat w.frame.hdr.cls.toNat w.logical c with
  | some x => x.1
  | none => c

/-- A waiting frame is tried again. -/
def retryFrame (c : Ctl) (w : WaitFrame) : Ctl :=
  match waitPort w c with
  | some q => sendOn q w.frame (if q = w.logical ∨ w.frame.hdr.cls.toNat = 0 then c else { c with turn := c.turn + 1 })
  | none => enqueueWait w.logical w.frame c

/-- Frames that wait are tried again, class by class, in order for each port; those whose port is no longer up go to another (R28, R233, R236, R244). -/
def flushWait (c : Ctl) : Ctl :=
  (byClass (c.waitq.filter (fun w => maySend c w.frame))).foldl retryFrame { c with waitq := [] }

/-! ### Ports (R232, R235, R236) -/

/-- Width at which a direction with these lanes out of service runs (R232). -/
def laneWidth (dead : BitVec 8) : Nat :=
  let g := 8 - ((List.range 8).filter (fun l => dead.getLsbD l)).length
  if g = 8 then 8 else if g = 7 then 7 else if g = 6 then 6 else if 4 ≤ g then 4 else 0

/-- The lanes a direction uses: its lowest-numbered lanes in service, as many as its width (R232). -/
def laneMask (dead : BitVec 8) : Nat :=
  (((List.range 8).filter (fun l => !dead.getLsbD l)).take (laneWidth dead)).foldl (fun m l => m + 2 ^ l) 0

/-- Loopback of a port: LOOP takes effect while the port is OFF or DOWN (R217, R267). -/
def portLoop (c : Ctl) (p : Nat) : Bool :=
  (getF c (portF R.PORT_STATUS.STATE p) == 0 || getF c (portF R.PORT_STATUS.STATE p) == 4) &&
    (getF c (portF R.PORT_CTRL.LOOP p) == 1 || getF c (portF R.PORT_CTRL.LOOP p) == 2)

/-- The free spare port cabled to plane q: a spare that is unmapped, dark (STATE 0) and READY (R235). DESIGN CHOICE (log entry 144): a spare that has gone down, its training failed or the host having taken it down, is no free spare until power-off. -/
def spareFor (c : Ctl) (q : Nat) : Option Nat :=
  (List.range 38).find? (fun p => getB c (portF R.PORT_STATUS.SPARE p) && !getB c (portF R.PORT_STATUS.MAPPED p) &&
    getF c (portF R.PORT_STATUS.STATE p) == 0 && portReady c p && !portLoop c p &&
    getB c (portF R.PORT_SPARE_PLANE.CABLED p) && getF c (portF R.PORT_SPARE_PLANE.PLANE p) == q)

/-- A port begins to train (R263). -/
def startTraining (p : Nat) (c : Ctl) : Ctl := setF (portF R.PORT_STATUS.STATE p) 1 c

/-- Whether a spare is already on its way to plane q: it trains, or has trained and awaits the boundary that maps it (R235). -/
def spareComing (c : Ctl) (q : Nat) : Bool :=
  (List.range 38).any (fun p => getB c (portF R.PORT_STATUS.SPARE p) && !getB c (portF R.PORT_STATUS.MAPPED p) &&
    getF c (portF R.PORT_SPARE_PLANE.PLANE p) == q &&
    (getF c (portF R.PORT_STATUS.STATE p) == 1 || (portSt c p).ready))

/-- A free spare cabled to plane q begins to train in place of its failed port, unless one is on its way (R235). -/
def spareTrain (q : Nat) (c : Ctl) : Ctl :=
  match spareFor c q with
  | some sp => if spareComing c q then c else startTraining sp c
  | none => c

/-- DOWN_CAUSE codes (R266). -/
def downLanes : Nat := 1
def downTrain : Nat := 2
def downAdmission : Nat := 3
def downHost : Nat := 4
def downRetired : Nat := 5

/-- The registers of a port that goes down, or that is retired while it is down: state and cause, no width, no lanes (R266, R268). -/
def portDark (p cause : Nat) (c : Ctl) : Ctl :=
  let c := setF (portF R.PORT_STATUS.STATE p) (if cause = downRetired then 5 else 4) c
  let c := setF (portF R.PORT_STATUS.DOWN_CAUSE p) cause c
  let c := setF (portF R.PORT_STATUS.TX_WIDTH p) 0 (setF (portF R.PORT_STATUS.RX_WIDTH p) 0 c)
  let c := setF (portF R.PORT_LANES.TX_ACTIVE p) 0 (setF (portF R.PORT_LANES.RX_ACTIVE p) 0 c)
  setPortSt p (fun s => { s with fresh := false, ready := false, takeDown := false }) c

/-- With any cause but ADMISSION or HOST, a port that is down or retired has the spare cabled to its plane train (R235). -/
def portReplace (p cause : Nat) (c : Ctl) : Ctl :=
  match logPort c p with
  | some q => if cause = downAdmission ∨ cause = downHost then c else spareTrain q c
  | none => c

/-- A physical port goes down: no width, no lanes, its waiting frames go to other ports, a LINK event, and its spare trains (R235, R236). A port that is down already can only be retired: it raises no second event. -/
def portDown (p cause : Nat) (c : Ctl) : Ctl :=
  let st := getF c (portF R.PORT_STATUS.STATE p)
  if st == 5 || (st == 4 && cause != downRetired) then c
  else
    let c := portDark p cause c
    let c := if st == 4 then c else raiseLink 0x0F (srcPort p) p c
    flushWait (portReplace p cause c)

/-! ### Members and peers (R252 to R256, R284, R285) -/

/-- The roster members of the draft in force. -/
def members (c : Ctl) : List Member :=
  match c.job with
  | some j => j.weave.members
  | none => []

/-- The roster entry of a number. -/
def member (c : Ctl) (n : Nat) : Option Member := (members c).find? (fun m => m.num == n)

/-- The seats, in ascending number (R284). -/
def seats (c : Ctl) : List Nat :=
  sortBy (· ≤ ·) (((members c).filter (fun m => !m.endpoint && !m.spare)).map (·.num))

/-- Whether n is a seat (R284). -/
def isSeat (c : Ctl) (n : Nat) : Bool := (members c).any (fun m => m.num == n && !m.endpoint && !m.spare)

/-- The seat this device serves (R284). -/
def mySeat (c : Ctl) : Option Nat :=
  match c.place.me with
  | some n => (c.place.serving.find? (fun e => e.2 == n)).map (·.1)
  | none => none

/-- The device that a seat or roster number names (R285). -/
def deviceOf (c : Ctl) (n : Nat) : Option Nat := if isSeat c n then c.place.serving.look n else some n

/-- A peer in a given admission state. -/
def peerIs (c : Ctl) (n st : Nat) : Bool :=
  match c.peers.look n with
  | some p => p.state == st
  | none => false

/-- A change of a peer's STATE, with the beat of the change (R273). -/
def setPeerState (n st : Nat) (c : Ctl) : Ctl :=
  { c with peers := c.peers.adjust n (fun p =>
      { p with state := st, active := false, deadline := none, lapse := none, theirs := none, sentAdmitted := false, gotAdmitted := false,
               beat := getF c R.BEAT_NOW.BEAT % 2 ^ 32 }) }

/-- This device reports a roster number lost (R261, R306). -/
def reportLost (n : Nat) (c : Ctl) : Ctl :=
  if c.place.failed.contains n || c.time.lost.contains n || c.place.me == some n then c
  else { c with time := { c.time with lost := n :: c.time.lost } }

/-- Quarantine a peer: its flow contexts are freed, the port of arrival goes down, an ADMISSION event (R256). -/
def quarantine (n reason p : Nat) : Ctl → Ctl := inCycle (fun c =>
  let q := (logPort c p).getD 0
  let c := setPeerState n 3 c
  let c := { c with peers := c.peers.adjust n (fun x => { x with reason := reason, qport := q })
                    flows := c.flows.filter (fun e => e.2.peer != n) }
  let c := raise evAdmission reason srcSelvedge (n % 65536 + q % 64 * 2 ^ 16) c
  reportLost n (portDown p downAdmission c))

/-! ### The checks on a received frame (R255) -/

/-- Whether a frame is an admission frame (R241). -/
def isAdmission (h : Header) : Bool := h.cls == 0 && (h.type == 0x10 || h.type == 0x11 || h.type == 0x12 || h.type == 0x13)

/-- Whether a payload length is allowed for a class and type; none for an undefined class or type (R241, R292, R357). -/
def lenAllowed (cls type len : Nat) : Bool :=
  match cls, type with
  | 0, 0x01 => len == 32
  | 0, 0x02 => len == 32
  | 0, 0x10 => len == 104
  | 0, 0x11 => len == 312
  | 0, 0x12 => len == 4
  | 0, 0x13 => len == 4
  | 1, 0x01 => decide (4 ≤ len ∧ len ≤ 4096)
  | 1, 0x02 => decide (1 ≤ len ∧ len ≤ 4096)
  | 1, 0x03 => decide (1 ≤ len ∧ len ≤ 4096)
  | 1, 0x04 => len == 0
  | 1, 0x05 => len == 0
  | 1, 0x06 => len == 0
  | 1, 0x10 => len == 16
  | 2, 0x01 => len == 0
  | 2, 0x02 => decide (1 ≤ len ∧ len ≤ 256)
  | 2, 0x03 => decide (1 ≤ len ∧ len ≤ 256)
  | 2, 0x04 => decide (2 ≤ len ∧ len ≤ 256)
  | 2, 0x05 => len == 0
  | 3, 0x01 => len == 4096
  | 3, 0x02 => len == 0
  | 3, 0x03 => len == 32
  | 3, 0x04 => len == 0
  | 3, 0x05 => len == 0
  | 3, 0x11 => len == 4096
  | 3, 0x12 => len == 8
  | 3, 0x13 => len == 0
  | 3, 0x14 => len == 0
  | 3, 0x15 => decide (1 ≤ len ∧ len ≤ 4096)
  | 3, 0x16 => len == 0
  | 3, 0x17 => len == 0
  | _, _ => false

/-- Whether a READ_RSP answers an outstanding read of its sender with another length than was requested (R241). -/
def wrongLength (c : Ctl) (h : Header) : Bool :=
  h.cls == 2 && h.type == 0x02 &&
    (match c.reqs.look h.tag.toNat with
      | some r => r.isRead && r.peer == h.src.toNat && r.len != h.len.toNat
      | none => false)

/-- Order 6 of R255. -/
def malformed (c : Ctl) (f : Frame) : Bool :=
  let h := f.hdr
  let len := h.len.toNat
  let cls := h.cls.toNat
  let typ := h.type.toNat
  !(lenAllowed cls typ len) || decide (4096 < len) || len != f.payload.length ||
    (cls == 2 && typ == 0x01 && !decide (1 ≤ h.arg.toNat ∧ h.arg.toNat ≤ 256)) ||
    (cls == 2 && typ == 0x04 && (!isAddFormat h.fmt.toNat || len % (codeBits h.fmt.toNat / 8) != 0)) || wrongLength c h ||
    (!isAdmission h && h.ver != 1)

/-- Order 7 of R255: the current roster version, or the previous one within the beat of its advance. -/
def staleVer (c : Ctl) (h : Header) : Bool :=
  h.rosterVer.toNat != getF c R.PLACE_STATUS.ROSTER_VER && some h.rosterVer.toNat != c.place.prevVer

/-- The alive test (R245): the second result says whether the frame is accepted, the third how many frames were lost before it. -/
def aliveTest (peer cls q p : Nat) (h : Header) (c : Ctl) : Ctl × Bool × Nat :=
  match flowTake peer cls q c with
  | none => (raiseLinkPeer 0x07 (srcPort p) peer 0 (setB R.SEL_FLOWS.EXHAUSTED true c), false, 0)
  | some c =>
    let k := flowKey peer cls q
    let a := h.alive.toNat
    let take (c : Ctl) : Ctl := { c with flows := c.flows.adjust k (fun x => { x with rx := some ((a + 1) % 256), last := c.ticks }) }
    match h.first, (c.flows.look k).bind (·.rx) with
    | false, some e =>
      let d := (a + 256 - e) % 256
      if d = 0 then (take c, true, 0)
      else if d < 128 then
        (raiseLinkPeer 0x04 (srcPort p) peer d (satF (portF R.PORT_ERR1.LOST p) d (take c)), true, d)
      else
        (raiseLinkPeer 0x05 (srcPort p) peer p (satF (portF R.PORT_ERR1.REPEAT p) 1 c), false, 0)
    | _, _ => (take c, true, 0)

/-- What the selvedge made of a received frame. -/
structure Arrival where
  /-- passed every check, to be delivered -/
  deliver : Bool
  /-- frames of its flow found lost -/
  lost : Nat

/-- Whether a physical port takes in frames: UP or PAUSED, mapped, and since before this beat (R233, R263). -/
def portHears (c : Ctl) (p : Nat) : Bool :=
  let st := getF c (portF R.PORT_STATUS.STATE p)
  decide (p < 38) && (st == 2 || st == 3) && getB c (portF R.PORT_STATUS.MAPPED p) && !(portSt c p).fresh

/-- The checks of R255 in their order, after CRC injection (R470), with the alive test of R245. A frame whose PORT differs from the port of arrival is accepted at order 8, before the alive test. -/
def selvedge (rx : Rx) (c : Ctl) : Ctl × Arrival :=
  let p := rx.port
  let h := rx.frame.hdr
  let peer := h.src.toNat
  let cls := h.cls.toNat
  let no (c : Ctl) : Ctl × Arrival := (c, ⟨false, 0⟩)
  if !portHears c p then no c
  else
    let hit := tenCrcHits c 1 p cls
    let c := if hit then tenInjected (tenSpend R.TEN_CRC.COUNT c) else c
    let crc := if hit then rx.crc ^^^ 1 else rx.crc
    if frameCrc rx.frame != crc then no (satF (portF R.PORT_ERR0.CRC p) 1 c)
    else match member c peer with
    | none =>
      if getB c R.SEL_STATUS.ROSTER then no (portDown p downAdmission (satF R.SEL_CNT.OUT_OF_ROSTER 1 c)) else no c
    | some _ =>
      if peerIs c peer 3 then no c
      else if some h.dst.toNat != c.place.me then no (raiseLinkPeer 0x06 (srcPort p) peer 0 c)
      else if !isAdmission h && !peerIs c peer 2 then no (quarantine peer 0x7 p (satF R.SEL_CNT.UNAUTH 1 c))
      else if malformed c rx.frame then no (quarantine peer 0x6 p (satF R.SEL_CNT.MALFORMED 1 c))
      else if staleVer c h then no (satF R.SEL_CNT.STALE 1 c)
      else
        let q := (logPort c p).getD 0
        if h.port.toNat != q then
          (lpeCount R.LPE_RX.COUNT q (raiseLinkPeer 0x08 (srcPort p) peer p (satF R.SEL_CNT2.MISPLANE 1 c)), ⟨true, 0⟩)
        else
        let r := aliveTest peer cls q p h c
        if r.2.1 then (lpeCount R.LPE_RX.COUNT q r.1, ⟨true, r.2.2⟩) else (r.1, ⟨false, 0⟩)

/-! ### Requests to peers (R167, R169, R243, R263) -/

/-- Where a global address leads (R167, R169, R285). -/
inductive Target where
  | here
  | peer (n : Nat)
  | nowhere
  deriving DecidableEq, Repr

/-- The device field's target. -/
def targetOf (c : Ctl) (dev : Nat) : Target :=
  if dev = 0xFFFF then .here
  else if c.job.isNone then .nowhere
  else if some dev = c.place.me then .here
  else match deviceOf c dev with
    | none => .nowhere
    | some n =>
      if some n = c.place.me then .here
      else if (member c n).isSome && !peerIs c n 3 then .peer n else .nowhere

/-- The LINK event of an access that is not sent (R169). -/
def notSent (dev : Nat) (c : Ctl) : Ctl := raiseLinkPeer 0x03 srcDevice dev 0 c

/-- The lowest request tag from `nextTag` on that no outstanding request holds. -/
def freeTag (c : Ctl) : Nat :=
  (((List.range (c.reqs.length + 1)).map (fun i => (c.nextTag + i) % 65536)).find? (fun t => !c.reqs.has t)).getD c.nextTag

/-- Deadline in beats, 0 acting as 1 (R275). -/
def rmaBeats (c : Ctl) : Nat := max 1 (getF c R.SEL_TMO.RMA)

/-- Issue a request to a peer, with its tag and deadline; it is sent if the peer is admitted, its ADDR the local address at the peer (R239, R243, R252, R263). -/
def issueReq (n type : Nat) (payload : List Byte) (addr len fmt : Nat) (k : Cont) (c : Ctl) : Ctl :=
  let tag := freeTag c
  let q := (nextPort c).getD anyPort
  let isRead := type == 0x01
  let r : Req := { peer := n, port := q, isRead := isRead, len := len, addr := addr, deadline := c.ticks + rmaBeats c, cont := k, held := none }
  let c := { c with reqs := c.reqs.put tag r, nextTag := (tag + 1) % 65536 }
  if peerIs c n 2 then
    sendAny { out 2 type n payload with addr := addr % 2 ^ 48, tag := tag, fmt := fmt, arg := if isRead then len else 0 } c
  else c

/-- A read request of `len` bytes. -/
def issueRead (n addr len : Nat) (k : Cont) (c : Ctl) : Ctl := issueReq n 0x01 [] addr len 0 k c

/-- A write request. -/
def issueWrite (n addr : Nat) (data : List Byte) (k : Cont) (c : Ctl) : Ctl := issueReq n 0x03 data addr data.length 0 k c

/-- An add-write request. -/
def issueAdd (n addr fmt : Nat) (data : List Byte) (k : Cont) (c : Ctl) : Ctl := issueReq n 0x04 data addr data.length fmt k c

/-- A response to a peer's request (R243). -/
def respond (n type tag status : Nat) (addr : Nat) (payload : List Byte) (c : Ctl) : Ctl :=
  sendAny { out 2 type n payload with addr := addr, tag := tag, status := status } c

end Sys2Proof.Machine
end

