-- ==== Sys2Proof/Machine/Operands.lean ====
section
/-! DEFINITION. The pick image (R129, R130): its fields, loop counts and operand addresses (R134 to R136), the operands an opcode uses, and the sequencer's checks in their order (R149, R289). -/

namespace Sys2Proof.Machine

/-- Word i of an image. -/
def imgW (img : List Word) (i : Nat) : Nat := (img.getD i 0).toNat

/-- Bits [lo + w - 1 : lo] of word i. -/
def imgF (img : List Word) (i lo w : Nat) : Nat := imgW img i / 2 ^ lo % 2 ^ w

/-- Bit b of word i. -/
def imgB (img : List Word) (i b : Nat) : Bool := imgF img i b 1 == 1

/-- Words i and i + 1, low word first. -/
def imgD (img : List Word) (i : Nat) : Nat := imgW img i + imgW img (i + 1) * 2 ^ 32

/-- The image that 256 bytes spell. -/
def imageOf (bs : List Byte) : List Word := (List.range 64).map (fun i => BitVec.ofNat 32 (leNat ((bs.drop (4 * i)).take 4)))

def imgOp (img : List Word) : Nat := imgF img 0 0 8
def imgFunc (img : List Word) : Nat := imgF img 0 16 8
/-- Format code of operand o: A 0, W 1, O 2, X 3. -/
def imgFmt (img : List Word) (o : Nat) : Nat := imgF img 1 (4 * o) 4
def imgSat (img : List Word) : Bool := imgB img 1 16
def imgSlot (img : List Word) : Nat := imgF img 1 17 3
def imgFirstClear (img : List Word) : Bool := imgB img 1 21
def imgDrain (img : List Word) : Bool := imgB img 1 22
def imgFree (img : List Word) : Bool := imgB img 1 23
def imgMeasure (img : List Word) : Bool := imgB img 1 24
def imgAmax (img : List Word) : Bool := imgB img 1 25
/-- Tensor ID of operand o. -/
def imgTid (img : List Word) (o : Nat) : Nat := imgF img (2 + o / 2) (16 * (o % 2)) 14
def imgM (img : List Word) : Nat := imgF img 4 0 7 + 1
def imgN (img : List Word) : Nat := imgF img 4 8 7 + 1
def imgK (img : List Word) : Nat := imgF img 4 16 7 + 1
def imgMTail (img : List Word) : Bool := imgB img 4 23
def imgMTailCnt (img : List Word) : Nat := imgF img 4 24 5
def imgVlen (img : List Word) : Nat := imgF img 4 0 16
def imgRowBytes (img : List Word) : Nat := imgF img 4 0 24
def imgCkExact (img : List Word) : Bool := imgB img 5 0
def imgCkNorm (img : List Word) : Bool := imgB img 5 1
def imgCkRange (img : List Word) : Bool := imgB img 5 2
def imgCkSample (img : List Word) : Bool := imgB img 5 3
def imgSlack (img : List Word) : Int := (BitVec.ofNat 8 (imgF img 5 8 8)).toInt
def imgWaitLocal (img : List Word) : Nat := imgD img 12
def imgWaitChip (img : List Word) : Nat := imgD img 14
def imgWaitGrp (img : List Word) : Nat := imgF img 16 0 6
def imgConsume (img : List Word) : Bool := imgB img 16 8
def imgSetLocal (img : List Word) : Nat := imgD img 17
def imgSetChip (img : List Word) : Nat := imgD img 19
def imgSetGrp (img : List Word) : Nat := imgF img 21 0 6
def imgOparg (img : List Word) : Nat := imgW img 22
def imgAddFmt (img : List Word) : Nat := imgF img 23 0 4
def imgAdd (img : List Word) : Bool := imgB img 23 4
/-- Base address of operand o. -/
def imgBase (img : List Word) (o : Nat) : Nat := imgD img (24 + 2 * o)
/-- Row pitch of operand o. -/
def imgPitch (img : List Word) (o : Nat) : Int := (img.getD (32 + o) 0).toInt
/-- Stride of operand o for loop l. -/
def imgStride (img : List Word) (o l : Nat) : Int := (img.getD (36 + 4 * o + l) 0).toInt
def imgIndexBase (img : List Word) : Nat := imgW img 52 + imgF img 53 0 16 * 2 ^ 32

/-! ### Loops and addresses -/

/-- The count of a loop word from the core's count registers (R134). -/
def loopCount (cnt : Nat → Nat) (w : Nat) : Nat :=
  let src := w % 64
  let sh := w / 64 % 16
  let ru := w / 1024 % 2
  let val := w / 65536
  if src = 63 then val
  else
    let c : Int := ((cnt src + (if ru = 1 then 2 ^ sh - 1 else 0)) / 2 ^ sh : Nat) + (BitVec.ofNat 16 val).toInt
    if c < 0 then 0 else if 65535 < c then 65535 else c.toNat

/-- The four loop counts of an image. -/
def loopCounts (cnt : Nat → Nat) (img : List Word) : List Nat := (List.range 4).map (fun l => loopCount cnt (imgW img (8 + l)))

/-- A base moved by the strides of operand o at iteration (i0, i1, i2, i3), modulo 2^64 (R135). -/
def strideAddr (base : Nat) (img : List Word) (o i0 i1 i2 i3 : Nat) : Nat :=
  let a : Int := (base : Int) + imgStride img o 0 * i0 + imgStride img o 1 * i1 + imgStride img o 2 * i2 + imgStride img o 3 * i3
  (a % (2 ^ 64 : Int)).toNat

/-- The address of operand o at iteration (i0, i1, i2, i3) (R135). -/
def operandAddr (img : List Word) (o i0 i1 i2 i3 : Nat) : Nat := strideAddr (imgBase img o) img o i0 i1 i2 i3

/-- The core-store offset of operand o at an iteration: bits [63:23] of the base are ignored (R131, R135). -/
def coreAddr (img : List Word) (o i0 i1 i2 i3 : Nat) : Nat := strideAddr (imgBase img o % 0x800000) img o i0 i1 i2 i3

/-- The address of row j of an operand block (R135). -/
def rowAddr (img : List Word) (o block j : Nat) : Nat := (((block : Int) + imgPitch img o * j) % (2 ^ 64 : Int)).toNat

/-! ### Elements of core store (R135, R156) -/

/-- A byte of the core store as a pick's operand: undefined past its end (R156; log entry 6). -/
def coreByte (m : Store) (p gen a : Nat) : Byte :=
  if a < coreBytes then storeGet m (coreKey p + a) else Config.freeByte (2 ^ 64 + gen) a

/-- Element k of a row: S4 packs two to a byte, the lower-indexed in bits [3:0] (R135). -/
def elemAt (rd : Nat → Byte) (bits row k : Nat) : Nat :=
  if bits = 4 then (rd (row + k / 2)).toNat / 16 ^ (k % 2) % 16
  else leNat ((List.range (bits / 8)).map (fun i => rd (row + bits / 8 * k + i)))

/-- S4 codes packed into bytes; an odd last code leaves the high nibble of its byte as it was (log entry 11). -/
def packS4 (last : Nat) : List Nat → List Byte
  | [] => []
  | [a] => [BitVec.ofNat 8 (a % 16 + last / 16 * 16)]
  | a :: b :: l => BitVec.ofNat 8 (a % 16 + b % 16 * 16) :: packS4 last l

/-- The bytes of a row of codes; `last` is the byte now at the row's last byte. -/
def packRow (bits last : Nat) (codes : List Nat) : List Byte :=
  if bits = 4 then packS4 last codes else codes.flatMap (leBytes (bits / 8))

/-- Bytes that n elements of a width occupy. -/
def rowLen (bits n : Nat) : Nat := (bits * n + 7) / 8

/-- M of a tile iteration: the last LOOP1 iteration of a MATMUL with M_TAIL takes it from a count register (R136). -/
def tileM (img : List Word) (n1 i1 mTail : Nat) : Nat :=
  if imgMTail img && i1 + 1 == n1 then (mTail + 127) % 128 + 1 else imgM img

/-- Iterations (i1, i2, i3) of the outer loops in loop order. -/
def tileIters (n1 n2 n3 : Nat) : List (Nat × Nat × Nat) :=
  (List.range n3).flatMap (fun i3 => (List.range n2).flatMap (fun i2 => (List.range n1).map (fun i1 => (i1, i2, i3))))

/-- Iterations of the nest in ascending ordinal q: (q, i0, i1, i2, i3) (R135). -/
def rowIters (n0 n1 n2 n3 : Nat) : List (Nat × Nat × Nat × Nat × Nat) :=
  (tileIters n1 n2 n3).flatMap (fun it => (List.range n0).map (fun i0 =>
    (i0 + n0 * (it.1 + n1 * (it.2.1 + n2 * it.2.2)), i0, it.1, it.2.1, it.2.2)))

/-- The rows of a started pick. -/
def runRows (r : Running) : List (Nat × Nat × Nat × Nat × Nat) :=
  rowIters (r.counts.getD 0 0) (r.counts.getD 1 0) (r.counts.getD 2 0) (r.counts.getD 3 0)

/-! ### Groups (R286) -/

/-- The seats of a group by rank: group 0 is every seat in ascending number; listed groups follow (R286). -/
def groupSeats (c : Ctl) (g : Nat) : Option (List Nat) :=
  match c.job with
  | none => none
  | some j => if g = 0 then some (seats c) else j.weave.groups[g - 1]?

/-- Rank of a seat in a group. -/
def rankOf (l : List Nat) (s : Nat) : Option Nat :=
  let i := l.idxOf s
  if i < l.length then some i else none

/-- Members of a group and this device's rank in it. -/
def groupRank (c : Ctl) (g : Nat) : Option (List Nat × Nat) :=
  match groupSeats c g, mySeat c with
  | some l, some s => (rankOf l s).map (fun r => (l, r))
  | _, _ => none

/-! ### What an opcode uses (R131, R134, R135, R149) -/

/-- Input operands of VMAP's function: a; a, b; or a, b, c (R132). -/
def vmapInputs (func : Nat) : List Nat :=
  if func = 0x04 ∨ func = 0x0E then [0, 1, 3]
  else if func = 0x01 ∨ func = 0x02 ∨ func = 0x03 ∨ func = 0x05 ∨ func = 0x06 then [0, 1]
  else [0]

/-- Working copies present in a VUPD: operand and OPARG bit (R114). -/
def vupdCopies (img : List Word) : List Nat :=
  (if imgB img 22 29 then [1] else []) ++ (if imgB img 22 30 then [3] else [])

/-- Input and output operands whose formats and tensor IDs an opcode uses. A MATMUL uses O when it drains (R69). -/
def usedOps (img : List Word) : List Nat :=
  match imgOp img with
  | 0x10 => if imgDrain img then [0, 1, 2] else [0, 1]
  | 0x11 => [2]
  | 0x20 => vmapInputs (imgFunc img) ++ [2]
  | 0x21 => [0, 2]
  | 0x22 => [0, 2] ++ vupdCopies img
  | _ => []

/-- Loop words an opcode uses (R134): four, COLL's two, or none; VOTE ignores C (R288). -/
def usedLoops (img : List Word) : Nat :=
  match imgOp img with
  | 0x10 => 4
  | 0x11 => 4
  | 0x20 => 4
  | 0x21 => 4
  | 0x22 => 4
  | 0x30 => 4
  | 0x38 => if imgF img 22 0 8 = 6 then 0 else 2
  | _ => 0

/-- Whether a loop the opcode uses has count 0: the pick does no work (R134). -/
def noWork (img : List Word) (counts : List Nat) : Bool := (counts.take (usedLoops img)).contains 0

/-- Treadles that accept an opcode (R131). -/
def opTreadle (op t : Nat) : Bool :=
  match op with
  | 0x00 => decide (t < 6)
  | 0x10 => decide (t < 4)
  | 0x11 => decide (t < 4)
  | 0x20 => t == 4
  | 0x21 => t == 4
  | 0x22 => t == 4
  | 0x30 => t == 5
  | 0x31 => t == 5
  | 0x32 => t == 5
  | 0x33 => t == 5
  | 0x38 => t == 5
  | _ => false

/-- Whether an opcode is in R131. -/
def opKnown (op : Nat) : Bool := (List.range 6).any (opTreadle op)

/-- REASON 0x04 (R44, R149). -/
def badFormat (img : List Word) : Bool :=
  let op := imgOp img
  let engIn := fun o => decide (4 < imgFmt img o)
  let vec := fun o => decide (5 < imgFmt img o)
  match op with
  | 0x10 => engIn 0 || engIn 1 || (imgDrain img && vec 2)
  | 0x11 => vec 2
  | 0x20 => (usedOps img).any vec
  | 0x21 => vec 0 || vec 2
  | 0x22 => imgFmt img 0 != 5 || imgFmt img 2 != 5 || (vupdCopies img).any vec
  | 0x30 => imgAdd img && !isAddFormat (imgAddFmt img)
  | 0x38 => imgF img 22 0 8 != 6 && (vec 0 || vec 2)
  | _ => false

/-- REASON 0x05: the pairs of R45. -/
def badPair (img : List Word) : Bool :=
  let a := imgFmt img 0
  let w := imgFmt img 1
  imgOp img == 0x10 && !((decide (a < 3) && decide (w < 3)) || (a == 3 && w == 3) || (a == 4 && w == 4))

/-- REASON 0x09 (R131, R149). -/
def badBase (l : Nat) (img : List Word) : Bool :=
  let own := fun o => decide (0x600000 ≤ imgBase img o % 0x800000)
  let far := fun o =>
    let a := imgBase img o % 2 ^ 48
    let cs := 0x40000000000 + l * 0x1000000
    !(decide (a < 0xA000000000) || (decide (cs ≤ a) && decide (a < cs + 0x600000)))
  match imgOp img with
  | 0x22 => own 0 || far 2 || (vupdCopies img).any far
  | 0x10 => (usedOps img).any own
  | 0x11 => own 2
  | 0x20 => (usedOps img).any own
  | 0x21 => own 0 || own 2
  | _ => false

/-- REASON 0x0D: the refusals of R289. -/
def badColl (c : Ctl) (cnt : Nat → Nat) (img : List Word) : Bool :=
  let ty := imgF img 22 0 8
  let a := imgFmt img 0
  let o := imgFmt img 2
  if imgOp img != 0x38 then false
  else if ty = 6 then imgB img 52 16 && imgF img 52 17 3 == 0
  else
    let fmts := if ty = 1 ∨ ty = 2 then decide (2 ≤ a ∧ a ≤ 5) && o == 5
      else decide (3 ≤ ty ∧ ty ≤ 5) && a == o && decide (a ≤ 5)
    match fmts, groupRank c (imgF img 52 0 12) with
    | true, some (l, _) =>
      let g := l.length
      let sl := imgF img 52 17 3
      let cc := loopCount cnt (imgW img 8) * loopCount cnt (imgW img 9)
      (imgB img 52 16 && (sl == 0 || g % 2 ^ sl != 0)) || (ty == 5 && decide (256 < g)) ||
        (ty == 4 && decide (g ≤ imgF img 54 0 16)) || (a == 0 && cc % 2 == 1)
    | _, _ => true

/-- The lowest REASON that an image of treadle t of logical core l fails with, or none (R149). -/
def refusal (c : Ctl) (cnt : Nat → Nat) (l t : Nat) (img : List Word) : Option Nat :=
  let op := imgOp img
  let ids := if op = 0x38 then (if imgF img 22 0 8 = 1 ∨ imgF img 22 0 8 = 2 then [0] else []) else usedOps img
  if imgF img 0 8 4 != 1 then some 0x01
  else if !opKnown op then some 0x02
  else if !opTreadle op t then some 0x03
  else if badFormat img then some 0x04
  else if badPair img then some 0x05
  else if (op == 0x10 || op == 0x11) && imgB img 1 20 then some 0x06
  else if ids.any (fun o => decide (getF c R.GOV_CFG.RECORDS ≤ imgTid img o)) then some 0x07
  else if (List.range (usedLoops img)).any (fun i => decide (32 ≤ imgW img (8 + i) % 64 ∧ imgW img (8 + i) % 64 ≤ 62)) then some 0x08
  else if badBase l img then some 0x09
  else if op == 0x32 && decide (2048 < imgF img 22 0 11 + (imgF img 22 16 12 + 1)) then some 0x0A
  else if (op == 0x20 && decide (0x0E < imgFunc img)) || (op == 0x21 && decide (2 < imgFunc img)) then some 0x0B
  else if (imgMeasure img && imgAmax img) || (imgMeasure img && !(op == 0x10 || op == 0x11 || op == 0x20)) ||
      (imgAmax img && !(op == 0x20 || op == 0x21)) then some 0x0C
  else if badColl c cnt img then some 0x0D
  else none

end Sys2Proof.Machine
end

