-- ==== Sys2Proof/Machine/Seq.lean ====
section
/-! DEFINITION. The sequencer (R129, R141 to R155, R162 to R164): list words, images, starts, completions, hollow retirement, faults, the failed state, and the pick trace (R476). -/

namespace Sys2Proof.Machine

/-! ### Treadles -/

/-- Treadle t of physical core p. -/
def trAt (c : Ctl) (p t : Nat) : Treadle := c.treadles.getD (6 * p + t) Treadle.idle

/-- The treadle's state code (R162). -/
def trCode (x : Treadle) : Nat :=
  if x.stopped then 5
  else if x.done && x.runs.isEmpty then 0
  else if x.hollow then 4
  else if !x.runs.isEmpty then 3
  else if x.load.isSome then 2
  else if x.closed then 0
  else 1

/-- The control state with a treadle replaced; TR_STATE shows its state (R162). -/
def putTr (p t : Nat) (x : Treadle) (c : Ctl) : Ctl :=
  setF (trF R.TR_STATE.STATE p t) (trCode x) { c with treadles := c.treadles.put (6 * p + t) x }

/-- The control state with a treadle changed. -/
def setTr (p t : Nat) (f : Treadle → Treadle) (c : Ctl) : Ctl := putTr p t (f (trAt c p t)) c

/-- Count register n of physical core p (R165). -/
def cntOf (c : Ctl) (p n : Nat) : Nat := getF c (idxF (coreF R.SEQ_CNT.COUNT p) 4 n)

/-- Local flags of physical core p (R166). -/
def localFlags (c : Ctl) (p : Nat) : Dword := getReg c (coreF R.SEQ_LFLAGS.FLAGS p).off

/-- The core with its local flags replaced. -/
def setLocalFlags (p : Nat) (v : Dword) (c : Ctl) : Ctl := setReg (coreF R.SEQ_LFLAGS.FLAGS p).off v c

/-- Local flags ORed into the register. -/
def orLocal (p : Nat) (v : Dword) (c : Ctl) : Ctl := setLocalFlags p (localFlags c p ||| v) c

/-- Local flags cleared (R146). -/
def clearLocal (p : Nat) (v : Dword) (c : Ctl) : Ctl := setLocalFlags p (localFlags c p &&& ~~~ v) c

/-- The 64 chip flags of a group (R181). -/
def chipGroup (c : Ctl) (g : Nat) : Dword := (c.chip >>> (64 * g)).setWidth 64

/-- Chip flags of a group set (R181). -/
def setChip (g : Nat) (v : Dword) (c : Ctl) : Ctl := { c with chip := c.chip ||| (v.setWidth 4096 <<< (64 * g)) }

/-- The physical cores that serve a logical core and whose functions are READY, in ascending order. -/
def servingCores (c : Ctl) : List Nat := (List.range 72).filter (fun p => (coreSlot c p).logical.isSome && coreReady c p)

/-- Whether physical core p is quiesced (R474). -/
def quiesced (c : Ctl) (p : Nat) : Bool := getB c (engF R.ENG_STATUS.QUIESCED p 0)

/-- Whether engine e of physical core p is in service (R159). -/
def engPresent (c : Ctl) (p e : Nat) : Bool := (coreSlot c p).engines.getLsbD e

/-- Beats of a step of a list kind (R142, R160, R398). -/
def beatsOf (c : Ctl) (p kind : Nat) : Nat :=
  match kind with
  | 1 => getF c (coreF R.SEQ_BEATS.B_MEAS p)
  | 2 => getF c (coreF R.SEQ_BEATS.B_CLOSE p)
  | _ => getF c (coreF R.SEQ_BEATS.B_TRAIN p)

/-- Offset of a treadle's list of a kind; none where the loaded program gives the core no lists (R161, R398, R418). -/
def listOff (c : Ctl) (p t kind : Nat) : Option Nat :=
  let l := logCore c p
  if !c.progCores.contains l then none
  else if kind = 3 then some (c.probLists.getD (6 * l + t) 0)
  else some (4 * getF c (R.SEQ_LIST.OFFSET.at (0x10000 * p + 0x10 * t + 4 * kind)))

/-! ### The pick trace (R476) -/

/-- The entry of a pick event (R476). -/
def traceEntry (p t ev idx word cycle : Nat) (c : Ctl) : TraceEnt :=
  { dw0 := BitVec.ofNat 64 (getF c R.BEAT_NOW.BEAT % 2 ^ 32 + cycle % 2 ^ 32 * 2 ^ 32)
    dw1 := BitVec.ofNat 64 (p + (t + ev * 8) * 2 ^ 8 + idx * 2 ^ 16 + word % 2 ^ 32 * 2 ^ 32) }

/-- Whether the trace selects physical core p in debug mode (R474, R476). -/
def traced (c : Ctl) (p : Nat) : Bool :=
  getB c R.DBG_CTRL.MODE && decide (0 < getF c R.DBG_TRACE_SIZE.ENTRIES) &&
    (if p < 64 then getB c { R.DBG_TRACE_MASK0.CORES with lo := p, w := 1 }
     else getB c { R.DBG_TRACE_MASK1.CORES with lo := p - 64, w := 1 })

/-- A pick event makes a trace entry, or is dropped and counted when the buffer is full (R476). -/
def tracePick (p t ev idx word cycle : Nat) (c : Ctl) : Ctl :=
  if !traced c p then c
  else if 4096 ≤ c.trace.length then satF R.DBG_TRACE_DROPS.COUNT 1 c
  else { c with trace := c.trace ++ [traceEntry p t ev idx word cycle c] }

def evStart : Nat := 1
def evComplete : Nat := 2
def evRefused : Nat := 3
def evHollow : Nat := 4
def evStopped : Nat := 5

/-! ### Faults and the failed state (R150 to R155) -/

/-- The device enters the failed state of the OPEN step, which sets its check-failure state (R153, R154). -/
def enterFailed (c : Ctl) : Ctl :=
  if stepOpen c then setCkfail { c with step := { c.step with failed := true } } else c

/-- TR_FAULT causes (R164). -/
def causeRefused : Nat := 1
def causeAbsent : Nat := 2
def causeOverrun : Nat := 3
def causeShort : Nat := 4
def causeLong : Nat := 5

/-- CHK_FIRST cause of a treadle fault (R318). -/
def chkCause (cause : Nat) : Nat :=
  match cause with
  | 1 => 0x0B
  | 2 => 0x0C
  | 3 => 0x0D
  | _ => 0x0E

/-- TR_STATE bit of a treadle fault (R162). -/
def markTrState (p t cause : Nat) (c : Ctl) : Ctl :=
  match cause with
  | 1 => setB (trF R.TR_STATE.REFUSED p t) true c
  | 2 => setB (trF R.TR_STATE.ABSENT p t) true c
  | 3 => setB (trF R.TR_STATE.OVERRUN p t) true c
  | _ => c

/-- What TR_FAULT and its companions hold of a fault (R164). -/
structure TrFault where
  cause : Nat
  reason : Nat
  pick : Nat
  word : Nat
  wgrp : Nat
  wloc : Dword
  wchip : Dword

/-- The first fault of a treadle is captured while VALID is 0 (R164). -/
def captureFault (p t : Nat) (f : TrFault) (c : Ctl) : Ctl :=
  if getB c (trF R.TR_FAULT.VALID p t) then c
  else
    let w := f.cause + f.reason * 2 ^ 4 + f.pick % 2048 * 2 ^ 12 + 2 ^ 23 + f.word % 2 ^ 32 * 2 ^ 24 + f.wgrp * 2 ^ 56
    let c := setReg (trF R.TR_FAULT.CAUSE p t).off (BitVec.ofNat 64 w) c
    let c := setReg (trF R.TR_FAULT_BEAT.BEAT p t).off (getReg c R.BEAT_NOW.adr) c
    setReg (trF R.TR_FAULT_WCHIP.PENDING p t).off f.wchip (setReg (trF R.TR_FAULT_WLOC.PENDING p t).off f.wloc c)

/-- A refusal, absence, overrun or list mismatch of a treadle: its record, a PROGRAM event while `loud`, the rest of the segment hollow, the failed state (R150, R151, R153, R164, R318). -/
def treadleFault (loud : Bool) (p t : Nat) (f : TrFault) (c : Ctl) : Ctl :=
  let c := captureFault p t f (markTrState p t f.cause c)
  let c := if loud then raise evProgram f.cause (srcTreadle p t) (f.reason + f.pick % 2048 * 2 ^ 8) c else c
  let c := checkFail { cause := chkCause f.cause, step := getF c R.STEP_NOW.STEP, lcore := logCore c p, unit := t,
                       pick := f.pick, detail := f.reason, source := srcTreadle p t, row := 0 } c
  setTr p t (fun x => { x with hollow := true }) (enterFailed c)

/-- A treadle fault outside the guard: no PROGRAM event once the failed state has begun (R153). -/
def faultNow (p t cause reason pick word wgrp : Nat) (c : Ctl) : Ctl :=
  treadleFault (!c.step.failed) p t { cause := cause, reason := reason, pick := pick, word := word, wgrp := wgrp, wloc := 0, wchip := 0 } c

/-! ### Walking the list (R141 to R143) -/

def wordIndex (w : Word) : Nat := w.toNat % 2048
def wordSegEnd (w : Word) : Bool := w.getLsbD 11
def wordStepEnd (w : Word) : Bool := w.getLsbD 12
def wordEmpty (w : Word) : Bool := w.getLsbD 13
def wordRun (w : Word) : Nat := max 1 (w.toNat / 65536)

/-- Index of the next list word to be executed. -/
def headIdx (x : Treadle) : Nat := x.next - x.ahead.length

/-- The treadle reaches STEP_END: too early is LIST_SHORT (R142). -/
def reachEnd (p t word : Nat) (c : Ctl) : Ctl :=
  let c := setTr p t (fun x => { x with ended := true }) c
  if c.step.beat + 1 < beatsOf c p c.step.kind then faultNow p t causeShort 0 0 word 0 c else c

/-- When the segment's work is over, the treadle is done with it; the last segment without STEP_END is LIST_LONG (R142). -/
def segCheck (p t : Nat) (c : Ctl) : Ctl :=
  let x := trAt c p t
  if x.done || !x.closed || x.load.isSome || !x.runs.isEmpty then c
  else
    let c := setTr p t (fun x => { x with done := true }) c
    if c.step.beat + 1 = beatsOf c p c.step.kind ∧ !x.ended then
      faultNow p t causeLong 0 0 (getF c (trF R.TR_POS.WORD p t)) 0 (setTr p t (fun x => { x with ended := true }) c)
    else c

/-- One empty segment of the EMPTY word in execution (R141). -/
def runEmpty (p t : Nat) (c : Ctl) : Ctl :=
  let x := trAt c p t
  let last := x.emptyLeft ≤ 1
  let c := setTr p t (fun x => { x with emptyLeft := x.emptyLeft - 1, closed := true }) c
  let c := if last && x.emptyEnd then reachEnd p t (getF c (trF R.TR_POS.WORD p t)) c else c
  segCheck p t c

/-- An EMPTY word at the head of an open segment: as its first word it stands for RUN empty segments, this one first; after a pick it ends the segment and its run follows (R141; log entry 10). -/
def settle (p t : Nat) (c : Ctl) : Ctl :=
  let x := trAt c p t
  match x.ahead with
  | w :: rest =>
    if !x.closed && x.load.isNone && wordEmpty w then
      let c := setF (trF R.TR_POS.WORD p t) (headIdx x) c
      let c := setTr p t (fun x => { x with ahead := rest, emptyEnd := wordStepEnd w,
                                            emptyLeft := wordRun w, closed := true }) c
      if x.taken then segCheck p t c else runEmpty p t c
    else c
  | [] => c

/-- LIST_WORD_FETCH: read the next list word, at most 16 ahead; beyond the core store it is LIST_LONG when it comes to be executed (R142, R143). A core that waits for a program copy reads none (R425). -/
def listWordFetch (p t : Nat) (d : Dev) : Dev :=
  let c := d.c
  let x := trAt c p t
  if !x.active || x.ended || 16 ≤ x.ahead.length || x.ahead.any wordStepEnd || !stepOpen c || c.copying.contains p then d
  else
    let a := x.off + 4 * x.next
    if coreBytes ≤ a then
      if x.ahead.isEmpty && !x.closed && x.load.isNone then
        let c := setTr p t (fun x => { x with ended := true, closed := true }) c
        { d with c := segCheck p t (faultNow p t causeLong 0 0 x.next 0 c) }
      else d
    else
      let w : Word := BitVec.ofNat 32 (leNat (readBytes d.m (coreKey p + a) 4))
      { d with c := settle p t (setTr p t (fun x => { x with ahead := x.ahead ++ [w], next := x.next + 1 }) c) }

/-- The pick store's image i of physical core p. -/
def pickImage (m : Store) (p i : Nat) : List Word := imageOf (readBytes m (pickKey p + 256 * i) 256)

/-- Whether a pick runs in full in the failed state: COLL and FLAG (R153). -/
def fullWhenHollow (op : Nat) : Bool := op == 0x38 || op == 0x33

/-- The segment ends behind a word that has been taken (R141). -/
def takeWord (p t word : Nat) (segEnd stepEnd : Bool) (c : Ctl) : Ctl :=
  let c := setTr p t (fun x => { x with taken := true, closed := segEnd || stepEnd }) c
  let c := if stepEnd then reachEnd p t word c else c
  segCheck p t (settle p t c)

/-- Whether a treadle may load: its segment is open, or the guard has come and the next segment's first word is due, once in a guard (R143). A core that waits for a program copy loads nothing (R425). -/
def mayLoad (c : Ctl) (p : Nat) (x : Treadle) : Bool :=
  x.active && !x.ended && x.load.isNone && !c.copying.contains p &&
    (!x.closed || (c.time.inGuard && x.closed && x.emptyLeft == 0 && !x.early))

/-- PICK_LOAD: the image of the next list word is copied and checked; a refused pick is recorded and the rest of the segment retires hollow (R129, R149, R150). -/
def pickLoad (p t cycle : Nat) (d : Dev) : Dev :=
  let c := d.c
  let x := trAt c p t
  match x.ahead with
  | w :: rest =>
    if !mayLoad c p x || wordEmpty w || !stepOpen c then d
    else
      let word := headIdx x
      let idx := wordIndex w
      let img := pickImage d.m p idx
      let c := setF (trF R.TR_STATE.PICK p t) idx (setTr p t (fun x => { x with ahead := rest, early := x.closed }) c)
      let checked := !x.hollow || fullWhenHollow (imgOp img)
      match if checked then refusal c (cntOf c p) (logCore c p) t img else none with
      | some reason =>
        let c := tracePick p t evRefused idx word cycle (faultNow p t causeRefused reason idx word (imgWaitGrp img) c)
        if x.closed then
          { d with c := setTr p t (fun x => { x with pre := wordSegEnd w || wordStepEnd w, ended := wordStepEnd w }) c }
        else { d with c := takeWord p t word (wordSegEnd w) (wordStepEnd w) c }
      | none =>
        let ld : Loaded := { image := img, idx := idx, word := word, segEnd := wordSegEnd w, stepEnd := wordStepEnd w, due := 0 }
        { d with c := setTr p t (fun x => { x with load := some ld }) c }
  | [] => d

/-! ### Starting (R144, R146, R147, R151) -/

/-- Local flags as a wait of this cycle sees them: those consumed in the same cycle are still set (R147). -/
def flagsSeen (c : Ctl) (p cycle : Nat) : Dword :=
  match c.consumed.look p with
  | some (cy, m) => if cy = cycle then localFlags c p ||| m else localFlags c p
  | none => localFlags c p

/-- Waited local flags still clear. -/
def localPending (c : Ctl) (p cycle : Nat) (img : List Word) : Dword :=
  BitVec.ofNat 64 (imgWaitLocal img) &&& ~~~ flagsSeen c p cycle

/-- Waited chip flags still clear. -/
def chipPending (c : Ctl) (img : List Word) : Dword :=
  BitVec.ofNat 64 (imgWaitChip img) &&& ~~~ chipGroup c (imgWaitGrp img)

/-- Whether the previous pick of the treadle allows a start: complete on TV and TS, its last pass or drain issued on T0 to T3 (R144). -/
def prevAllows (t : Nat) (x : Treadle) : Bool := if t < 4 then x.runs.all (·.worked) else x.runs.isEmpty

/-- Whether the beat allows a start: after the segment's boundary and before the guard (R144, R16), the core neither quiesced nor waiting for a program copy (R425, R474). -/
def beatAllows (c : Ctl) (p : Nat) : Bool :=
  stepOpen c && !c.time.inGuard && !c.jitter && !quiesced c p && !c.copying.contains p && coreReady c p

/-- A pick that an absent engine bars (R151). -/
def engineAbsent (c : Ctl) (p t : Nat) : Bool := decide (t < 4) && !engPresent c p t

/-- CONSUME clears the waited local flags, but for those set in the same cycle, `due`; other waits of the cycle still see them set (R144, R147). -/
def consume (p cycle : Nat) (m due : Dword) (c : Ctl) : Ctl :=
  let old := match c.consumed.look p with | some (cy, o) => if cy = cycle then o else 0 | none => 0
  { clearLocal p (m &&& ~~~ due) c with consumed := c.consumed.put p (cycle, old ||| m) }

/-- Whether the loaded pick of a treadle may start: its flags are set, and its treadle and the beat allow it (R144). -/
def startable (c : Ctl) (p t : Nat) : Bool :=
  let x := trAt c p t
  match x.load with
  | some ld => beatAllows c p && prevAllows t x && !x.hollow &&
      (BitVec.ofNat 64 (imgWaitLocal ld.image) &&& ~~~ localFlags c p) == 0 && chipPending c ld.image == 0
  | none => false

/-- Local flags set (R145, R146). A pick that could not start before and can now starts in this very cycle, the first in which all conditions hold (R144); flags it consumes that are set in the cycle stay set (R147; log entry 152). -/
def setLocal (p : Nat) (v : Dword) (c : Ctl) : Ctl :=
  let c1 := orLocal p v c
  forN 6 (fun t c1 =>
    if startable c1 p t && !startable c p t then
      setTr p t (fun x => { x with load := x.load.map (fun ld => { ld with due := v }) }) c1
    else c1) c1

/-- PICK_START (R144): the loaded pick starts when its flags are set and its treadle and beat allow it. DESIGN CHOICE (log entry 153): a COLL or FLAG pick that runs in full while hollow does not wait, and its CONSUME clears nothing (R153). -/
def pickStart (p t cycle : Nat) (c : Ctl) : Ctl :=
  let x := trAt c p t
  match x.load with
  | none => c
  | some ld =>
    let op := imgOp ld.image
    let hollow := x.hollow
    if !beatAllows c p || !prevAllows t x || (hollow && !fullWhenHollow op) then c
    else if !hollow && (localPending c p cycle ld.image != 0 || chipPending c ld.image != 0) then c
    else
      let c := setF (trF R.TR_POS.WORD p t) ld.word (setTr p t (fun x => { x with load := none }) c)
      if engineAbsent c p t then
        takeWord p t ld.word ld.segEnd ld.stepEnd (faultNow p t causeAbsent 0 ld.idx ld.word (imgWaitGrp ld.image) c)
      else
        let c := if imgConsume ld.image && !hollow then consume p cycle (BitVec.ofNat 64 (imgWaitLocal ld.image)) ld.due c else c
        let counts := loopCounts (cntOf c p) ld.image
        let run : Running :=
          { image := ld.image, idx := ld.idx, word := ld.word, segEnd := ld.segEnd, stepEnd := ld.stepEnd, hollow := hollow,
            counts := counts, mTail := cntOf c p (imgMTailCnt ld.image), worked := noWork ld.image counts, lost := false,
            todo := [], waiting := 0, got := [] }
        let c := setTr p t (fun x => { x with runs := x.runs ++ [run] }) c
        let c := tracePick p t evStart ld.idx ld.word cycle c
        takeWord p t ld.word ld.segEnd ld.stepEnd c

/-! ### Completing (R145, R468) -/

/-- The flags of a completed pick are set, or set later under the flag-delay perturbation (R145, R468). -/
def setFlags (p t : Nat) (img : List Word) (c : Ctl) : Ctl :=
  let loc : Dword := BitVec.ofNat 64 (imgSetLocal img)
  let chip : Dword := BitVec.ofNat 64 (imgSetChip img)
  let held := decide (0 < tenF c R.TEN_FLAG.DELAY) && tenCore c p
  let dl := held && tenF c R.TEN_FLAG.LOCAL == 1
  let dc := held && tenF c R.TEN_FLAG.CHIP == 1
  let c := if dl then c else setLocal p loc c
  let c := if dc then c else setChip (imgSetGrp img) chip c
  let l := if dl then loc else 0
  let h := if dc then chip else 0
  if l = 0 ∧ h = 0 then c
  else { c with delayed := c.delayed ++ [⟨p, t, l, imgSetGrp img, h⟩] }

/-- Whether a frame of a COLL pick has not left the device (R293). -/
def framesWait (c : Ctl) (r : Running) : Bool :=
  imgOp r.image == 0x38 && !r.lost &&
    c.waitq.any (fun w => w.frame.hdr.cls == 1 && w.frame.hdr.addr.toNat % 2 ^ 32 == imgW r.image 53)

/-- Whether a started pick is complete: its work done, every piece issued and acknowledged, every frame of a collective gone (R16, R145, R293). -/
def runComplete (c : Ctl) (r : Running) : Bool := r.worked && r.todo.isEmpty && r.waiting == 0 && !framesWait c r

/-- PICK_COMPLETE (R145): the oldest started pick of the treadle, complete in the sense of R16, sets its flags. -/
def pickComplete (p t cycle : Nat) (c : Ctl) : Ctl :=
  let x := trAt c p t
  match x.runs with
  | r :: rest =>
    if !runComplete c r || c.time.inGuard then c
    else
      let c := setTr p t (fun x => { x with runs := rest }) c
      segCheck p t (tracePick p t evComplete r.idx r.word cycle (setFlags p t r.image c))
  | [] => c

/-- HOLLOW_RETIRE (R153): a loaded pick of a hollow treadle, neither COLL nor FLAG, does no work and sets its flags. -/
def hollowRetire (p t cycle : Nat) (c : Ctl) : Ctl :=
  let x := trAt c p t
  match x.load with
  | none => c
  | some ld =>
    if !x.hollow || fullWhenHollow (imgOp ld.image) || !beatAllows c p || !prevAllows t x then c
    else
      let c := setF (trF R.TR_POS.WORD p t) ld.word (setTr p t (fun x => { x with load := none }) c)
      let c := tracePick p t evHollow ld.idx ld.word cycle (setFlags p t ld.image c)
      takeWord p t ld.word ld.segEnd ld.stepEnd c

/-- DELAYED_FLAG_SET (R468): the oldest delayed set of the treadle occurs. -/
def delayedFlagSet (p t : Nat) (c : Ctl) : Ctl :=
  match c.delayed.find? (fun e => e.p == p && e.t == t) with
  | some e => setChip e.grp e.chip (setLocal p e.loc { c with delayed := c.delayed.erase e })
  | none => c

/-- The oldest started pick of treadle t of core p whose work is not done, if it is of opcode op. -/
def curRun (c : Ctl) (p t op : Nat) : Option Running :=
  match (trAt c p t).runs.find? (fun r => !r.worked) with
  | some r => if imgOp r.image == op then some r else none
  | none => none

/-- That started pick changed. -/
def updRun (p t : Nat) (f : Running → Running) (c : Ctl) : Ctl :=
  setTr p t (fun x => { x with runs := go x.runs }) c
where
  go : List Running → List Running
    | [] => []
    | r :: rs => if r.worked then r :: go rs else f r :: rs

/-- One wait of the oldest pick of the treadle that waits is over (R16). -/
def waitDone (p t : Nat) (c : Ctl) : Ctl :=
  setTr p t (fun x => { x with runs := go x.runs }) c
where
  go : List Running → List Running
    | [] => []
    | r :: rs => if r.waiting = 0 then r :: go rs else { r with waiting := r.waiting - 1 } :: rs

/-- Whether the end of an access is waited for by the pick of treadle t of core p. -/
def HeldFor.ofPick (p t : Nat) : HeldFor → Bool
  | .pick q u => q == p && u == t
  | .piece q _ => q == p && t == 5
  | .remote _ _ _ | .porthole _ | .nobody => false

/-- What a stopped pick's write completes: nobody. -/
def heldWithout (p t : Nat) (w : HeldFor) : HeldFor := if w.ofPick p t then .nobody else w

/-- What the response to a request of a stopped pick completes: nothing; data that it still reads goes nowhere. -/
def contWithout (p t : Nat) (k : Cont) : Cont :=
  match k with
  | .moveRead w dst add => if w.ofPick p t then .none else .moveRead w dst add
  | .write w => .write (heldWithout p t w)
  | .gather q i => if q = p ∧ t = 5 then .none else .gather q i
  | .portRead n => .portRead n
  | .none => .none

/-- A stopped treadle waits for nothing any more. -/
def detach (p t : Nat) (c : Ctl) : Ctl :=
  let held := c.slu.held.map (fun (h : HeldWrite) => { h with who := heldWithout p t h.who })
  let reqs := c.reqs.map (fun (x : Nat × Req) => (x.1, { x.2 with cont := contWithout p t x.2.cont }))
  { c with slu := { c.slu with held := held }, reqs := reqs }

/-- Its work is done. -/
def workDone (p t : Nat) (c : Ctl) : Ctl := updRun p t (fun r => { r with worked := true }) c

/-- The pick stops at an absent unit: its flags are not set, its treadle records ABSENT (R151). -/
def stopAbsent (p t : Nat) (r : Running) (c : Ctl) : Ctl :=
  let c := setTr p t (fun x => { x with runs := x.runs.erase r }) c
  segCheck p t (faultNow p t causeAbsent 0 r.idx r.word (imgWaitGrp r.image) c)

/-- NOP (R131): a started NOP has no work. -/
def nopWork (p t : Nat) (c : Ctl) : Ctl :=
  match curRun c p t 0x00 with
  | some _ => workDone p t c
  | none => c

/-! ### Segments (R19 step 5, R142) -/

/-- The lists of a step that opens: each treadle starts at its list's first word (R142). -/
def openLists (kind : Nat) (c : Ctl) : Ctl :=
  (servingCores c).foldl (fun c p => forN 6 (fun t c =>
    let o := listOff c p t kind
    let c := putTr p t { Treadle.idle with active := o.isSome, off := o.getD 0 } c
    setF (trF R.TR_POS.WORD p t) 0 (setF (trF R.TR_POS.SEGMENT p t) 0 (setF (trF R.TR_POS.KIND p t) kind c))) c) c

/-- Treadle t of core p starts its segment of the new beat, if it has one (R19 step 5). -/
def startSegment (p t : Nat) (c : Ctl) : Ctl :=
  let x := trAt c p t
  if !x.active || x.ended || quiesced c p then
    putTr p t { x with stopped := false, closed := true, done := true, early := false, hollow := false } c
  else
    let c := setF (trF R.TR_POS.SEGMENT p t) c.step.beat c
    let c := putTr p t { x with stopped := false, closed := x.pre, done := false, taken := x.early && x.load.isNone, pre := false, early := false, hollow := c.step.failed } c
    if 0 < x.emptyLeft then runEmpty p t c else segCheck p t (settle p t c)

/-- Every treadle starts its segment (R19 step 5). -/
def startSegments (c : Ctl) : Ctl := (servingCores c).foldl (fun c p => forN 6 (startSegment p) c) { c with consumed := [] }

/-- Every treadle idle, its list gone. -/
def idleTreadles (c : Ctl) : Ctl :=
  (List.range 72).foldl (fun c p => forN 6 (fun t c =>
    if c.treadles.has (6 * p + t) then putTr p t Treadle.idle c else c) c) c

/-! ### The guard (R16, R153, R155) -/

/-- Whether a treadle has work of its segment left at the guard. -/
def incomplete (x : Treadle) : Bool := x.active && !x.done && (!x.closed || x.load.isSome || !x.runs.isEmpty)

/-- The next list word of a treadle, and the treadle once it is taken (R143). -/
def nextWord (m : Store) (p : Nat) (x : Treadle) : Option (Word × Treadle) :=
  match x.ahead with
  | w :: rest => some (w, { x with ahead := rest })
  | [] =>
    let a := x.off + 4 * x.next
    if coreBytes ≤ a then none
    else some (BitVec.ofNat 32 (leNat (readBytes m (coreKey p + a) 4)), { x with next := x.next + 1 })

/-- A pick that the guard finds in a hollow treadle: it sets its flags, but for COLL and FLAG picks, which do not start in the guard and are stopped (R16, R153). DESIGN CHOICE (log entry 168). -/
def guardPick (p t idx word cycle : Nat) (img : List Word) (c : Ctl) : Ctl :=
  if fullWhenHollow (imgOp img) then tracePick p t evStopped idx word cycle c
  else tracePick p t evHollow idx word cycle (setFlags p t img c)

/-- The rest of a stopped treadle's segment retires hollow (R16, R153). -/
def skipRest (p t cycle : Nat) : Nat → Dev → Dev
  | 0, d => d
  | fuel + 1, d =>
    let x := trAt d.c p t
    if x.closed || x.ended then d
    else
      match nextWord d.m p x with
      | none => onCtl (putTr p t { x with ended := true, closed := true }) d
      | some (w, x') =>
        if wordEmpty w then
          onCtl (fun c => settle p t (putTr p t { x' with ahead := w :: x'.ahead } c)) d
        else
          let c := putTr p t { x' with taken := true, closed := wordSegEnd w || wordStepEnd w, ended := wordStepEnd w } d.c
          skipRest p t cycle fuel { d with c := guardPick p t (wordIndex w) (headIdx x' - 1) cycle (pickImage d.m p (wordIndex w)) c }

/-- What a treadle was doing in the first cycle of the guard (R155), with the pick, its word and the flags still clear. -/
def overrunFault (m : Store) (c : Ctl) (p : Nat) (x : Treadle) : TrFault :=
  match x.runs, x.load with
  | r :: _, _ => { cause := causeOverrun, reason := 0x04, pick := r.idx, word := r.word, wgrp := imgWaitGrp r.image, wloc := 0, wchip := 0 }
  | [], some ld =>
    let wl := BitVec.ofNat 64 (imgWaitLocal ld.image) &&& ~~~ localFlags c p
    let wc := chipPending c ld.image
    { cause := causeOverrun, reason := if wc = 0 then 0x02 else 0x03, pick := ld.idx, word := ld.word,
      wgrp := imgWaitGrp ld.image, wloc := wl, wchip := wc }
  | [], none =>
    let w : Word := match x.ahead with
      | w :: _ => w
      | [] => BitVec.ofNat 32 (leNat (readBytes m (coreKey p + x.off + 4 * x.next) 4))
    { cause := causeOverrun, reason := 0x01, pick := wordIndex w, word := headIdx x, wgrp := imgWaitGrp (pickImage m p (wordIndex w)),
      wloc := 0, wchip := 0 }

/-- The most list words a core store holds. -/
def listMax : Nat := 0x180000

/-- Whether nothing is left of a treadle's segment but a word that names no pick. A core that waits for a program copy does not know its words (R141, R425). -/
def onlyEmpty (m : Store) (c : Ctl) (p : Nat) (x : Treadle) : Bool :=
  x.load.isNone && x.runs.isEmpty && !c.copying.contains p && ((nextWord m p x).map (fun w => wordEmpty w.1)).getD false

/-- The picks that the guard stops: every one that has started, the one that is loaded, and the one that is being loaded where there is no other (R16, R476). They set no flags. DESIGN CHOICE (log entry 168). -/
def stopPicks (p t cycle : Nat) (x : Treadle) (d : Dev) : Dev :=
  let c := x.runs.foldl (fun c r => tracePick p t evStopped r.idx r.word cycle c) d.c
  match x.load with
  | some l =>
    let c := setTr p t (fun y => { y with taken := true, closed := l.segEnd || l.stepEnd, ended := l.stepEnd || y.ended }) c
    { d with c := if x.hollow then guardPick p t l.idx l.word cycle l.image c else tracePick p t evStopped l.idx l.word cycle c }
  | none =>
    if x.hollow || !x.runs.isEmpty then { d with c := c }
    else
      match nextWord d.m p x with
      | some (w, x') =>
        let c := setTr p t (fun y => { y with ahead := x'.ahead, next := x'.next, taken := true, closed := wordSegEnd w || wordStepEnd w, ended := wordStepEnd w }) c
        { d with c := tracePick p t evStopped (wordIndex w) (headIdx x' - 1) cycle c }
      | none => { d with c := c }

/-- A treadle with an incomplete pick at the guard is stopped: BEAT_OVERRUN unless every pick left is hollow and none runs (R16, R153, R155). `c0` is the device in the guard's first cycle: what it says of the treadle's wait is recorded, and whether the failed state had begun before this guard. -/
def stopTreadle (c0 : Ctl) (p t cycle : Nat) (d : Dev) : Dev :=
  let x := trAt d.c p t
  if !incomplete x then d
  else
    let empty := onlyEmpty d.m d.c p x
    let f := overrunFault d.m c0 p x
    let d := { d with c := putTr p t { x with runs := [], load := none, stopped := !empty } (detach p t d.c) }
    let d := if empty then d else stopPicks p t cycle x d
    let d := if (!x.hollow || !x.runs.isEmpty) && !empty then
        onCtl (fun c => setB R.BEAT_STATUS.OVERRUN true (treadleFault (!c0.step.failed) p t f c)) d
      else d
    onCtl (setTr p t (fun y => { y with done := true })) (skipRest p t cycle listMax d)

/-- The treadles of every core at the first cycle of the guard (R16). -/
def guardTreadles (cycle : Nat) (d : Dev) : Dev :=
  (servingCores d.c).foldl (fun d' p => forN 6 (fun t d' => stopTreadle d.c p t cycle d') d') d

/-! ### Commands -/

/-- A change that acts on an existing treadle only: 72 physical cores of six treadles (R12, R131). -/
def atTreadle {α : Type} (p t : Nat) (f : α → α) (a : α) : α := if p < 72 ∧ t < 6 then f a else a

/-- LIST_WORD_FETCH. -/
def execListWordFetch (p t : Nat) (s : State) : Host.Outcome State Fault Refusal := runDev (atTreadle p t (listWordFetch p t)) s

/-- PICK_LOAD. -/
def execPickLoad (p t : Nat) (s : State) (cycle : Nat := 0) : Host.Outcome State Fault Refusal := runDev (atTreadle p t (pickLoad p t cycle)) s

/-- PICK_START. -/
def execPickStart (p t cycle : Nat) (s : State) : Host.Outcome State Fault Refusal := runCtl (atTreadle p t (pickStart p t cycle)) s

/-- HOLLOW_RETIRE. -/
def execHollowRetire (p t : Nat) (s : State) (cycle : Nat := 0) : Host.Outcome State Fault Refusal := runCtl (atTreadle p t (hollowRetire p t cycle)) s

/-- NOP. -/
def execNop (p t : Nat) (s : State) : Host.Outcome State Fault Refusal := runCtl (atTreadle p t (nopWork p t)) s

/-- PICK_COMPLETE. -/
def execPickComplete (p t : Nat) (s : State) (cycle : Nat := 0) : Host.Outcome State Fault Refusal := runCtl (atTreadle p t (pickComplete p t cycle)) s

/-- DELAYED_FLAG_SET. -/
def execDelayedFlagSet (p t : Nat) (s : State) : Host.Outcome State Fault Refusal := runCtl (atTreadle p t (delayedFlagSet p t)) s

end Sys2Proof.Machine
end

