-- ==== Sys2Proof/Machine/CheckVal.lean ====
section
/-! DEFINITION. The general check-value units in register use (R247 to R250, R280 to R283). -/

namespace Sys2Proof.Machine

/-- The field of general unit u. -/
def cvF (f : Fld) (u : Nat) : Fld := idxF f 0x100 u

/-- Unit u acts while it is READY (R444). -/
def whenUnit (u : Nat) (f : Ctl → Ctl) (c : Ctl) : Ctl := if u < 16 ∧ mainReady c (48 + u) then f c else c

/-- The finished value of unit u (R249, R282). -/
def cvResult (c : Ctl) (u : Nat) : Nat := crcResult (getF c (cvF R.CV_CFG.POLY u)) (getF c (cvF R.CV_STATE.STATE u))

/-- Bytes fed to a unit, in order (R248). -/
def cvFeed (u : Nat) (bs : List Byte) (c : Ctl) : Ctl :=
  incF (cvF R.CV_COUNT.BYTES u) bs.length
    (setF (cvF R.CV_STATE.STATE u) (crcFeedAll (getF c (cvF R.CV_CFG.POLY u)) (getF c (cvF R.CV_STATE.STATE u)) bs) c)

/-- A write of a DATA register: n bytes, low byte first; ignored by a unit that belongs to the tailrace (R248, R250). -/
def cvData (u n : Nat) (v : Word) (c : Ctl) : Ctl := if getB c (cvF R.CV_CFG.OWNER u) then c else cvFeed u (leBytes n v.toNat) c

/-- CV_STATE written: the running state, in the width of the function (R249, R282). -/
def cvState (u : Nat) (v : Dword) (c : Ctl) : Ctl := setF (cvF R.CV_STATE.STATE u) (v.toNat % 2 ^ crcWidth (getF c (cvF R.CV_CFG.POLY u))) c

/-- CV_CFG written: the function and owner, the initial state, a cleared count (R249, R280). -/
def cvCfg (u : Nat) (v : Word) (c : Ctl) : Ctl :=
  let poly := v.toNat % 4
  setF (cvF R.CV_COUNT.BYTES u) 0 (setF (cvF R.CV_STATE.STATE u) (crcInit poly)
    (setF (cvF R.CV_CFG.OWNER u) (v.toNat / 4 % 2) (setF (cvF R.CV_CFG.POLY u) poly c)))

/-- CV_EXPECT written: MATCH or MISMATCH, and the other clear (R250, R283). -/
def cvExpect (u : Nat) (v : Dword) (c : Ctl) : Ctl :=
  let eq := v.toNat == cvResult c u
  setB (cvF R.CV_STATUS.MISMATCH u) (!eq) (setB (cvF R.CV_STATUS.MATCH u) eq c)

/-- CV_DATA8. -/
def execCvData8 (u : Nat) (v : Word) (s : State) : Host.Outcome State Fault Refusal := runCtl (whenUnit u (cvData u 1 v)) s

/-- CV_DATA16. -/
def execCvData16 (u : Nat) (v : Word) (s : State) : Host.Outcome State Fault Refusal := runCtl (whenUnit u (cvData u 2 v)) s

/-- CV_DATA32. -/
def execCvData32 (u : Nat) (v : Word) (s : State) : Host.Outcome State Fault Refusal := runCtl (whenUnit u (cvData u 4 v)) s

/-- CV_STATE_WRITE. -/
def execCvStateWrite (u : Nat) (v : Dword) (s : State) : Host.Outcome State Fault Refusal := runCtl (whenUnit u (cvState u v)) s

/-- CV_CFG_WRITE. -/
def execCvCfgWrite (u : Nat) (v : Word) (s : State) : Host.Outcome State Fault Refusal := runCtl (whenUnit u (cvCfg u v)) s

/-- CV_EXPECT. -/
def execCvExpect (u : Nat) (v : Dword) (s : State) : Host.Outcome State Fault Refusal := runCtl (whenUnit u (cvExpect u v)) s

end Sys2Proof.Machine
end

