-- ==== Sys2Proof/Machine/RegMask.lean ====
section
/-! DEFINITION. Accesses to register words: which register an offset belongs to, the width and alignment test (R9), and a write by the access column of the field tables (R8). -/

namespace Sys2Proof.Machine

/-- What is left of a distance after the instance dimensions of a register: the byte within the instance. -/
def dimsRest : List (Nat × Nat) → Nat → Option Nat
  | [], d => some d
  | (stride, count) :: ds, d => if d / stride < count then dimsRest ds (d % stride) else none

/-- Whether byte `off` lies in an instance of a register, and where that instance starts. -/
def rowCovers (r : RegRow) (off : Nat) : Option Nat :=
  if r.base ≤ off then
    match dimsRest r.dims (off - r.base) with
    | some d => if d < r.bytes then some (off - d) else none
    | none => none
  else none

/-- Whether a register instance covers byte `off`. -/
def regCovered (off : Nat) : Bool := regRows.any (fun r => (rowCovers r off).isSome)

/-- Whether a register instance of a width begins at an offset. -/
def regFits (off width : Nat) : Bool := regRows.any (fun r => r.bytes == width && rowCovers r off == some off)

/-- Whether an offset lies in the MSI-X table or the pending-bit array, which take word and double-word accesses (log entry 4). -/
def msixArea (off : Nat) : Bool := (0x1000 ≤ off && off < 0x1400) || (0x2000 ≤ off && off < 0x2008)

/-- The width and alignment test of an access in the register space (R9). Where FAN_TEMP and FAN_HEAT share offsets the width tells them apart (R410, R411; log entry 119). -/
def regTest (off width : Nat) : Bool :=
  (width == 4 || width == 8) && off % width == 0 && (msixArea off || regFits off width || !regCovered off)

/-- A write by the access column: RW fields take the value, W1C fields are cleared where it holds 1, the rest stays (R8). -/
def maskWrite (off : Nat) (v : Dword) (c : Ctl) : Ctl :=
  match regRowAt off with
  | some r =>
    let w := getReg c off
    let rw := BitVec.ofNat 64 r.rw
    let clr := BitVec.ofNat 64 r.w1c &&& v
    setReg off ((w &&& ~~~ rw &&& ~~~ clr) ||| (v &&& rw)) c
  | none => c

/-- An access of the wrong width or alignment: a write raises a PROGRAM event (R9, R455). -/
def regTestFailed (off : Nat) (c : Ctl) : Ctl := raise evProgram 0x10 srcDevice (0x80000000000 + off) c

end Sys2Proof.Machine
end

