-- ==== Sys2Proof/Machine/Control.lean ====
section
/-! DEFINITION. Registers of the sequencer, the beat, the vote and recovery that act when they are written (R17, R31, R137, R166, R299, R338). -/

namespace Sys2Proof.Machine

/-- SEQ_CNTn of physical core p written by software: while a step is OPEN it is ignored, with TR_STATE.REFUSED of TS and a PROGRAM event (R137). -/
def cntWrite (p n : Nat) (v : Word) (c : Ctl) : Ctl :=
  if stepOpen c then raise evProgram 0x13 (srcTreadle p 5) 0 (setB (trF R.TR_STATE.REFUSED p 5) true c)
  else setF (coreF (idxF R.SEQ_CNT.COUNT 4 n) p) v.toNat c

/-- BEAT_STRETCH written: a request in the guard is for the beat after the next (R17, R31). -/
def stretchWrite (v : Word) (c : Ctl) : Ctl :=
  let c := setF R.BEAT_STRETCH.REQ v.toNat c
  if c.time.inGuard && decide (0 < v.toNat % 32) then setB R.BEAT_STATUS.LATE_STRETCH true { c with time := { c.time with reqLate := true } } else c

/-- The host's stretch request: values above 16 act as 16 (R31). -/
def hostStretch (c : Ctl) : Nat := min 16 (getF c R.BEAT_STRETCH.REQ)

/-- VOTE_CFG written: POLICY only while no step is OPEN (R299). -/
def voteCfg (v : Word) (c : Ctl) : Ctl :=
  let pol := getF c R.VOTE_CFG.POLICY
  let c' := maskWrite R.VOTE_CFG.adr (v.setWidth 64) c
  if stepOpen c then setF R.VOTE_CFG.POLICY pol c' else c'

/-- Whether ARM is heeded: in the halted state, or after a restore by RST_CTRL.GO before the first step; not after such a restore has failed (R338, R342, R373). -/
def armHeeded (c : Ctl) : Bool :=
  match c.snap.go with
  | some ok => ok && (getF c R.REC_STATE.STATE == 3 || !c.step.opened)
  | none => getF c R.REC_STATE.STATE == 3

/-- REC_CTRL.ARM: recovery starts at beat REC_AT; a beat that has passed is late (R338). -/
def recArm (c : Ctl) : Ctl :=
  if !armHeeded c then c
  else if getF c R.REC_AT.BEAT ≤ getF c R.BEAT_NOW.BEAT then setB R.REC_STATUS.ARM_LATE true c
  else { c with ret := { c.ret with armed := some (getF c R.REC_AT.BEAT) } }

/-- A core's block is reachable while the core is READY (R428, R445). -/
def whenCore (p : Nat) (f : Ctl → Ctl) (c : Ctl) : Ctl := if coreReady c p then f c else c

/-- SEQ_CNT_WRITE. -/
def execSeqCntWrite (p n : Nat) (v : Word) (s : State) : Host.Outcome State Fault Refusal :=
  runCtl (whenCore p (fun c => if n < 32 then cntWrite p n v c else c)) s

/-- SEQ_LFLAG_SET. -/
def execSeqLflagSet (p : Nat) (v : Dword) (s : State) : Host.Outcome State Fault Refusal := runCtl (whenCore p (setLocal p v)) s

/-- SEQ_LFLAG_CLR. -/
def execSeqLflagClr (p : Nat) (v : Dword) (s : State) : Host.Outcome State Fault Refusal := runCtl (whenCore p (clearLocal p v)) s

/-- BEAT_STRETCH_REQ, while the timebase is READY. -/
def execBeatStretchReq (v : Word) (s : State) : Host.Outcome State Fault Refusal := runCtl (whenReady 4 (stretchWrite v)) s

/-- VOTE_CFG_WRITE. -/
def execVoteCfgWrite (v : Word) (s : State) : Host.Outcome State Fault Refusal := runCtl (voteCfg v) s

/-- REC_CTRL_ARM. -/
def execRecCtrlArm (s : State) : Host.Outcome State Fault Refusal := runCtl recArm s

end Sys2Proof.Machine
end

