-- ==== Sys2Proof/Machine/Place.lean ====
section
/-! DEFINITION. The placement function (R302), homes and offsets (R301, R303), the mirror list (R304), and the roster version as it advances (R305, R306). -/

namespace Sys2Proof.Machine

/-- place_hash (R302). -/
def placeHash (salt key cand : Nat) : Nat :=
  let x := (salt ^^^ (key * 2 ^ 32) ^^^ cand) % 2 ^ 64
  let x := x ^^^ (x / 2 ^ 30)
  let x := x * 0xA3C59E1742D86B0F % 2 ^ 64
  let x := x ^^^ (x / 2 ^ 27)
  let x := x * 0x5B1EF2C497A30D65 % 2 ^ 64
  x ^^^ (x / 2 ^ 31)

/-- The WORKER entries of a weave section, in ascending seat (R284). -/
def workers (w : Weave) : List Member :=
  sortBy (fun a b => a.num ≤ b.num) (w.members.filter (fun m => !m.endpoint && !m.spare))

/-- The first of the candidates with the largest hash. -/
def bestOf : List (Nat × Nat) → Option (Nat × Nat)
  | [] => none
  | x :: xs => some (xs.foldl (fun b y => if b.2 < y.2 then y else b) x)

/-- Home seat of shard k (R301, R302). -/
def shardHome (w : Weave) (k : Nat) (e : ShardEnt) : Nat :=
  if !w.broad then e.home
  else
    let key := if e.aff ≠ 0 then e.aff else 0x10000 + k
    let cands := ((workers w).filter (fun m => m.num != 0xFFFF)).flatMap (fun m =>
      (List.range m.cap).map (fun t => (m.num, placeHash w.salt key (m.num * 16 + t))))
    ((bestOf cands).map (·.1)).getD 0

/-- Homes of all shards, in order. -/
def shardHomes (w : Weave) : List (Nat × ShardEnt) :=
  ((List.range w.shards.length).zip w.shards).map (fun x => (shardHome w x.1 x.2, x.2))

/-- Offsets of shard k in WEIGHTS and OPTIM at its home, in lines (R301). -/
def shardOffsets (w : Weave) (k : Nat) : Nat × Nat :=
  match (shardHomes w)[k]? with
  | none => (0, 0)
  | some (h, _) => ((shardHomes w).take k).foldl (fun o x => if x.1 = h then (o.1 + x.2.wLines, o.2 + x.2.oLines) else o) (0, 0)

/-- The list L of R304. -/
def mirrorList (w : Weave) : List Nat :=
  (sortBy (fun a b => a.fgroup < b.fgroup || (a.fgroup == b.fgroup && a.num ≤ b.num)) (workers w)).map (·.num)

/-- The largest number of seats in one failure group (R304). -/
def mirrorM (w : Weave) : Nat :=
  let ws := workers w
  ws.foldl (fun n m => max n (ws.filter (fun x => x.fgroup == m.fgroup)).length) 0

/-- The seat whose device mirrors seat s (R304). -/
def holderOf (w : Weave) (s : Nat) : Nat :=
  let l := mirrorList w
  l.getD ((l.findIdx (· == s) + mirrorM w) % max 1 l.length) 0

/-- The seat whose shard the device of seat s mirrors (R304). -/
def mirroredBy (w : Weave) (s : Nat) : Nat :=
  let l := mirrorList w
  l.getD ((l.findIdx (· == s) + l.length - mirrorM w) % max 1 l.length) 0

/-- PLACE_SELF after a change of who serves what (R310). -/
def placeSelf (c : Ctl) : Ctl :=
  match c.job with
  | none => setReg R.PLACE_SELF.adr 0 c
  | some j =>
    let spare := match (c.place.me.bind (member c)) with
      | some m => !m.endpoint && m.spare
      | none => false
    match mySeat c with
    | some s =>
      setB R.PLACE_SELF.SPARE spare (setB R.PLACE_SELF.SERVING true (setF R.PLACE_SELF.HOLDER (holderOf j.weave s)
        (setF R.PLACE_SELF.MIRRORS (mirroredBy j.weave s) (setF R.PLACE_SELF.SEAT s c))))
    | none => setB R.PLACE_SELF.SPARE spare (setReg R.PLACE_SELF.adr 0 c)

/-- The roster as a draft gives it: seat n served by device n (R284). -/
def placeLoad (w : Weave) (me : Nat) (c : Ctl) : Ctl :=
  let seats := (workers w).map (·.num)
  let c := { c with place := { me := some me, serving := seats.foldl (fun t s => t.put s s) [], failed := [], prevVer := none, selfBeat := getF c R.BEAT_NOW.BEAT } }
  let c := setF R.PLACE_STATUS.ROSTER_VER w.ver (setF R.PLACE_STATUS.SEATS seats.length (setB R.PLACE_STATUS.BROAD w.broad c))
  setB R.PLACE_STATUS.NO_SPARE false c

/-! ### The time tree (R258) -/

/-- Live members in ascending number (R258). -/
def liveMembers (c : Ctl) : List Nat :=
  sortBy (· ≤ ·) (((members c).map (·.num)).filter (fun n => !c.place.failed.contains n))

/-- Position of a member in the tree. -/
def treePos (c : Ctl) (n : Nat) : Option Nat := rankIn (liveMembers c) n
where
  rankIn (l : List Nat) (n : Nat) : Option Nat := if l.contains n then some (l.findIdx (· == n)) else none

/-- Own position. -/
def myPos (c : Ctl) : Option Nat := c.place.me.bind (treePos c)

/-- The parent, none at the root. -/
def treeParent (c : Ctl) : Option Nat :=
  match myPos c with
  | some i => if i = 0 then none else (liveMembers c)[(i - 1) / 64]?
  | none => none

/-- The children, in ascending number. -/
def treeChildren (c : Ctl) : List Nat :=
  match myPos c with
  | some i => ((liveMembers c).drop (64 * i + 1)).take 64
  | none => []

/-- Whether this device is the root. -/
def isRoot (c : Ctl) : Bool := myPos c == some 0

/-- Depth of the tree for a number of members (R258). -/
def treeDepth (n : Nat) : Nat := if n ≤ 65 then 1 else if n ≤ 4161 then 2 else 3

/-- Depth of a position (R258). -/
def posDepth (i : Nat) : Nat := if i = 0 then 0 else if i ≤ 64 then 1 else if i ≤ 4160 then 2 else 3

/-! ### The version advances (R305, R306) -/

/-- FGROUP of the device that now serves seat s, else of the seat's own entry (R305). -/
def servingGroup (c : Ctl) (s : Nat) : Nat :=
  ((member c ((c.place.serving.look s).getD s)).map (·.fgroup)).getD 0

/-- The spare that is substituted for seat s (R305). -/
def spareSubst (c : Ctl) (w : Weave) (s : Nat) : Option Nat :=
  let cap := ((member c s).map (·.cap)).getD 0
  let bad := [servingGroup c (holderOf w s), servingGroup c (mirroredBy w s)]
  let cands := sortBy (fun a b => a.num ≤ b.num) (w.members.filter (fun m => !m.endpoint && m.spare && !c.place.failed.contains m.num &&
    !(c.place.serving.any (fun e => e.2 == m.num)) && decide (cap ≤ m.cap) && !bad.contains m.fgroup))
  (bestOf (cands.map (fun m => (m.num, placeHash w.salt (0x20000 + s) m.num)))).map (·.1)

/-- The roster version advances: x is failed, and a spare serves the seat it served (R305, R306). The second result says whether it served one. -/
def rosterAdvance (x : Nat) (c : Ctl) : Ctl × Bool :=
  match c.job with
  | none => (c, false)
  | some j =>
    let v := getF c R.PLACE_STATUS.ROSTER_VER
    let seat := (c.place.serving.find? (fun e => e.2 == x)).map (·.1)
    let c := { c with place := { c.place with failed := x :: c.place.failed, prevVer := some v },
                      time := { c.time with lost := c.time.lost.filter (· != x) } }
    let c := setF R.PLACE_STATUS.ROSTER_VER (v + 1) c
    match seat with
    | none => (c, false)
    | some s =>
      let c := { c with place := { c.place with serving := c.place.serving.del s } }
      match spareSubst c j.weave s with
      | some y => (placeSelf { c with place := { c.place with serving := c.place.serving.put s y } }, true)
      | none => (placeSelf (raiseLinkPeer 0x0E srcDevice x 0 (setB R.PLACE_STATUS.NO_SPARE true c)), true)

/-- A member that an advance has made the root: its timebase is job time, so that it is aligned and has no offset (R32, R257, R258). -/
def rootTaken (was : Bool) (c : Ctl) : Ctl :=
  if isRoot c && !was then setB R.BEAT_STATUS.ALIGNED true (setF R.BEAT_STATUS.OFFSET_NS 0 { c with time := { c.time with corr := 0 } }) else c

end Sys2Proof.Machine
end

