-- ==== Sys2Proof/Machine/Crypto.lean ====
section
/-! DEFINITION. SHA-512 (FIPS 180-4) and Ed25519 (RFC 8032), the standards that R251, R365, R413 and R435 name.
PRESUMED: the standards' texts are not in the spec; log entry 7. -/

namespace Sys2Proof.Machine

/-- Integer square root by bisection of the bits from `k` down: the largest r, built on `acc`, whose square is at most n. -/
def sqrtBits (n : Nat) : Nat → Nat → Nat
  | 0, acc => acc
  | k + 1, acc =>
    let t := acc + 2 ^ k
    sqrtBits n k (if t * t ≤ n then t else acc)

/-- Integer cube root, the same way. -/
def cbrtBits (n : Nat) : Nat → Nat → Nat
  | 0, acc => acc
  | k + 1, acc =>
    let t := acc + 2 ^ k
    cbrtBits n k (if t * t * t ≤ n then t else acc)

/-- The first eighty primes. -/
def shaPrimes : List Nat :=
  [2, 3, 5, 7, 11, 13, 17, 19, 23, 29, 31, 37, 41, 43, 47, 53, 59, 61, 67, 71] ++
  [73, 79, 83, 89, 97, 101, 103, 107, 109, 113, 127, 131, 137, 139, 149, 151, 157, 163, 167, 173] ++
  [179, 181, 191, 193, 197, 199, 211, 223, 227, 229, 233, 239, 241, 251, 257, 263, 269, 271, 277, 281] ++
  [283, 293, 307, 311, 313, 317, 331, 337, 347, 349, 353, 359, 367, 373, 379, 383, 389, 397, 401, 409]

/-- SHA-512 round constants: the first 64 fraction bits of the cube roots of the first eighty primes. -/
def shaK : List Nat := shaPrimes.map (fun p => cbrtBits (p * 2 ^ 192) 68 0 % 2 ^ 64)

/-- SHA-512 initial state: the first 64 fraction bits of the square roots of the first eight primes. -/
def shaH0 : List Nat := (shaPrimes.take 8).map (fun p => sqrtBits (p * 2 ^ 128) 69 0 % 2 ^ 64)

/-- Rotation right of a double-word. -/
def rotr64 (n x : Nat) : Nat := (x / 2 ^ n) ||| (x * 2 ^ (64 - n) % 2 ^ 64)

/-- The message schedule: `w` holds the last sixteen words, newest first. -/
def shaSchedule : Nat → List Nat → List Nat → List Nat
  | 0, _, out => out.reverse
  | k + 1, w, out =>
    let w15 := w.getD 14 0
    let w2 := w.getD 1 0
    let s0 := (rotr64 1 w15) ^^^ (rotr64 8 w15) ^^^ (w15 / 2 ^ 7)
    let s1 := (rotr64 19 w2) ^^^ (rotr64 61 w2) ^^^ (w2 / 2 ^ 6)
    let x := (w.getD 15 0 + s0 + w.getD 6 0 + s1) % 2 ^ 64
    shaSchedule k (x :: w.take 15) (x :: out)

/-- The eight working words. -/
structure ShaState where
  a : Nat
  b : Nat
  c : Nat
  d : Nat
  e : Nat
  f : Nat
  g : Nat
  h : Nat
  deriving DecidableEq, Repr

/-- One round. -/
def shaRound (s : ShaState) (kw : Nat) : ShaState :=
  let s1 := (rotr64 14 s.e) ^^^ (rotr64 18 s.e) ^^^ (rotr64 41 s.e)
  let ch := (s.e &&& s.f) ^^^ ((2 ^ 64 - 1 - s.e) &&& s.g)
  let t1 := s.h + s1 + ch + kw
  let s0 := (rotr64 28 s.a) ^^^ (rotr64 34 s.a) ^^^ (rotr64 39 s.a)
  let mj := (s.a &&& s.b) ^^^ (s.a &&& s.c) ^^^ (s.b &&& s.c)
  ⟨(t1 + s0 + mj) % 2 ^ 64, s.a, s.b, s.c, (s.d + t1) % 2 ^ 64, s.e, s.f, s.g⟩

/-- The rounds over constants and schedule words. -/
def shaRounds : ShaState → List Nat → ShaState
  | s, [] => s
  | s, x :: xs => shaRounds (shaRound s x) xs

/-- The state after one block of sixteen words. -/
def shaBlock (s : ShaState) (ws : List Nat) : ShaState :=
  let sched := ws ++ shaSchedule 64 ws.reverse []
  let t := shaRounds s (List.zipWith (fun k w => k + w) shaK sched)
  ⟨(s.a + t.a) % 2 ^ 64, (s.b + t.b) % 2 ^ 64, (s.c + t.c) % 2 ^ 64, (s.d + t.d) % 2 ^ 64,
   (s.e + t.e) % 2 ^ 64, (s.f + t.f) % 2 ^ 64, (s.g + t.g) % 2 ^ 64, (s.h + t.h) % 2 ^ 64⟩

/-- The first `n` groups of `k` items. -/
def chunksOf {α : Type} (k : Nat) : Nat → List α → List (List α)
  | 0, _ => []
  | n + 1, l => l.take k :: chunksOf k n (l.drop k)

/-- The blocks of a message in turn. -/
def shaBlocks : ShaState → List (List Byte) → ShaState
  | s, [] => s
  | s, b :: bs => shaBlocks (shaBlock s ((chunksOf 8 16 b).map beNat)) bs

/-- The message padded to whole blocks of 128 bytes. -/
def shaPad (m : List Byte) : List Byte :=
  let n := m.length
  let z := (239 - n % 128) % 128
  m ++ (0x80 :: List.replicate z 0) ++ beBytes 16 (8 * n)

/-- SHA-512 of a message, 64 bytes. -/
def sha512 (m : List Byte) : List Byte :=
  let p := shaPad m
  let i := shaH0
  let s := shaBlocks ⟨i.getD 0 0, i.getD 1 0, i.getD 2 0, i.getD 3 0, i.getD 4 0, i.getD 5 0, i.getD 6 0, i.getD 7 0⟩
    (chunksOf 128 (p.length / 128) p)
  beBytes 8 s.a ++ beBytes 8 s.b ++ beBytes 8 s.c ++ beBytes 8 s.d ++
    beBytes 8 s.e ++ beBytes 8 s.f ++ beBytes 8 s.g ++ beBytes 8 s.h

/-- The field prime of Ed25519. -/
def edP : Nat := 2 ^ 255 - 19

/-- The group order of Ed25519. -/
def edL : Nat := 2 ^ 252 + 27742317777372353535851937790883648493

/-- Modular power, `fuel` bits of exponent from the lowest. -/
def powMod (p : Nat) : Nat → Nat → Nat → Nat
  | 0, _, _ => 1 % p
  | fuel + 1, b, e =>
    let r := powMod p fuel (b * b % p) (e / 2)
    if e % 2 = 1 then b * r % p else r

/-- Inverse modulo the field prime. -/
def edInv (x : Nat) : Nat := powMod edP 256 x (edP - 2)

/-- The curve constant d = -121665/121666. -/
def edD : Nat := (edP - 121665) * edInv 121666 % edP

/-- A square root of -1. -/
def edSqrtM1 : Nat := powMod edP 256 2 ((edP - 1) / 4)

/-- A point in extended coordinates. -/
structure EdPoint where
  x : Nat
  y : Nat
  z : Nat
  t : Nat
  deriving DecidableEq, Repr

/-- The neutral point. -/
def edZero : EdPoint := ⟨0, 1, 1, 0⟩

/-- Point addition on the twisted Edwards curve with a = -1. -/
def edAdd (p q : EdPoint) : EdPoint :=
  let a := (p.y + edP - p.x) * (q.y + edP - q.x) % edP
  let b := (p.y + p.x) * (q.y + q.x) % edP
  let c := 2 * p.t * q.t * edD % edP
  let d := 2 * p.z * q.z % edP
  let e := (b + edP - a) % edP
  let f := (d + edP - c) % edP
  let g := (d + c) % edP
  let h := (b + a) % edP
  ⟨e * f % edP, g * h % edP, f * g % edP, e * h % edP⟩

/-- n times a point, `fuel` bits of n from the lowest. -/
def edMul : Nat → Nat → EdPoint → EdPoint
  | 0, _, _ => edZero
  | fuel + 1, n, p =>
    let r := edMul fuel (n / 2) (edAdd p p)
    if n % 2 = 1 then edAdd p r else r

/-- Whether two points are the same point. -/
def edEq (p q : EdPoint) : Bool :=
  p.x * q.z % edP == q.x * p.z % edP && p.y * q.z % edP == q.y * p.z % edP

/-- The x coordinate of a y coordinate and sign bit, if the point exists. -/
def edRecoverX (y sign : Nat) : Option Nat :=
  if edP ≤ y then none
  else
    let u := (y * y + edP - 1) % edP
    let v := (edD * (y * y % edP) + 1) % edP
    let x2 := u * edInv v % edP
    if x2 = 0 then (if sign = 1 then none else some 0)
    else
      let r := powMod edP 256 x2 ((edP + 3) / 8)
      let x := if r * r % edP = x2 then r else r * edSqrtM1 % edP
      if x * x % edP ≠ x2 then none
      else some (if x % 2 = sign then x else edP - x)

/-- The base point: y = 4/5, x even. -/
def edBase : EdPoint :=
  let y := 4 * edInv 5 % edP
  let x := (edRecoverX y 0).getD 0
  ⟨x, y, 1, x * y % edP⟩

/-- A point as 32 bytes. -/
def edEncode (p : EdPoint) : List Byte :=
  let zi := edInv p.z
  let x := p.x * zi % edP
  let y := p.y * zi % edP
  leBytes 32 (y + (x % 2) * 2 ^ 255)

/-- The point 32 bytes spell, if any. -/
def edDecode (bs : List Byte) : Option EdPoint :=
  let n := leNat bs
  let y := n % 2 ^ 255
  (edRecoverX y (n / 2 ^ 255 % 2)).map (fun x => ⟨x, y, 1, x * y % edP⟩)

/-- The secret scalar of a seed digest, clamped. -/
def edScalar (h : List Byte) : Nat :=
  let a := leNat (h.take 32)
  a % 2 ^ 254 / 8 * 8 + 2 ^ 254

/-- The public key of a seed. -/
def edPublic (seed : List Byte) : List Byte :=
  edEncode (edMul 256 (edScalar (sha512 seed)) edBase)

/-- The signature of a message under a seed. -/
def edSign (seed msg : List Byte) : List Byte :=
  let h := sha512 seed
  let a := edScalar h
  let pk := edEncode (edMul 256 a edBase)
  let r := leNat (sha512 (h.drop 32 ++ msg)) % edL
  let rb := edEncode (edMul 256 r edBase)
  let k := leNat (sha512 (rb ++ pk ++ msg)) % edL
  rb ++ leBytes 32 ((r + k * a) % edL)

/-- Whether a signature of 64 bytes verifies over a message under a public key (RFC 8032, cofactorless form). -/
def edVerify (pk msg sig : List Byte) : Bool :=
  let rb := sig.take 32
  let s := leNat (sig.drop 32)
  match edDecode pk, edDecode rb with
  | some a, some r =>
    decide (s < edL) && sig.length == 64 && pk.length == 32 &&
      (let k := leNat (sha512 (rb ++ pk ++ msg)) % edL
       edEq (edMul 256 s edBase) (edAdd r (edMul 256 k a)))
  | _, _ => false

/-- A signature as the device makes it: Ed25519 applied to the 64-byte SHA-512 digest of the message (R251). -/
def signMessage (seed msg : List Byte) : List Byte := edSign seed (sha512 msg)

/-- A signature as the device checks it (R251). -/
def verifyMessage (pk msg sig : List Byte) : Bool := edVerify pk (sha512 msg) sig

end Sys2Proof.Machine
end

