-- ==== Sys2Proof/Machine/Digest.lean ====
section
/-! DEFINITION. The 128-bit digest of R324 and the sample table of the device (R322, R398, R416). -/

namespace Sys2Proof.Machine

/-! ### Terms and digests (R324) -/

/-- The mixing function of R324. -/
def dmix (x : Nat) : Nat :=
  let x := x ^^^ (x / 2 ^ 32)
  let x := x * 0xE7A35D19C48B2F61 % 2 ^ 64
  let x := x ^^^ (x / 2 ^ 29)
  let x := x * 0x3B9F06D2A5E17C4B % 2 ^ 64
  x ^^^ (x / 2 ^ 32)

/-- The two terms of word w with value v (R324). -/
def digTerm (w v : Nat) : Nat × Nat :=
  let p := dmix (w % 2 ^ 64 ^^^ 0x9D2C56804B1EF37A)
  (dmix (p ^^^ v), dmix ((p + v + 0x61C886470F3BA95D) % 2 ^ 64))

/-- A digest with the term of word w added (R324). -/
def digAdd (dg : Nat × Nat) (w v : Nat) : Nat × Nat :=
  let t := digTerm w v
  ((dg.1 + t.1) % 2 ^ 64, dg.2 ^^^ t.2)

/-- A digest after word w changed from old to new (R324). -/
def digChange (dg : Nat × Nat) (w old new : Nat) : Nat × Nat :=
  let o := digTerm w old
  let n := digTerm w new
  ((dg.1 + n.1 + (2 ^ 64 - o.1)) % 2 ^ 64, dg.2 ^^^ n.2 ^^^ o.2)

/-- The running digest (R324, CHK_LIVE_DIG). -/
def liveDig (c : Ctl) : Nat × Nat := (getF c R.CHK_LIVE_DIG0.DA, getF c R.CHK_LIVE_DIG1.DB)

/-- The running digest replaced. -/
def setLiveDig (dg : Nat × Nat) (c : Ctl) : Ctl := setF R.CHK_LIVE_DIG1.DB dg.2 (setF R.CHK_LIVE_DIG0.DA dg.1 c)

/-- The digest of the n words from word w on whose bytes lie at home keys given by `key` (R324). -/
def digSweep (m : Store) (key : Nat → Nat) (w : Nat) : Nat → Nat × Nat → Nat × Nat
  | 0, dg => dg
  | n + 1, dg => digSweep m key (w + 1) n (digAdd dg w (leNat (readBytes m (key (4 * w)) 4)))

/-- The digest of the whole persistent-shard image (R324). -/
def sweepDigest (d : Dev) : Nat × Nat := digSweep d.m (fun o => hbmKey d.c (imageAddr d.c o)) 0 (imageBytes d.c / 4) (0, 0)

/-! ### The sample table (R322, R398, R416) -/

/-- The seat-map entry of the seat that this device serves (R416, R418). -/
def seatEntry (c : Ctl) : Option SeatEnt :=
  match c.job, mySeat c with
  | some j, some s => j.weave.seatMap.find? (fun e => e.seat == s)
  | _, _ => none

/-- The entries in force with their numbers: the ordinary table, and on probation the probation table as well (R322, R398). -/
def sampleTable (c : Ctl) : List (Nat × SampleEnt) :=
  match c.job, seatEntry c with
  | some j, some e =>
    let all := ((j.samples.find? (fun x => x.1 == e.program)).map (·.2)).getD []
    let n := j.check.smpEntries + (if c.step.kind = 3 then j.check.probEntries else 0)
    (List.range all.length |>.zip all).filter (fun x => decide (x.1 < n) && (x.2.kind == 1 || x.2.kind == 2))
  | _, _ => none.toList

/-- Local address of the sample area's entry e (R322). -/
def sampleAddr (c : Ctl) (e : Nat) : Nat := commonsBase + (c.job.map (·.check.smpBase)).getD 0 + 64 * e

/-- The seat that a CHECKER entry names: (s + offset) mod P (R417). -/
def sampleSeat (c : Ctl) (x : SampleEnt) : Nat :=
  let n := (seats c).length
  (((mySeat c).getD 0 + x.partner) % (n : Int)).toNat

end Sys2Proof.Machine
end

