-- ==== Sys2Proof/Machine/Flags.lean ====
section
/-! DEFINITION. What arithmetic leaves behind: the governor's counts and magnitudes (R52, R99 to R102), the non-finite flag, the step trailer (R294), tile-status flags and the engine's records (R76, R78, R82, R90 to R93), the scale rule (R103). -/

namespace Sys2Proof.Machine

/-! ### Tensor records (R96 to R102) -/

/-- A record with every field 0. -/
def TRec.zero : TRec :=
  { fmt := 0, auto := false, carry := false, shared := false, nfAllow := false, hlenM1 := 0, margin := 0, scale := 0,
    readScale := 0, cold := false, samples := 0, head := 0, penalty := 0, cleanRun := 0, written := false, nonfin := false,
    sharedWr := false, conv := 0, sat := 0, van := 0, nf := 0, amax := 0, sharedAmax := 0, totSat := 0, totVan := 0,
    totNf := 0, lowers := 0, hist := [] }

/-- Record `id`; record 0 and records beyond RECORDS read as zero (R96). -/
def recAt (c : Ctl) (id : Nat) : TRec :=
  if id = 0 ∨ getF c R.GOV_CFG.RECORDS ≤ id then TRec.zero else c.gov.recs.getD id TRec.zero

/-- A change of record `id`, 1 to RECORDS - 1 (R96). -/
def updRec (id : Nat) (f : TRec → TRec) (c : Ctl) : Ctl :=
  if id = 0 ∨ getF c R.GOV_CFG.RECORDS ≤ id then c
  else { c with gov := { c.gov with recs := c.gov.recs.put id (f (recAt c id)) } }

/-- A saturating count (R97). -/
def sat32 (n k : Nat) : Nat := min (2 ^ 32 - 1) (n + k)

/-- The larger of two F32 codes of magnitudes. -/
def maxMag (a b : Nat) : Nat := max a b

/-- A magnitude as F32: largest finite beyond the range, 0 below it (R100). -/
def magF32 (x : Num) : Nat := narrowCode .f32 true (numAbs x)

/-- Whether a value is finite and not zero. -/
def usable (x : Num) : Bool := numFinite x && !numIsZero x

/-- The device has contributed its trailer to the step's last reduction: its VOTE_UP has been sent (R102, R295). -/
def afterVote (c : Ctl) : Bool := c.step.voteSent

/-- A non-finite output of tensor `id` is reported (R99, R101, R102): counted in the record, and the device's non-finite flag set unless NF_ALLOW; after the last reduction it sets the commit-fault bit instead. -/
def reportNonfin (id : Nat) (c : Ctl) : Ctl :=
  let r := recAt c id
  let c := updRec id (fun r => { r with nf := sat32 r.nf 1, nonfin := r.nonfin || !r.nfAllow }) c
  if (id ≠ 0 ∧ r.nfAllow) ∨ !stepOpen c then c
  else
    let c := setB R.GOV_STATUS.NONFIN_STEP true c
    if afterVote c && !c.step.nfLate then
      let c := { c with step := { c.step with nfLate := true, fault := true } }
      recordFirst (failRec 0x10 srcGovernor c) (raise evNonfinite 0x03 srcGovernor (id % 16384) c)
    else c

/-- One conversion into the format code `f` of tensor `id`: counted, measured and reported (R52, R99 to R101). `measure` is the pick's measure setting. -/
def countOut (f id : Nat) (measure : Bool) (v : Num) (n : Narrowed) (c : Ctl) : Ctl :=
  let c :=
    if measure then
      if usable v && !n.nonfin then updRec id (fun r => { r with amax := maxMag r.amax (magF32 v) }) c else c
    else if f ≤ 4 then
      updRec id (fun r =>
        { r with conv := sat32 r.conv 1, written := true,
                 sat := if n.overs then sat32 r.sat 1 else r.sat,
                 van := if n.vanished then sat32 r.van 1 else r.van,
                 amax := if usable v then maxMag r.amax (magF32 v) else r.amax }) c
    else c
  if n.nonfin then reportNonfin id c else c

/-- Write exponent of an output: SCALE of its record, 0 for F32 (R53, R106). -/
def writeScale (c : Ctl) (f id : Nat) : Int := if f ≤ 4 then (recAt c id).scale else 0

/-- Read exponent of an operand: READ_SCALE of its record, 0 for F32 (R53, R106). -/
def readScale (c : Ctl) (f id : Nat) : Int := if f ≤ 4 then (recAt c id).readScale else 0

/-- A code loaded into F32: decode(c) × 2^-e narrowed once (R55). -/
def loadF32 (fmt : Format) (sat : Bool) (e : Int) (code : Nat) : Nat := narrowCode .f32 sat (numScale (-e) (fmtDecode fmt code))

/-- EF and FM of a format's largest value (R103). -/
def scaleConst (f : Nat) : Int × Nat :=
  match f with
  | 0 => (2, 0x400000)
  | 1 => (7, 0x700000)
  | 2 => (15, 0x600000)
  | 3 => (15, 0x7FE000)
  | _ => (127, 0x7F0000)

/-- The scale rule (R103). -/
def scaleRule (f a : Nat) (m p : Nat) : Int :=
  let ea : Int := (a / 2 ^ 23 % 256 : Nat) - 127
  let fa := a % 2 ^ 23
  let k := scaleConst f
  let e := k.1 - ea - (if k.2 < fa then 1 else 0) - m - p
  if 127 < e then 127 else if e < -128 then -128 else e

/-- Whether an F32 code may enter a maximum of R104: not NaN, exponent field not 0. -/
def maxUsable (a : Nat) : Bool :=
  let e := a / 2 ^ 23 % 256
  e != 0 && !(e == 255 && a % 2 ^ 23 != 0)

/-- The maximum of F32 values as R104 takes it; none when no value is usable. -/
def histMax (l : List Nat) : Option Nat :=
  (l.filter maxUsable).foldl (fun best a =>
    match best with
    | none => some a
    | some b => if numLt (f32 b) (f32 a) then some a else some b) none

/-- Whether a maximum is above 0. -/
def aboveZero (a : Nat) : Bool := numLt (.fin false 0 0) (f32 a)

/-! ### The step trailer (R294) -/

/-- A trailer of a COLL frame of the OPEN step is heard (R294). -/
def hear (t : BitVec 5) (c : Ctl) : Ctl := { c with step := { c.step with heard := c.step.heard ||| t } }

/-! ### Tile status and the engine's records (R76 to R79, R82, R90 to R93) -/

/-- The tile status word of a slot. -/
def tileStatus (p e slot : Nat) : Fld := { (engF R.ENG_TILE_STATUS.NANIN p e) with off := (engF R.ENG_TILE_STATUS.NANIN p e).off + 8 * slot, lo := 0, w := 32 }

/-- Tile-status flag bits (R90). -/
def tsNanin : Nat := 1
def tsZxi : Nat := 2
def tsIxi : Nat := 4
def tsSat : Nat := 8
def tsInexact : Nat := 16
def tsCksum : Nat := 32
def tsInUse : Nat := 256

/-- Flags are set in a slot's status and ORed into FLAGS_SEEN (R76). -/
def tileFlags (p e slot bits : Nat) (c : Ctl) : Ctl :=
  if bits = 0 then c
  else
    let f := tileStatus p e slot
    let c := setReg f.off (getReg c f.off ||| BitVec.ofNat 64 bits) c
    let g := engF R.ENG_STATUS.FLAGS_SEEN p e
    setF g (getF c g ||| bits) c

/-- The first column pass under CLEAR: flags cleared, IN_USE set (R68). -/
def tileClear (p e slot : Nat) (c : Ctl) : Ctl := setReg (tileStatus p e slot).off (BitVec.ofNat 64 tsInUse) c

/-- A non-finite event is captured, or sets FNF_OVER (R79). -/
def captureFnf (p e : Nat) (word : Nat) (c : Ctl) : Ctl :=
  if getB c (engF R.ENG_FNF0.VALID p e) then setB (engF R.ENG_STATUS.FNF_OVER p e) true c
  else setReg (engF R.ENG_FNF1.BEAT p e).off (getReg c R.BEAT_NOW.adr) (setReg (engF R.ENG_FNF0.VALID p e).off (BitVec.ofNat 64 word) c)

/-- A check failure of an engine is captured, or sets CKF_OVER; it is counted and sets the check-failure state (R82, R84, R93, R318). -/
def captureCkf (p e pick : Nat) (word cause detail : Nat) (c : Ctl) : Ctl :=
  let c := if getB c (engF R.ENG_CKF0.VALID p e) then setB (engF R.ENG_STATUS.CKF_OVER p e) true c
    else setReg (engF R.ENG_CKF1.BEAT p e).off (getReg c R.BEAT_NOW.adr) (setReg (engF R.ENG_CKF0.VALID p e).off (BitVec.ofNat 64 word) c)
  let c := satF (engF R.ENG_CK_FAILS.COUNT p e) 1 c
  checkFail { cause := cause, step := getF c R.STEP_NOW.STEP, lcore := logCore c p, unit := e, pick := pick,
              detail := detail, source := srcEngine p e, row := 0, cols := if cause = 1 then word / 2 ^ 16 % 16 else 0 } c

end Sys2Proof.Machine
end

