-- ==== Sys2Proof/Machine/Overlap.lean ====
section
/-! DEFINITION. Picks whose footprints meet (R144, R156, R176): what a started pick reads and writes, and the free values that stand for bytes which two picks touch without an order between them. -/

namespace Sys2Proof.Machine

/-! ### Footprints -/

/-- A run of local addresses: its first, and how many. -/
abbrev Span := Nat × Nat

/-- Local address of the own core store of physical core p (R170). -/
def ownBase (c : Ctl) (p : Nat) : Nat := 0x40000000000 + logCore c p * 0x1000000

/-- The address of operand o of a VUPD at an iteration: bits [63:48] of the base are ignored (R131, R135). -/
def destAddr (img : List Word) (o : Nat) (it : Nat × Nat × Nat × Nat × Nat) : Nat :=
  strideAddr (imgBase img o % 2 ^ 48) img o it.2.1 it.2.2.1 it.2.2.2.1 it.2.2.2.2

/-- Ranks of a collective. -/
def CollRun.ranks (r : CollRun) : Nat := r.members.length

/-- Elements of the output. -/
def CollRun.outLen (r : CollRun) : Nat := if r.type = 2 ∨ r.type = 3 then r.ranks * r.chunk else r.chunk

/-- The rows 0 to m − 1 of operand o of an engine pick at an iteration, of n elements each (R135). -/
def tileSpans (c : Ctl) (p : Nat) (img : List Word) (o i0 i1 i2 i3 m n : Nat) : List Span :=
  (List.range m).map (fun j => (ownBase c p + rowAddr img o (coreAddr img o i0 i1 i2 i3) j, rowLen (codeBits (imgFmt img o)) n))

/-- What a MATMUL or DRAIN writes in the core store (R69). -/
def drainSpans (c : Ctl) (p : Nat) (r : Running) : List Span :=
  let img := r.image
  let n (l : Nat) : Nat := r.counts.getD l 0
  if imgOp img = 0x11 ∨ imgDrain img then
    (tileIters (n 1) (n 2) (n 3)).flatMap (fun it =>
      tileSpans c p img 2 0 it.1 it.2.1 it.2.2 (if imgOp img = 0x10 then tileM img (n 1) it.1 r.mTail else imgM img) (imgN img))
  else []

/-- What a MATMUL reads of the core store: rows of activations and of weights (R135). -/
def matmulSpans (c : Ctl) (p : Nat) (r : Running) : List Span :=
  let img := r.image
  let n (l : Nat) : Nat := r.counts.getD l 0
  (tileIters (n 1) (n 2) (n 3)).flatMap (fun it => (List.range (n 0)).flatMap (fun i0 =>
    tileSpans c p img 0 i0 it.1 it.2.1 it.2.2 (tileM img (n 1) it.1 r.mTail) (imgK img) ++ tileSpans c p img 1 i0 it.1 it.2.1 it.2.2 (imgK img) (imgN img)))

/-- A row of operand o of a vector pick in its own core store. -/
def vecSpan (c : Ctl) (p : Nat) (img : List Word) (o n : Nat) (it : Nat × Nat × Nat × Nat × Nat) : Span :=
  (ownBase c p + coreAddr img o it.2.1 it.2.2.1 it.2.2.2.1 it.2.2.2.2, rowLen (codeBits (imgFmt img o)) n)

/-- A row of operand o of a VUPD that is addressed locally. -/
def updSpan (img : List Word) (o : Nat) (it : Nat × Nat × Nat × Nat × Nat) : Span := (destAddr img o it, rowLen (codeBits (imgFmt img o)) (imgVlen img))

/-- A row of a MOVE's operand o, as far as it lies on this device. -/
def moveSpan (c : Ctl) (img : List Word) (o : Nat) (it : Nat × Nat × Nat × Nat × Nat) : List Span :=
  let a := operandAddr img o it.2.1 it.2.2.1 it.2.2.2.1 it.2.2.2.2
  if targetOf c (a / 2 ^ 48) = .here then [(a % 2 ^ 48, imgRowBytes img)] else []

/-- Whether a global address of a pick lies on this device. -/
def hereSpan (c : Ctl) (a n : Nat) : List Span := if targetOf c (a / 2 ^ 48) = .here then [(a % 2 ^ 48, n)] else []

/-- The memory of this device that a started pick of core p reads. -/
def readSpans (c : Ctl) (p : Nat) (r : Running) : List Span :=
  let img := r.image
  match imgOp img with
  | 0x10 => matmulSpans c p r
  | 0x20 => (runRows r).flatMap (fun it => (vmapInputs (imgFunc img)).map (fun o => vecSpan c p img o (if imgPitch img o = 0 then 1 else imgVlen img) it))
  | 0x21 => (runRows r).map (vecSpan c p img 0 (if imgPitch img 0 = 0 then 1 else imgVlen img))
  | 0x22 => (runRows r).flatMap (fun it => [vecSpan c p img 0 (imgVlen img) it, updSpan img 2 it])
  | 0x30 => (runRows r).flatMap (moveSpan c img 0)
  | 0x31 => hereSpan c (imgBase img 0) 128
  | 0x32 => hereSpan c (imgBase img 0) (256 * (imgOparg img / 2 ^ 16 % 4096 + 1))
  | _ => []

/-- The memory of this device that a started pick of core p writes. A collective has read its input when it runs, and is left with its output. -/
def writeSpans (c : Ctl) (p : Nat) (r : Running) : List Span :=
  let img := r.image
  match imgOp img with
  | 0x10 | 0x11 => drainSpans c p r
  | 0x20 => (runRows r).map (vecSpan c p img 2 (imgVlen img))
  | 0x21 => (runRows r).map (vecSpan c p img 2 1)
  | 0x22 => (runRows r).flatMap (fun it => (2 :: vupdCopies img).map (fun o => updSpan img o it))
  | 0x30 => (runRows r).flatMap (moveSpan c img 2)
  | 0x38 => (c.coll.runs.look p).toList.map (fun q => (q.base, rowLen (codeBits q.fmt) q.outLen))
  | _ => []

/-! ### Picks without an order (R144, R156, R176) -/

/-- The started picks of the device's other treadles. A pick that a flag orders behind another starts when that one is complete, so that two picks that have both started and are not complete have no order. -/
def rivals (c : Ctl) (p t : Nat) : List (Nat × Running) :=
  c.treadles.flatMap (fun x => if x.1 = 6 * p + t then [] else x.2.runs.map (fun r => (x.1 / 6, r)))

/-- The earlier picks of the treadle that are not complete, whose drains its next pick reads without a flag (R144). -/
def undrained (c : Ctl) (p t : Nat) : List (Nat × Running) := ((trAt c p t).runs.takeWhile (·.worked)).map (fun r => (p, r))

/-- The MOVE that runs on the treadle, whose own source and destination may overlap (R176). -/
def ownMove (c : Ctl) (p t : Nat) : List (Nat × Running) := ((trAt c p t).runs.filter (fun r => imgOp r.image == 0x30)).map (fun r => (p, r))

/-- Whether a local address lies in one of the runs. -/
def inSpans (l : List Span) (a : Nat) : Bool := l.any (fun s => decide (s.1 ≤ a) && decide (a < s.1 + s.2))

/-- What others write while a pick of treadle t of core p reads. -/
def hotReads (c : Ctl) (p t : Nat) : List Span := (rivals c p t ++ undrained c p t ++ ownMove c p t).flatMap (fun x => writeSpans c x.1 x.2)

/-- What others read or write while a pick of treadle t of core p writes. -/
def hotWrites (c : Ctl) (p t : Nat) : List Span :=
  (rivals c p t).flatMap (fun x => readSpans c x.1 x.2 ++ writeSpans c x.1 x.2) ++ (ownMove c p t).flatMap (fun x => readSpans c x.1 x.2)

/-- Bytes at a local address, those in `l` undefined: free values (R156; log entry 6). -/
def mixed (l : List Span) (gen a : Nat) (bs : List Byte) : List Byte :=
  if l.isEmpty then bs
  else (List.range bs.length).map (fun i => if inSpans l (a + i) then Config.freeByte gen (a + i) else bs.getD i 0)

/-- Bytes that a pick reads at a local address. -/
def mixRead (c : Ctl) (p t a : Nat) (bs : List Byte) : List Byte := mixed (hotReads c p t) (2 ^ 64 + c.fresh) a bs

/-- Bytes that a pick writes at a local address. -/
def mixWrite (c : Ctl) (p t a : Nat) (bs : List Byte) : List Byte := mixed (hotWrites c p t) (2 ^ 65 + c.fresh) a bs

/-! ### The own core store of a pick -/

/-- A byte of the own core store as a pick of treadle t reads it (R135, R156). -/
def pickByte (m : Store) (c : Ctl) (p t a : Nat) : Byte :=
  let l := hotReads c p t
  if !l.isEmpty && inSpans l (ownBase c p + a) then Config.freeByte (2 ^ 64 + c.fresh) (ownBase c p + a) else coreByte m p c.fresh a

/-- A pick's write of bytes at an offset of its own core store. A write that extends past the store's end leaves undefined bytes before it, and changes nothing behind it (R156; log entry 6). -/
def writeOwn (p t a : Nat) (bs : List Byte) (d : Dev) : Dev :=
  let bs := mixWrite d.c p t (ownBase d.c p + a) bs
  if a + bs.length ≤ coreBytes then { d with m := writeCore d.c p a bs d.m }
  else if a < coreBytes then
    { d with m := writeCore d.c p a ((List.range (coreBytes - a)).map (fun i => Config.freeByte (2 ^ 65 + d.c.fresh) (ownBase d.c p + a + i))) d.m }
  else d

/-- A row of codes written to the pick's own core store. -/
def writeRow (p t bits a : Nat) (codes : List Nat) (d : Dev) : Dev :=
  let last := (coreByte d.m p d.c.fresh (a + rowLen bits codes.length - 1)).toNat
  writeOwn p t a (packRow bits last codes) d

end Sys2Proof.Machine
end

