-- ==== Sys2Proof/Machine/Engine.lean ====
section
/-! DEFINITION. The matrix engine (spec/03_matrix_engine.md): products and column sums (R63 to R66, R72), accumulation into tile slots (R68, R73 to R75), location of non-finite events (R78, R79), checksum columns and the norm bound (R81 to R84, R319), drains (R69) with sampled redundancy (R321, R322), and the picks MATMUL and DRAIN (R135). -/

namespace Sys2Proof.Machine

/-! ### Accumulator memory (R67, R71) -/

/-- The slot of engine e of physical core p, as accumulator generations are kept. -/
def slotKey (p e slot : Nat) : Nat := (p * 4 + e) * 8 + slot

/-- The key of an accumulator entry. -/
def accKey (p e slot row col : Nat) : Nat := (slotKey p e slot * 128 + row) * 128 + col

/-- The code of an accumulator entry; an entry that a restore left undefined is a free value (R371; log entry 6). -/
def accAt (c : Ctl) (p e slot row col : Nat) : Nat :=
  let k := accKey p e slot row col
  match c.acc.look k with
  | some v => v.toNat
  | none =>
    let g := c.accGen.getD (slotKey p e slot) 0
    if g = 0 then 0 else (Config.freeAcc g k).toNat

/-- An accumulator entry written. -/
def setAcc (p e slot row col code : Nat) (c : Ctl) : Ctl :=
  { c with acc := c.acc.put (accKey p e slot row col) (BitVec.ofNat 48 code) }

/-! ### Products and the column sum (R63, R64, R66, R72) -/

/-- The window of R64 reaches 63 places below the largest product exponent. -/
def windowBits : Int := 63

/-- Whether a product is −0. -/
def isNegZero : Num → Bool
  | .fin neg m _ => neg && m == 0
  | _ => false

/-- Largest leading exponent of the nonzero finite products. -/
def emaxOf : List Num → Option Int
  | [] => none
  | .fin _ m e :: l =>
    if m = 0 then emaxOf l
    else match emaxOf l with
      | none => some (leadExp m e)
      | some x => some (max x (leadExp m e))
  | _ :: l => emaxOf l

/-- A product's magnitude truncated to a multiple of 2^lsb: the signed multiple, and whether bits were dropped (R64). -/
def truncTo (lsb : Int) : Num → Int × Bool
  | .fin neg m e =>
    if lsb ≤ e then (signed neg (m * 2 ^ (e - lsb).toNat), false)
    else
      let d := 2 ^ (lsb - e).toNat
      (signed neg (m / d), m % d != 0)
  | _ => (0, false)

/-- The finite sum s_fin of a column pass and INEXACT_ALIGN (R64, R66). -/
def columnSum (ps : List Num) : Num × Bool :=
  match emaxOf ps with
  | none => (.fin (ps.all isNegZero) 0 0, false)
  | some em =>
    let lsb := em - windowBits
    let r := ps.foldl (fun (acc : Int × Bool) p => let t := truncTo lsb p; (acc.1 + t.1, acc.2 || t.2)) (0, false)
    if r.1 = 0 then (.fin false 0 0, r.2) else (.fin (decide (r.1 < 0)) r.1.natAbs lsb, r.2)

/-- The products of one column pass in one column; `inj` is a row whose product NaN injection replaces (R63, R72, R471). -/
def columnProducts (a w : List Num) (inj : Option Nat) : List Num :=
  let ps := List.zipWith numMul a w
  match inj with
  | some k => ps.set k .nan
  | none => ps

/-- Lowest row whose product satisfies a test. -/
def firstRow (ps : List Num) (f : Num → Bool) : Option Nat :=
  let i := ps.findIdx f
  if i < ps.length then some i else none

/-- Whether row k's NaN product has a NaN operand (or an injected NaN) as its cause, rather than zero times infinity (R72, R471). -/
def naninRow (a w : List Num) (inj : Option Nat) (k : Nat) : Bool :=
  inj == some k || numIsNaN (a.getD k .nan) || numIsNaN (w.getD k .nan)

/-- What one column pass in one column gives: value and flags, with what R78 records (R73, R74). -/
structure PassOut where
  entry : Nat
  flags : Nat
  sfin : Num
  /-- a product is NaN or infinite -/
  nonfin : Bool
  /-- KIND, ROW, OPP_ROW, A_NONFIN, W_NONFIN, FROM_TILE of the event, if it is one -/
  event : Option (Nat × Nat × Nat × Bool × Bool × Bool)
  deriving DecidableEq, Repr

/-- The flag word of conditions. -/
def flagWord (nanin zxi ixi sat inexact : Bool) : Nat :=
  (if nanin then tsNanin else 0) + (if zxi then tsZxi else 0) + (if ixi then tsIxi else 0) + (if sat then tsSat else 0) +
    (if inexact then tsInexact else 0)

/-- One column pass in one column: `t` is the tile entry under ADD, none under CLEAR; `f` is the exponent F of R68 (R68, R73 to R75, R78). -/
def passColumn (a w : List Num) (inj : Option Nat) (f : Int) (t : Option Num) : PassOut :=
  let ps := columnProducts a w inj
  let rows := List.range ps.length
  let nan := firstRow ps numIsNaN
  let pos := firstRow ps (· == .inf false)
  let neg := firstRow ps (· == .inf true)
  let nanin := rows.any (fun k => numIsNaN (ps.getD k .nan) && naninRow a w inj k)
  let zxi := rows.any (fun k => numIsNaN (ps.getD k .nan) && !naninRow a w inj k)
  let both := pos.isSome && neg.isSome
  let s := columnSum ps
  let x := numScale f s.1
  let tfin : Num := match t with
    | some (.fin n m e) => .fin n m e
    | _ => .fin false 0 0
  let sat := (narrow .acc48 true (numAdd tfin x)).overs
  let v : Num := if nan.isSome || both then .nan
    else if pos.isSome then .inf false
    else if neg.isSome then .inf true
    else x
  let tile := match t, v with
    | some (.inf b), .inf b' => b != b'
    | _, _ => false
  let res : Num := match t with
    | none => v
    | some tv => numAdd tv v
  let ixi := both || tile
  let infRow : Nat := match pos, neg with
    | some i, some j => min i j
    | some i, none => i
    | none, some j => j
    | none, none => 0
  let opp : Nat := match pos, neg with
    | some i, some j => max i j
    | _, _ => 0
  let nf := nan.isSome || pos.isSome || neg.isSome
  let row := nan.getD infRow
  let kind := match nan with
    | some k => if naninRow a w inj k then 1 else 2
    | none => if ixi then 3 else 4
  let ev := if nf then
      some (kind, row, if kind = 3 then opp else 0, !numFinite (a.getD row .nan),
        !numFinite (w.getD row .nan) || inj == some row, decide (kind = 3) && !both)
    else none
  { entry := narrowCode .acc48 true res, flags := flagWord nanin zxi ixi sat s.2, sfin := s.1, nonfin := nf, event := ev }

/-! ### The norm bound and the checksum (R81, R82, R319) -/

/-- Σ 4^x(v) over nonzero finite values, times 2^1024. -/
def sum4x (l : List Num) : Nat :=
  l.foldl (fun acc v => match v with
    | .fin _ m e => if m = 0 then acc else acc + 2 ^ (2 * (leadExp m e + 1) + 1024).toNat
    | _ => acc) 0

/-- ceil(log2 s) for s given times 2^1024. -/
def ceilLog (s : Nat) : Int := (bitLen (s - 1) : Int) - 1024

/-- The norm bound fails (R319). -/
def normFails (a w : List Num) (sfin : Num) (slack : Int) : Bool :=
  let sa := sum4x a
  let sw := sum4x w
  if sa = 0 ∨ sw = 0 then !numIsZero sfin
  else
    let b := (ceilLog sa + ceilLog sw + 1) / 2
    numLt (.fin false 1 (b + slack)) (numAbs sfin)

/-- The sum of exact values. -/
def numSum (l : List Num) : Num := l.foldl numAdd (.fin true 0 0)

/-- Whether C differs from the sum of an active checksum column (R81, R82): both sums are exact. -/
def checksumDiffers (a : List Num) (cols : List (List Num)) (sums : List Num) : Bool :=
  let c := numSum sums
  let rowSum (k : Nat) : Num := numSum (cols.map (fun w => w.getD k (.fin false 0 0)))
  let k := numSum ((List.range a.length).map (fun i => numMul (a.getD i .nan) (rowSum i)))
  numLt c k || numLt k c

/-! ### Column passes and K passes (R61, R68, R78 to R84) -/

/-- A K pass: where it runs and what it computes. -/
structure KPass where
  p : Nat
  e : Nat
  img : List Word
  idx : Nat
  /-- number of the K pass within the pick -/
  num : Nat
  clear : Bool
  m : Nat
  /-- weights by column, each by row -/
  cols : List (List Num)
  /-- F of R68 -/
  f : Int

/-- The word of an ENG_FNF0 record (R91). -/
def fnfWord (kp : KPass) (r n : Nat) (ev : Nat × Nat × Nat × Bool × Bool × Bool) : Nat :=
  let b (x : Bool) : Nat := if x then 1 else 0
  1 + ev.1 * 2 + imgSlot kp.img * 2 ^ 4 + r * 2 ^ 8 + n * 2 ^ 16 + ev.2.1 * 2 ^ 24 + ev.2.2.1 * 2 ^ 32 + kp.idx * 2 ^ 40 +
    b ev.2.2.2.1 * 2 ^ 51 + b ev.2.2.2.2.1 * 2 ^ 52 + b ev.2.2.2.2.2 * 2 ^ 53

/-- The word of an ENG_CKF0 record (R93). -/
def ckfWord (kp : KPass) (kind r col disagree : Nat) : Nat :=
  1 + kind * 2 + imgSlot kp.img * 2 ^ 4 + r * 2 ^ 8 + disagree * 2 ^ 16 + kp.num % 8 * 2 ^ 20 + col * 2 ^ 32 + kp.idx * 2 ^ 40

/-- The row that NaN injection hits in column n, if this column pass enables the cell (R471). -/
def injected (c : Ctl) (kp : KPass) (n : Nat) : Option Nat :=
  if decide (0 < tenF c R.TEN_NAN.COUNT) && tenF c R.TEN_NAN.CORE == kp.p && tenF c R.TEN_NAN.ENGINE == kp.e &&
      tenF c R.TEN_NAN.COL == n && decide (tenF c R.TEN_NAN.ROW < imgK kp.img) then
    some (tenF c R.TEN_NAN.ROW)
  else none

/-- The accumulator entry that an ADD adds to. In a slot whose IN_USE is 0 the result is undefined (R156): a free value (log entry 6). -/
def oldEntry (c : Ctl) (kp : KPass) (r n : Nat) : Nat :=
  let slot := imgSlot kp.img
  if getB c ({ tileStatus kp.p kp.e slot with lo := 8, w := 1 }) then accAt c kp.p kp.e slot r n
  else (Config.freeAcc (2 ^ 64 + c.fresh) (2 ^ 32 * kp.num + accKey kp.p kp.e slot r n)).toNat

/-- One column pass of a K pass in column n, the weights `w` given: the entry, flags and event written; answers s_fin and whether a product was non-finite (R68, R78). -/
def doColumn (kp : KPass) (r : Nat) (a w : List Num) (n : Nat) (c : Ctl) : Ctl × Num × Bool :=
  let slot := imgSlot kp.img
  let inj := injected c kp n
  let t := if kp.clear then none else some (fmtDecode .acc48 (oldEntry c kp r n))
  let o := passColumn a w inj kp.f t
  let c := if inj.isSome then tenInjected (tenSpend R.TEN_NAN.COUNT c) else c
  let c := tileFlags kp.p kp.e slot o.flags (setAcc kp.p kp.e slot r n o.entry c)
  let c := match o.event with
    | some ev => captureFnf kp.p kp.e (fnfWord kp r n ev) c
    | none => c
  (c, o.sfin, o.nonfin)

/-- Whether a format is S4, S8 or S8W, for which checksum columns are active (R81). -/
def ckFormats (img : List Word) : Bool := decide (imgFmt img 0 < 3) && decide (imgFmt img 1 < 3)

/-- The exact checksum of a column pass: compared, or counted as skipped (R82, R83). -/
def exactCheck (kp : KPass) (r : Nat) (a : List Num) (sums : List Num) (nonfin : Bool) (c : Ctl) : Ctl :=
  if !(imgCkExact kp.img && ckFormats kp.img) then c
  else
    let ck := getF c (engF R.ENG_CFG.CK_COLS kp.p kp.e)
    let badRow := kp.cols.any (fun w => w.any (fun x => !numFinite x))
    if ck = 0 ∨ nonfin ∨ badRow then incF (engF R.ENG_CK_SKIPPED.COUNT kp.p kp.e) 1 c
    else
      let c := incF (engF R.ENG_CK_COMPARES.COUNT kp.p kp.e) 1 c
      if checksumDiffers a kp.cols sums then
        captureCkf kp.p kp.e kp.idx (ckfWord kp 0 r 0 ck) 0x01 (r * 128) (tileFlags kp.p kp.e (imgSlot kp.img) tsCksum c)
      else c

/-- The norm bound over the columns of a column pass (R84, R319). -/
def normCheck (kp : KPass) (r : Nat) (a : List Num) (sums : List Num) (nonfin : Bool) (c : Ctl) : Ctl :=
  if !imgCkNorm kp.img || nonfin then c
  else
    (List.range kp.cols.length).foldl (fun c n =>
      if normFails a (kp.cols.getD n []) (sums.getD n (.fin false 0 0)) (imgSlack kp.img) then
        captureCkf kp.p kp.e kp.idx (ckfWord kp 1 r n 0) 0x02 (r * 128 + n) (tileFlags kp.p kp.e (imgSlot kp.img) tsCksum c)
      else c) c

/-- A column pass: every enabled column in ascending order, then the checks (R61, R62, R78). -/
def columnPass (kp : KPass) (r : Nat) (a : List Num) (c : Ctl) : Ctl :=
  let c := if kp.clear && r == 0 then tileClear kp.p kp.e (imgSlot kp.img) c else c
  let res := (List.range kp.cols.length).foldl (fun (acc : Ctl × List Num × Bool) n =>
    let x := doColumn kp r a (kp.cols.getD n []) n acc.1
    (x.1, acc.2.1 ++ [x.2.1], acc.2.2 || x.2.2)) (c, [], false)
  let c := incF (engF R.ENG_PASSES.COUNT kp.p kp.e) 1 res.1
  exactCheck kp r a res.2.1 res.2.2 (normCheck kp r a res.2.1 res.2.2 c)

/-- The values of n elements of a row in a format. -/
def rowValues (rd : Nat → Byte) (fmt : Format) (row n : Nat) : List Num :=
  (List.range n).map (fun k => fmtDecode fmt (elemAt rd (fmtBits fmt) row k))

/-- The format of operand o of an engine pick. -/
def engFmt (img : List Word) (o : Nat) : Format := (fmtOfCode (imgFmt img o)).getD .s4

/-- A K pass of a MATMUL: the weight block, then M column passes (R59, R135). -/
def kPass (p t : Nat) (r : Running) (num i0 i1 i2 i3 m : Nat) (d : Dev) : Dev :=
  let img := r.image
  let rd := pickByte d.m d.c p t
  let wBase := coreAddr img 1 i0 i1 i2 i3
  let aBase := coreAddr img 0 i0 i1 i2 i3
  let rows := (List.range (imgK img)).map (fun k => rowValues rd (engFmt img 1) (rowAddr img 1 wBase k) (imgN img))
  let cols := (List.range (imgN img)).map (fun n => rows.map (fun w => w.getD n .nan))
  let f := -(readScale d.c (imgFmt img 0) (imgTid img 0) + readScale d.c (imgFmt img 1) (imgTid img 1))
  let kp : KPass := { p := p, e := t, img := img, idx := r.idx, num := num, clear := i0 == 0 && imgFirstClear img,
                      m := m, cols := cols, f := f }
  { d with c := forN m (fun j c =>
      columnPass kp j (rowValues rd (engFmt img 0) (rowAddr img 0 aBase j) (imgK img)) c) d.c }

/-! ### Drains (R69, R321, R322) -/

/-- One output entry: its code, the conversion counted and reported (R49 to R52, R69, R99, R100). -/
def drainEntry (p e : Nat) (img : List Word) (r n : Nat) (c : Ctl) : Ctl × Nat :=
  let f := imgFmt img 2
  let v := fmtDecode .acc48 (accAt c p e (imgSlot img) r n)
  let x := narrow (engFmt img 2) (imgSat img) (numScale (writeScale c f (imgTid img 2)) v)
  (countOut f (imgTid img 2) (imgMeasure img) v x c, x.code)

/-- The codes of one output row. -/
def drainRow (p e : Nat) (img : List Word) (r : Nat) (c : Ctl) : Ctl × List Nat :=
  (List.range (imgN img)).foldl (fun (acc : Ctl × List Nat) n =>
    let x := drainEntry p e img r n acc.1
    (x.1, acc.2 ++ [x.2])) (c, [])

/-- Tile digest of drained codes by row, with the status term (R321). -/
def tileDigest (rows : List (List Nat)) (status : Nat) : Nat × Nat :=
  let dg := (List.range rows.length).foldl (fun dg r =>
    let l := rows.getD r []
    (List.range l.length).foldl (fun dg n => digAdd dg (128 * r + n) (l.getD n 0)) dg) (0, 0)
  digAdd dg 16384 (status % 32)

/-- The bytes of a digest, DA then DB. -/
def digestBytes (dg : Nat × Nat) : List Byte := leBytes 8 dg.1 ++ leBytes 8 dg.2

/-- The write of a tile digest to one entry of the sample area (R322): locally, or as an RMA WRITE to the ORIGINAL's device, for which the pick waits. -/
def writeSample (p t : Nat) (x : Nat × SampleEnt) (dg : Nat × Nat) (d : Dev) : Dev :=
  let step := leBytes 8 (getF d.c R.STEP_NOW.STEP)
  if x.2.kind = 1 then
    (writeUnit (sampleAddr d.c x.1) (digestBytes dg ++ step) (.pick p t) d).1
  else
    let a := sampleAddr d.c x.2.entry + 32
    let bs := digestBytes dg ++ step ++ leBytes 8 (freeValue d.c).toNat
    let d := onCtl drawn d
    let seat := sampleSeat d.c x.2
    match targetOf d.c seat with
    | .here => (writeUnit a bs (.pick p t) d).1
    | .peer n => onCtl (fun c => issueWrite n (seat * 2 ^ 48 + a) bs (.write (.pick p t)) (updRun p t (fun r => { r with waiting := r.waiting + 1 }) c)) d
    | .nowhere => onCtl (fun c => faultIfOpen 0x0A srcDevice (notSent seat c)) d

/-- A drain of a CK_SAMPLE pick is numbered, and its digest written to the entries that name it (R321, R322). -/
def sampleDrain (p t : Nat) (rows : List (List Nat)) (status : Nat) (d : Dev) : Dev :=
  let k := 6 * logCore d.c p + t
  let j := d.c.step.drains.getD k 0
  let d := onCtl (fun c => { c with step := { c.step with drains := c.step.drains.put k (j + 1) } }) d
  let dg := tileDigest rows status
  ((sampleTable d.c).filter (fun x => x.2.core == logCore d.c p && x.2.treadle == t && x.2.j == j)).foldl
    (fun d x => writeSample p t x dg d) d

/-- The drain of a tile iteration to the O address (R69): rows 0 to M − 1 and columns 0 to N − 1, FREE after the last entry. -/
def drainTile (p t : Nat) (r : Running) (i1 i2 i3 m : Nat) (d : Dev) : Dev :=
  let img := r.image
  let base := coreAddr img 2 0 i1 i2 i3
  let bits := codeBits (imgFmt img 2)
  let res := (List.range m).foldl (fun (acc : Dev × List (List Nat)) j =>
    let x := drainRow p t img j acc.1.c
    (writeRow p t bits (rowAddr img 2 base j) x.2 { acc.1 with c := x.1 }, acc.2 ++ [x.2])) (d, [])
  let d := res.1
  let st := getF d.c (tileStatus p t (imgSlot img))
  let d := if imgCkSample img then sampleDrain p t res.2 st d else d
  if imgFree img then onCtl (setB ({ tileStatus p t (imgSlot img) with lo := 8, w := 1 }) false) d else d

/-! ### The picks (R131, R135, R136) -/

/-- One tile iteration of a MATMUL: its K passes, then the drain that DRAIN selects (R135). -/
def tileIteration (p t : Nat) (r : Running) (n0 n1 : Nat) (it : Nat × Nat × Nat) (x : Dev × Nat) : Dev × Nat :=
  let m := tileM r.image n1 it.1 r.mTail
  let d := forN n0 (fun i0 d => kPass p t r (x.2 + i0) i0 it.1 it.2.1 it.2.2 m d) x.1
  (if imgDrain r.image then drainTile p t r it.1 it.2.1 it.2.2 m d else d, x.2 + n0)

/-- Whether a tile slot that the pick would write has not been read out since the last capture: the pick waits (R355). -/
def slotReading (c : Ctl) (p e : Nat) (img : List Word) : Bool :=
  (imgOp img == 0x10 || imgFree img) && c.snap.dumps.any (fun x => x.2 == slotKey p e (imgSlot img))

/-- MATMUL: the whole loop nest of the started pick (R135, R136). -/
def matmulWork (p t : Nat) (d : Dev) : Dev :=
  match curRun d.c p t 0x10 with
  | none => d
  | some r =>
    if slotReading d.c p t r.image then d else
    let n (l : Nat) : Nat := r.counts.getD l 0
    let x := (tileIters (n 1) (n 2) (n 3)).foldl (fun x it => tileIteration p t r (n 0) (n 1) it x) (onCtl drawn d, 0)
    onCtl (workDone p t) x.1

/-- DRAIN: one drain for each iteration of LOOP1 to LOOP3 (R135). -/
def drainWork (p t : Nat) (d : Dev) : Dev :=
  match curRun d.c p t 0x11 with
  | none => d
  | some r =>
    if slotReading d.c p t r.image then d else
    let n (l : Nat) : Nat := r.counts.getD l 0
    let d := (tileIters (n 1) (n 2) (n 3)).foldl (fun d it => drainTile p t r it.1 it.2.1 it.2.2 (imgM r.image) d) (onCtl drawn d)
    onCtl (workDone p t) d

/-- MATMUL on treadle t of physical core p. -/
def execMatmul (p t : Nat) (s : State) : Host.Outcome State Fault Refusal := runDev (atTreadle p t (matmulWork p t)) s

/-- DRAIN on treadle t of physical core p. -/
def execDrain (p t : Nat) (s : State) : Host.Outcome State Fault Refusal := runDev (atTreadle p t (drainWork p t)) s

end Sys2Proof.Machine
end

