-- ==== Sys2Proof/Machine/Vecfun.lean ====
section
/-! DEFINITION. The functions of the vector unit on F32 codes (R132, R133): each result is the exact value rounded once. EXP2, LOG2 and the roots are evaluated in integer fixed point far beyond the precision a correct rounding needs; a discarded remainder is carried as a sticky bit. -/

namespace Sys2Proof.Machine

/-- The only NaN written (R34). -/
def nanF32 : Nat := 0x7FC00000

/-- Floor of the square root of n below 2^256. -/
def isqrt (n : Nat) : Nat := sqrtBits n 128 0

/-- The F32 code of a value given as m·2^e with a sticky bit (R46, R36). -/
def packSticky (neg : Bool) (m : Nat) (e : Int) (sticky : Bool) : Nat := (narrowFin .f32 false neg m e sticky).code

/-- Fraction bits of the fixed point in which 2^f is evaluated. -/
def expBits : Nat := 120

/-- 2^(2^-i) for i = 1 to n, times 2^k, floored: repeated square roots of 2. -/
def rootTable (k : Nat) : Nat → Nat → List Nat
  | 0, _ => []
  | n + 1, c =>
    let r := sqrtBits (c * 2 ^ k) (k + 1) 0
    r :: rootTable k n r

/-- 2^f for f = fr / 2^expBits in [0, 1), times 2^k, from below by far less than 2^-130 of its value. -/
def expFrac (k fr : Nat) : Nat :=
  let t := rootTable k expBits (2 * 2 ^ k)
  ((List.range expBits).zip t).foldl (fun acc x =>
    if fr / 2 ^ (expBits - 1 - x.1) % 2 = 1 then acc * x.2 / 2 ^ k else acc) (2 ^ k)

/-- 2^x (R132): exact for an integer, else irrational. -/
def exp2F32 (x : Num) : Nat :=
  match x with
  | .nan => nanF32
  | .inf neg => if neg then 0 else fmtInf .f32 false
  | .fin neg m e =>
    let s := signed neg m
    if m = 0 then toF32 (.fin false 1 0)
    else if 8 ≤ leadExp m e then (if neg then 0 else fmtInf .f32 false)
    else
      let a : Int := if 0 ≤ e + expBits then s * 2 ^ (e + expBits).toNat else s / 2 ^ (-(e + expBits)).toNat
      let exact := decide (0 ≤ e) || (decide (0 ≤ e + expBits) && a % 2 ^ expBits == 0)
      let n := a / 2 ^ expBits
      let fr := (a % 2 ^ expBits).toNat
      if exact then toF32 (.fin false 1 n)
      else packSticky false (expFrac 160 fr / 2 ^ 32) (n - 128) true

/-- Bits of log2 m for m = v / 2^k in [1, 2): repeated squaring. -/
def logBits (k : Nat) : Nat → Nat → Nat → Nat
  | 0, _, acc => acc
  | n + 1, v, acc =>
    let w := v * v / 2 ^ k
    if 2 * 2 ^ k ≤ w then logBits k n (w / 2) (2 * acc + 1) else logBits k n w (2 * acc)

/-- log2 x (R132): exact for a power of two, else irrational. -/
def log2F32 (x : Num) : Nat :=
  match x with
  | .nan => nanF32
  | .inf neg => if neg then nanF32 else fmtInf .f32 false
  | .fin neg m e =>
    if m = 0 then fmtInf .f32 true
    else if neg then nanF32
    else
      let l := leadExp m e
      if m = 2 ^ Nat.log2 m then toF32 (.fin (decide (l < 0)) l.natAbs 0)
      else
        let v := m * 2 ^ (256 - Nat.log2 m)
        let t : Int := l * 2 ^ 100 + (logBits 256 100 v 0 : Nat)
        if 0 ≤ t then packSticky false t.toNat (-100) true
        else packSticky true (-t - 1).toNat (-100) true

/-- 1 ÷ x (R132). -/
def recipF32 (x : Num) : Nat :=
  match x with
  | .nan => nanF32
  | .inf neg => fmtSign .f32 neg
  | .fin neg m e =>
    if m = 0 then fmtInf .f32 neg
    else packSticky neg (2 ^ 80 / m) (-80 - e) (2 ^ 80 % m != 0)

/-- √x (R132). -/
def sqrtF32 (x : Num) : Nat :=
  match x with
  | .nan => nanF32
  | .inf neg => if neg then nanF32 else fmtInf .f32 false
  | .fin neg m e =>
    if m = 0 then fmtSign .f32 neg
    else if neg then nanF32
    else
      let odd := e % 2 = 1
      let n := m * 2 ^ (if odd then 101 else 100)
      let r := isqrt n
      packSticky false r ((e - (if odd then 1 else 0)) / 2 - 50) (r * r != n)

/-- 1 ÷ √x (R132): 1 ÷ √±0 is an infinity of that sign. -/
def rsqrtF32 (x : Num) : Nat :=
  match x with
  | .nan => nanF32
  | .inf neg => if neg then nanF32 else 0
  | .fin neg m e =>
    if m = 0 then fmtInf .f32 neg
    else if neg then nanF32
    else
      let odd := e % 2 = 1
      let m := if odd then 2 * m else m
      let e := if odd then e - 1 else e
      let r := isqrt (2 ^ 200 / m)
      packSticky false r (-(e / 2) - 100) (r * r * m != 2 ^ 200)

/-- Whether a < b where −0 lies below +0 (R132, R133). -/
def orderLt (a b : Num) : Bool :=
  match a, b with
  | .fin na 0 _, .fin nb 0 _ => na && !nb
  | _, _ => numLt a b

/-- VMAP's function on F32 codes (R132). -/
def vmapF32 (func a b c : Nat) : Nat :=
  let x := f32 a
  let y := f32 b
  let z := f32 c
  let two := numIsNaN x || numIsNaN y
  match func with
  | 0x00 => toF32 x
  | 0x01 => toF32 (numAdd x y)
  | 0x02 => toF32 (numAdd x (numNeg y))
  | 0x03 => toF32 (numMul x y)
  | 0x04 => toF32 (numAdd (numMul x y) z)
  | 0x05 => if two then nanF32 else toF32 (if orderLt x y then y else x)
  | 0x06 => if two then nanF32 else toF32 (if orderLt y x then y else x)
  | 0x07 => toF32 (numAbs x)
  | 0x08 => toF32 (numNeg x)
  | 0x09 => exp2F32 x
  | 0x0A => log2F32 x
  | 0x0B => recipF32 x
  | 0x0C => rsqrtF32 x
  | 0x0D => sqrtF32 x
  | 0x0E => if two || numIsNaN z then nanF32 else toF32 (if numLt (.fin false 0 0) x then y else z)
  | _ => nanF32

/-- The accumulator with which a VRED row starts (R133). -/
def vredStart (func : Nat) : Nat := if func = 1 then fmtInf .f32 true else 0

/-- One element into a VRED accumulator (R133): a NaN element gives NaN for good. -/
def vredStep (func acc a : Nat) : Nat :=
  let x := f32 a
  let t := f32 acc
  if numIsNaN x || numIsNaN t then nanF32
  else match func with
    | 0x00 => toF32 (numAdd t x)
    | 0x01 => toF32 (if orderLt t x then x else t)
    | _ => toF32 (numAdd (numMul x x) t)

/-- F32 fused multiply-add of codes, rounded to nearest (R115). -/
def fmaF32 (a b c : Nat) : Nat := toF32 (numAdd (numMul (f32 a) (f32 b)) (f32 c))

/-- F32 quotient and square root of codes (R115). -/
def divF32 (a b : Nat) : Nat :=
  match f32 a, f32 b with
  | .fin na ma ea, .fin nb mb eb =>
    if mb = 0 then (if ma = 0 then nanF32 else fmtInf .f32 (na != nb))
    else packSticky (na != nb) (ma * 2 ^ 80 / mb) (ea - eb - 80) (ma * 2 ^ 80 % mb != 0)
  | .inf na, .fin nb _ _ => fmtInf .f32 (na != nb)
  | .fin na _ _, .inf nb => fmtSign .f32 (na != nb)
  | _, _ => nanF32

/-- The random number of an element (R111). -/
def srBits (seed step tensor index : Nat) : Nat :=
  let m := 2 ^ 64
  let x := seed % m ^^^ (step * 0x8F3A5C21B7E46D19 % m) ^^^ (tensor % 2 ^ 16 * 2 ^ 48) ^^^ (index % 2 ^ 48)
  let x := (x ^^^ (x / 2 ^ 29)) * 0xC2B71E945A63F0D7 % m
  let x := (x ^^^ (x / 2 ^ 31)) * 0x6A0D3B85E91274CF % m
  let x := (x ^^^ (x / 2 ^ 27)) * 0xB4E197C62D58A31B % m
  let x := (x ^^^ (x / 2 ^ 33)) * 0x93D46E1B0C75F289 % m
  let x := x ^^^ (x / 2 ^ 30)
  x / 2 ^ 48

end Sys2Proof.Machine
end

