-- ==== Sys2Proof/Machine/Govern.lean ====
section
/-! DEFINITION. The governor (spec/04_scaling_and_weight_update.md): the record window (R97, R98, R122), committing at the seal (R104, R105), the update ratio (R115), telemetry (R116, R117) and threshold events (R118, R119). -/

namespace Sys2Proof.Machine

/-! ### Record words (R97) -/

/-- A signed byte as stored. -/
def byteOfInt (x : Int) : Nat := (x % 256).toNat

/-- A signed byte as read. -/
def intOfByte (n : Nat) : Int := (BitVec.ofNat 8 n).toInt

/-- 1 or 0. -/
def bit (b : Bool) : Nat := if b then 1 else 0

/-- Word w of a record (R97). -/
def recWord (r : TRec) (w : Nat) : Nat :=
  match w with
  | 0 => r.fmt + bit r.auto * 2 ^ 4 + bit r.carry * 2 ^ 5 + bit r.shared * 2 ^ 6 + bit r.nfAllow * 2 ^ 7 + r.hlenM1 * 2 ^ 8 + r.margin * 2 ^ 16
  | 1 => byteOfInt r.scale + byteOfInt r.readScale * 2 ^ 8 + bit r.cold * 2 ^ 16 + r.samples * 2 ^ 17 + r.head * 2 ^ 24
  | 2 => r.penalty + r.cleanRun % 128 * 2 ^ 8
  | 3 => bit r.written + bit r.nonfin * 2 + bit r.sharedWr * 4
  | 4 => r.conv
  | 5 => r.sat
  | 6 => r.van
  | 7 => r.nf
  | 8 => r.amax
  | 9 => r.sharedAmax
  | 10 => r.totSat
  | 11 => r.totVan
  | 12 => r.totNf
  | 13 => r.lowers
  | _ => if 16 ≤ w ∧ w < 80 then r.hist.getD (w - 16) 0 else 0

/-- A record with word w as written by software or a restore: the RW fields of the word (R97). -/
def setRecWord (r : TRec) (w v : Nat) : TRec :=
  match w with
  | 0 => { r with fmt := v % 16, auto := v / 2 ^ 4 % 2 == 1, carry := v / 2 ^ 5 % 2 == 1, shared := v / 2 ^ 6 % 2 == 1,
                  nfAllow := v / 2 ^ 7 % 2 == 1, hlenM1 := v / 2 ^ 8 % 64, margin := v / 2 ^ 16 % 16 }
  | 1 => { r with scale := intOfByte v, readScale := intOfByte (v / 2 ^ 8), cold := v / 2 ^ 16 % 2 == 1,
                  samples := v / 2 ^ 17 % 128, head := v / 2 ^ 24 % 64 }
  | 2 => { r with penalty := v % 16, cleanRun := v / 2 ^ 8 % 128 }
  | _ => if 16 ≤ w ∧ w < 80 then { r with hist := if v = 0 then r.hist.del (w - 16) else r.hist.put (w - 16) v } else r

/-- Whether a word has RW fields (R97). -/
def recWordRw (w : Nat) : Bool := decide (w < 3) || (decide (16 ≤ w) && decide (w < 80))

/-- The number of cold records: those whose COLD is set (R108, R121). DESIGN CHOICE (log entry 173): a software write that changes AUTO, SAMPLES or COLD leaves COLD as it is written, and COLD_COUNT counts it as it stands, AUTO = 0 or not. -/
def coldCount (c : Ctl) : Nat := (c.gov.recs.filter (fun e => e.2.cold && decide (e.1 < getF c R.GOV_CFG.RECORDS))).length

/-! ### The record window (R98, R122, R123) -/

/-- GOV_REC_SEL after an access with AUTOINC (R122). -/
def recAdvance (c : Ctl) : Ctl :=
  if getB c R.GOV_REC_SEL.AUTOINC then
    let w := getF c R.GOV_REC_SEL.WORD
    if w < 79 then setF R.GOV_REC_SEL.WORD (w + 1) c
    else setF R.GOV_REC_SEL.ID (getF c R.GOV_REC_SEL.ID + 1) (setF R.GOV_REC_SEL.WORD 0 c)
  else c

/-- The selected record word as read (R123). -/
def recSelected (c : Ctl) : Nat := recWord (recAt c (getF c R.GOV_REC_SEL.ID)) (getF c R.GOV_REC_SEL.WORD)

/-- A rejected record write (R98, R455). -/
def recReject (c : Ctl) : Ctl := raise evProgram 0x13 srcGovernor 0 (setB R.GOV_STATUS.REC_WR_REJ true c)

/-- A software write of a record word: a changed HLEN_M1 restarts the history (R98). DESIGN CHOICE (log entry 172): SCALE and READ_SCALE are written apart from each other whatever CARRY is, and the two exponents of a CARRY = 0 record then differ until a seal makes them one (R106). -/
def recWrite (r : TRec) (w v : Nat) : TRec :=
  let n := setRecWord r w v
  if w = 0 ∧ n.hlenM1 ≠ r.hlenM1 then { n with samples := 0, head := 0, cleanRun := 0, cold := n.auto } else n

/-- GOV_REC_DATA written (R98, R122). DESIGN CHOICE (log entry 154): a write to an RW word of a record at or above RECORDS, which reads as zero (R96), is ignored without REC_WR_REJ or event, in an OPEN step or with FMT above 4 too. -/
def recDataWrite (v : Word) (c : Ctl) : Ctl :=
  let id := getF c R.GOV_REC_SEL.ID
  let w := getF c R.GOV_REC_SEL.WORD
  let x := v.toNat
  let c :=
    if id = 0 ∨ getF c R.GOV_CFG.RECORDS ≤ id ∨ !recWordRw w then c
    else if stepOpen c || (w == 0 && decide (4 < x % 16)) then recReject c
    else updRec id (fun r => recWrite r w x) c
  recAdvance c

/-! ### The seal (R104, R105) -/

/-- How a step ended for the governor (R104). -/
inductive SealKind where
  | clean
  | skipped
  | measured
  deriving DecidableEq, Repr

/-- The magnitude used at the seal (R104, R107). -/
def sealAmax (r : TRec) : Nat := if r.shared && r.sharedWr then r.sharedAmax else r.amax

/-- The valid history entries (R104). -/
def histList (r : TRec) : List Nat := (List.range r.samples).map (fun i => r.hist.getD i 0)

/-- A record with the scale that a maximum gives, if it is above 0 (R103, R104). -/
def rescale (r : TRec) (m : Option Nat) : TRec :=
  match m with
  | some a => if aboveZero a then { r with scale := scaleRule r.fmt a r.margin r.penalty } else r
  | none => r

/-- Words 3 to 9 cleared (R104, R105). -/
def recClear (r : TRec) : TRec :=
  { r with written := false, nonfin := false, sharedWr := false, conv := 0, sat := 0, van := 0, nf := 0, amax := 0, sharedAmax := 0 }

/-- A sample enters the history (R104). -/
def pushHist (r : TRec) : TRec :=
  let h := r.hlenM1 + 1
  let a := sealAmax r
  { r with hist := if a = 0 then r.hist.del r.head else r.hist.put r.head a, head := (r.head + 1) % h,
           samples := if r.samples < h then r.samples + 1 else r.samples }

/-- The clean-run count, of seven bits, and the penalty it lowers (R97, R104). -/
def runClean (r : TRec) : TRec :=
  if r.nonfin then { r with cleanRun := 0 }
  else if (r.cleanRun + 1) % 128 = r.hlenM1 + 1 then { r with cleanRun := 0, penalty := r.penalty - 1 }
  else { r with cleanRun := (r.cleanRun + 1) % 128 }

/-- The CLEAN branch of R104. -/
def sealClean (r : TRec) : TRec :=
  let r := if r.carry && r.written then { r with readScale := r.scale } else r
  if r.auto && r.written then
    let r := runClean (pushHist r)
    let r := rescale r (histMax (histList r))
    if r.samples = r.hlenM1 + 1 then { r with cold := false } else r
  else r

/-- The SKIPPED branch of R104. -/
def sealSkipped (r : TRec) : TRec :=
  if r.auto && (r.nonfin || r.shared) then
    { r with scale := if -128 < r.scale then r.scale - 1 else r.scale, penalty := if r.penalty < 15 then r.penalty + 1 else r.penalty,
             cleanRun := 0, lowers := sat32 r.lowers 1 }
  else r

/-- The MEASURED branch of R104. -/
def sealMeasured (r : TRec) : TRec :=
  if r.auto && r.cold then rescale r (histMax (histList r ++ [sealAmax r])) else r

/-- gov_seal (R104). -/
def sealRec (k : SealKind) (r : TRec) : TRec :=
  let r := match k with
    | .clean => sealClean r
    | .skipped => sealSkipped r
    | .measured => sealMeasured r
  let r := if r.carry then r else { r with readScale := r.scale }
  let r := match k with
    | .measured => r
    | _ => { r with totSat := sat32 r.totSat r.sat, totVan := sat32 r.totVan r.van, totNf := sat32 r.totNf r.nf }
  recClear r

/-- Whether a seal of a SHARED record without a delivered magnitude is reported (R107). -/
def sharedMissing (k : SealKind) (r : TRec) : Bool :=
  r.shared && !r.sharedWr && r.auto &&
    (match k with
     | .clean => r.written
     | .measured => r.cold
     | .skipped => false)

/-- The records that take part: 1 to RECORDS − 1, in ascending ID (R104). -/
def liveRecs (c : Ctl) : List (Nat × TRec) := c.gov.recs.filter (fun e => e.1 != 0 && decide (e.1 < getF c R.GOV_CFG.RECORDS))

/-! ### The ratio (R115) -/

/-- SD, SW of each layer updated, combined across cores in ascending logical core (R115). -/
def layerSums (c : Ctl) : List (Nat × Nat × Nat) :=
  c.gov.layers.foldl (fun acc e =>
    let l := e.1 / 64
    match acc.getLast? with
    | some (l', a, b) => if l' = l then acc.dropLast ++ [(l, addF32 a e.2.1, addF32 b e.2.2)] else acc ++ [(l, e.2.1, e.2.2)]
    | none => [(l, e.2.1, e.2.2)]) []

/-- RATIO of a layer: SD = 0 gives 0 and SW = 0 with SD above 0 gives +∞, whatever the other sum; any other non-finite combination gives NaN (R115). -/
def ratioOf (sd sw : Nat) : Nat :=
  if numIsZero (f32 sd) then 0
  else if numIsZero (f32 sw) && !numIsNaN (f32 sd) then fmtInf .f32 false
  else if codeNonfin .f32 sd || codeNonfin .f32 sw then nanF32
  else sqrtF32 (f32 (divF32 sd sw))

/-! ### Telemetry entries (R116, R117) -/

/-- A 32-byte entry from its first seven words (R117). -/
def telEntry (words : List Nat) : List Byte := (List.range 8).flatMap (fun i => leBytes 4 (words.getD i 0))

/-- Word 0 of an entry. -/
def telHead (typ : Nat) (skipped measured : Bool) (id : Nat) : Nat := typ + bit skipped * 2 ^ 8 + bit measured * 2 ^ 9 + id * 2 ^ 16

/-- Saturating sum of a count over records. -/
def sumCounts (l : List TRec) (f : TRec → Nat) : Nat := l.foldl (fun n r => sat32 n (f r)) 0

/-- The telemetry of a sealed step: `before` are the records as the seal found them, `after` as it left them (R116, R117). -/
def telEntries (step : Nat) (skipped measured clean : Bool) (before after : List (Nat × TRec)) (layers : List (Nat × Nat × Nat)) : List (List Byte) :=
  let fmts := (List.range 5).map (fun f =>
    let l := (before.filter (fun e => e.2.fmt == f)).map (·.2)
    telEntry [telHead 2 skipped measured f, sumCounts l (·.conv), sumCounts l (·.sat), sumCounts l (·.van), sumCounts l (·.nf)])
  let tens := (before.filter (fun e => e.2.written || decide (0 < e.2.nf))).map (fun e =>
    let r := e.2
    let a := ((after.find? (fun x => x.1 == e.1)).map (·.2)).getD r
    telEntry [telHead 3 skipped measured e.1, r.conv, r.sat, r.van, r.nf, sealAmax r,
      byteOfInt a.scale + byteOfInt a.readScale * 2 ^ 8 + bit a.cold * 2 ^ 16 + min 7 a.penalty * 2 ^ 17])
  let lays := layers.map (fun l => telEntry [telHead 4 skipped measured l.1, l.2.1, l.2.2, if clean then ratioOf l.2.1 l.2.2 else 0])
  let rest := fmts ++ tens ++ lays
  telEntry [telHead 1 skipped measured 0, step % 2 ^ 32, step / 2 ^ 32, rest.length] :: rest

/-! ### Threshold events (R118, R119) -/

/-- A threshold event: kind, ID, value (R119). -/
abbrev ThEvent := Nat × Nat × Nat

/-- Share events of a kind (R118). -/
def shareEvents (kind th minConv : Nat) (f : TRec → Nat) (l : List (Nat × TRec)) : List ThEvent :=
  if th = 0 then []
  else (l.filter (fun e => decide (minConv ≤ e.2.conv) && decide (th * e.2.conv < f e.2 * 2 ^ 24))).map (fun e => (kind, e.1, f e.2))

/-- The threshold events of a seal, in order (R118). -/
def thEvents (c : Ctl) (k : SealKind) (l : List (Nat × TRec)) (layers : List (Nat × Nat × Nat)) : List ThEvent :=
  let mc := getF c R.GOV_TH_MINCONV.MIN
  let shares := shareEvents 1 (getF c R.GOV_TH_SAT.SHARE) mc (·.sat) l ++ shareEvents 2 (getF c R.GOV_TH_VAN.SHARE) mc (·.van) l
  let hi := f32 (getF c R.GOV_TH_RATIO_HI.RATIO)
  let lo := f32 (getF c R.GOV_TH_RATIO_LO.RATIO)
  let rs := layers.map (fun x => (x.1, ratioOf x.2.1 x.2.2))
  let highs := if numIsZero hi then [] else
    (rs.filter (fun x => codeNonfin .f32 x.2 && numIsNaN (f32 x.2) || numLt hi (f32 x.2))).map (fun x => (3, x.1, x.2))
  let lows := if numIsZero lo then [] else (rs.filter (fun x => numLt (f32 x.2) lo)).map (fun x => (4, x.1, x.2))
  match k with
  | .clean => shares ++ highs ++ lows
  | .skipped => shares
  | .measured => []

/-- A GOVERNOR event (R119, R455). -/
def govEvent (kind id value : Nat) (c : Ctl) : Ctl := raise evGovernor kind srcGovernor (id % 65536 + value % 2 ^ 32 * 2 ^ 16) c

/-- At most 64 threshold events; the rest as one EVENT_LIMIT (R118). -/
def raiseTh (l : List ThEvent) (c : Ctl) : Ctl :=
  let c := (l.take 64).foldl (fun c e => govEvent e.1 e.2.1 e.2.2 c) c
  if 64 < l.length then govEvent 7 0 (l.length - 64) c else c

/-- The governor at a seal: events, telemetry, every record, the step's counts gone (R104, R107, R115 to R118). DESIGN CHOICE (log entry 176): the SHARED_MISSING events come before the threshold events. -/
def govSeal (k : SealKind) (c : Ctl) : Ctl :=
  let before := liveRecs c
  let layers := layerSums c
  let c := before.foldl (fun c e => if sharedMissing k e.2 then govEvent 5 e.1 e.2.amax c else c) c
  let c := raiseTh (thEvents c k before layers) c
  let after := before.map (fun e => (e.1, sealRec k e.2))
  let measured := getB c R.GOV_STATUS.MEASURING
  let tel := telEntries (getF c R.STEP_NOW.STEP) (k == .skipped) measured (k == .clean) before after layers
  let c := { c with gov := { recs := after, layers := [], tel := if getF c R.GOV_TEL_SIZE.ENTRIES = 0 then [] else tel } }
  setB R.GOV_STATUS.NONFIN_STEP false c

/-- The governor at a boundary that abandons a step: words 3 to 9 cleared, nothing else (R105). -/
def govAbandon (c : Ctl) : Ctl :=
  setB R.GOV_STATUS.NONFIN_STEP false
    { c with gov := { c.gov with recs := c.gov.recs.map (fun e => (e.1, recClear e.2)), layers := [] } }

/-! ### The telemetry ring (R116, R126) -/

/-- Entries of a ring of `size` that are free between head and tail: one stays unused, so that a full ring does not read as empty (log entry 13). -/
def ringFree (size head tail : Nat) : Nat := size - 1 - (head + size - tail % size) % size

/-- The entries of the last seal written to the ring from HEAD on (R116). -/
def telStore (base size head : Nat) (l : List (List Byte)) (d : Dev) : Dev :=
  ((List.range l.length).zip l).foldl (fun d x =>
    (writeUnit (base + 32 * ((head + x.1) % size)) x.2 .nobody d).1) d

/-- GOV_TEL_WRITE: the entries are written and HEAD advances past them at once, or all are dropped (R116). DESIGN CHOICE (log entry 175): those of a replayed step are appended like any others, and no earlier entry of that step is overwritten. -/
def telWrite (d : Dev) : Dev :=
  let l := d.c.gov.tel
  let size := getF d.c R.GOV_TEL_SIZE.ENTRIES
  let d0 := onCtl (fun c => { c with gov := { c.gov with tel := [] } }) d
  if l.isEmpty || size == 0 then d0
  else
    let head := getF d.c R.GOV_TEL_HEAD.HEAD
    if ringFree size head (getF d.c R.GOV_TEL_TAIL.TAIL) < l.length then
      onCtl (fun c =>
        let step := leNat (((l.headD []).drop 4).take 4)
        govEvent 6 0 step (setB R.GOV_STATUS.TEL_DROP true (satF R.GOV_TEL_DROPS.COUNT 1 c))) d0
    else
      let d := telStore (getF d.c R.GOV_TEL_BASE.BASE * 256) size head l d0
      onCtl (fun c => cause 18 (setF R.GOV_TEL_HEAD.HEAD ((head + l.length) % size) c)) d

/-- GOV_TEL_SIZE written: the ring size, and HEAD 0 (R126). -/
def telSizeWrite (v : Word) (c : Ctl) : Ctl := setF R.GOV_TEL_HEAD.HEAD 0 (setF R.GOV_TEL_SIZE.ENTRIES v.toNat c)

/-- GOV_REC_DATA_WRITE, while the governor is READY. -/
def execGovRecDataWrite (v : Word) (s : State) : Host.Outcome State Fault Refusal := runCtl (whenReady 6 (recDataWrite v)) s

/-- GOV_TEL_WRITE: in the step that follows the seal. -/
def execGovTelWrite (s : State) : Host.Outcome State Fault Refusal :=
  runDev (fun d => if mainReady d.c 6 && stepOpen d.c then telWrite d else d) s

/-- GOV_TEL_SIZE_WRITE. -/
def execGovTelSizeWrite (v : Word) (s : State) : Host.Outcome State Fault Refusal := runCtl (whenReady 6 (telSizeWrite v)) s

end Sys2Proof.Machine
end

