-- ==== Sys2Proof/Machine/Heddle.lean ====
section
/-! DEFINITION. The heddle map as bytes, for the attestation report and the state section (R436, R352). -/

namespace Sys2Proof.Machine

/-- GRADE code (R1). -/
def gradeCode : Grade → Nat
  | .a64 => 1
  | .b48 => 2

/-- Half-word of physical core p (R436). -/
def heddleCore (c : Ctl) (p : Nat) : Nat :=
  let s := coreSlot c p
  match s.logical with
  | some l => l % 64 + 2 ^ 6 + s.state * 2 ^ 8
  | none => s.state * 2 ^ 8

/-- ENG_COLMAP of engine e of physical core p. -/
def colMap (c : Ctl) (p e : Nat) : Nat := (getReg c (R.ENG_COLMAP.adr + 0x10000 * p + 0x1000 * e)).toNat

/-- Half-word of physical port p: PORT_STATUS[19:12] and DOWN_CAUSE (R436). -/
def heddlePort (c : Ctl) (p : Nat) : Nat :=
  (getReg c (portF R.PORT_STATUS.STATE p).off).toNat / 2 ^ 12 % 2 ^ 8 + getF c (portF R.PORT_STATUS.DOWN_CAUSE p) % 16 * 2 ^ 8

/-- The 12 KiB of the heddle map (R436). -/
def heddleMap (c : Ctl) : List Byte :=
  let part1 := (List.range 72).flatMap (fun p => leBytes 2 (heddleCore c p)) ++ zeros 112
  let part2 := (List.range 288).flatMap (fun i => leBytes 8 (colMap c (i / 4) (i % 4)))
  let part3 := (List.range 256).flatMap (fun n => leBytes 2 ((getReg c (chF R.HBM_CH_MAP.LOGICAL n).off).toNat % 2 ^ 11))
  let part4 := (List.range 5).flatMap (fun f => leBytes 2 ((getReg c (idxF R.MP_FB_SLOT.USED 4 f).off).toNat % 2 ^ 9)) ++ zeros 6
  let part5 := (List.range 38).flatMap (fun p => leBytes 2 (heddlePort c p)) ++ zeros 4
  let part6 := (List.range 38).flatMap (fun p => leBytes 2 ((getReg c (portF R.PORT_LANES.TX_ACTIVE p).off).toNat / 2 ^ 16 % 2 ^ 16)) ++ zeros 4
  let part7 := (List.range 7).flatMap (fun e => leBytes 1 ((getReg c (portF R.LPE_STATUS.ACTIVE e).off).toNat % 2 ^ 5))
  part1 ++ part2 ++ part3 ++ part4 ++ part5 ++ part6 ++ part7 ++ zeros 9033

end Sys2Proof.Machine
end

