-- ==== Sys2Proof/Machine/Recv.lean ====
section
/-! DEFINITION. How a frame comes in: the ingress delay of tension (R468), the checks of R255, then the handler of its class and type. -/

namespace Sys2Proof

/-- A received frame with the class and type of the command it comes under. -/
def Rx.typed (rx : Rx) (cls type : Nat) : Rx :=
  { rx with frame := { rx.frame with hdr := { rx.frame.hdr with cls := BitVec.ofNat 3 cls, type := BitVec.ofNat 8 type } } }

/-- The fields of a frame that handlers use. -/
def Rx.peer (rx : Rx) : Nat := rx.frame.hdr.src.toNat
def Rx.tag (rx : Rx) : Nat := rx.frame.hdr.tag.toNat
def Rx.arg (rx : Rx) : Nat := rx.frame.hdr.arg.toNat
def Rx.addr (rx : Rx) : Nat := rx.frame.hdr.addr.toNat
def Rx.status (rx : Rx) : Nat := rx.frame.hdr.status.toNat
/-- Words 4 and 5 of the header. -/
def Rx.word4 (rx : Rx) : Nat := rx.addr % 2 ^ 32
def Rx.word5 (rx : Rx) : Nat := rx.addr / 2 ^ 32

end Sys2Proof

namespace Sys2Proof.Machine

/-- What handles a delivered frame: the number of frames found lost before it, and the frame. -/
abbrev Handler := Nat → Rx → Dev → Dev

/-- A frame meets the checks of R255; a frame that passes them is handled. The event of frames found lost before it and what its handling raises are of one cycle (R456). -/
def receive (h : Handler) (rx : Rx) (d : Dev) : Dev :=
  let r := selvedge rx d.c
  if r.2.lost = 0 then (if r.2.deliver then h 0 rx { d with c := r.1 } else { d with c := r.1 })
  else inCycleDev (fun d => let r := selvedge rx d.c; h r.2.lost rx { d with c := r.1 }) d

/-- The ingress delay in force on physical port p, in nanoseconds (R468). -/
def ingressDelay (c : Ctl) (p : Nat) : Nat := tenF c (idxF R.TEN_PORT_DELAY.DELAY_NS 4 p)

/-- Whether a frame that arrives on physical port p is held: a delay is in force, or frames are held before it (R468). -/
def ingressHolds (c : Ctl) (p : Nat) : Bool := decide (0 < ingressDelay c p) || c.ingress.any (fun r => r.port == p)

/-- A frame of a class and type arrives from a link. -/
def arrive (cls type : Nat) (h : Handler) (rx : Rx) (d : Dev) : Dev :=
  let rx := rx.typed cls type
  if ingressHolds d.c rx.port then
    { d with c := { d.c with ingress := d.c.ingress ++ [{ rx with time := rx.time + ingressDelay d.c rx.port }] } }
  else receive h rx d

/-- A frame to a peer is sent only while both ends have admitted each other (R252). -/
def sendAdmitted (o : Out) (c : Ctl) : Ctl := if peerIs c o.dst 2 then sendAny o c else c

end Sys2Proof.Machine
end

