-- ==== Sys2Proof/Machine/Sluice.lean ====
section
/-! DEFINITION. The sluice and the memory channels (spec/07_hbm_and_millpond.md): channel moves and re-keys (R209, R213, R214, R216), the snapshot copy loop (R210, R211), calibration, scrubs, retraining (R199, R212, R213), hotspots (R215). -/

namespace Sys2Proof.Machine

/-- Units of a move job (R209). -/
def moveEndUnit : Nat := 11184811

/-- The sluice's state changed. -/
def onSlu (f : Sluice → Sluice) (c : Ctl) : Ctl := { c with slu := f c.slu }

/-! ### Layout -/

/-- The HBM address of local index q of logical channel l under a salt; none where the partial group gives it no granule (R201, R202). -/
def granuleAddr (c : Ctl) (l q salt : Nat) : Option Nat :=
  let n := channels c.fuses.grade
  let off := (hbmPlace (q * n * 256) salt n).1
  let a := (q * n + (l + n - off) % n) * 256
  if a < hbmEnd c.fuses.grade then some a else none

/-- Free spare channels of stack s, ascending (R200, R225). -/
def spareChannels (c : Ctl) (s : Nat) : List Nat :=
  ((List.range 32).map (fun i => 32 * s + i)).filter (fun n => getF c (chF R.HBM_CH_MAP.STATE n) == 1)

/-- The home stack of a logical channel (R200). -/
def homeStack (l : Nat) : Nat := l / 30

/-- Whether a fallback slot holds spill entries (R214, R401). -/
def slotSpilled (c : Ctl) (f : Nat) : Bool :=
  c.slu.spill.any (fun e => decide (slotAddr f 0 ≤ e.home) && decide (e.home < slotAddr (f + 1) 0))

/-- Slots that hold no channel. -/
def emptySlots (c : Ctl) : List Nat := (List.range 5).filter (fun f => !getB c (idxF R.MP_FB_SLOT.USED 4 f))

/-- SPARES_FREE and FALLEN of stack s as the table now stands (R224). -/
def stackCounts (s : Nat) (c : Ctl) : Ctl :=
  let fallen := ((List.range 5).filter (fun f => getB c (idxF R.MP_FB_SLOT.USED 4 f) &&
    getF c (idxF R.MP_FB_SLOT.LOGICAL 4 f) / 30 == s)).length
  setF (hbmF R.HBM_STATUS.FALLEN s) fallen (setF (hbmF R.HBM_STATUS.SPARES_FREE s) (spareChannels c s).length c)

/-! ### Channel moves (R209, R213, R214) -/

/-- A channel move begins from the channel's present home to a destination (R209, R220). -/
def chBegin (l : Nat) (dst : ChHome) (c : Ctl) : Ctl :=
  let src := chHome c l
  let num (h : ChHome) : Nat := match h with | .phys n => n | .slot f => f
  let fb (h : ChHome) : Nat := match h with | .phys _ => 0 | .slot _ => 1
  let w := l * 2 ^ 24 + num src * 2 ^ 32 + num dst * 2 ^ 40 + fb src * 2 ^ 48 + fb dst * 2 ^ 49
  let c := setB R.SLU_STATUS.CHMOVE_ACTIVE true (setReg R.SLU_CHMOVE.adr (BitVec.ofNat 64 w) c)
  let c := match src with | .phys n => setF (chF R.HBM_CH_MAP.STATE n) 2 c | .slot _ => c
  let c := match dst with
    | .phys n => stackCounts (n / 32) (setF (chF R.HBM_CH_MAP.LOGICAL n) l (setF (chF R.HBM_CH_MAP.STATE n) 3 c))
    | .slot _ => c
  onSlu (fun s => { s with chLive := true, chDone := false, chWait := s.chWait.filter (· != l) }) c

/-- A channel waits for its move. -/
def chQueue (l : Nat) (c : Ctl) : Ctl := if c.slu.chWait.contains l then c else onSlu (fun s => { s with chWait := s.chWait ++ [l] }) c

/-- The fallback slot that a channel takes: the lowest that holds neither a channel nor spill entries (R214). -/
def freeSlot (c : Ctl) : Option Nat := (emptySlots c).find? (fun f => !slotSpilled c f)

/-- CHANNEL_MOVE_START: to the lowest free spare of the stack, else to the lowest free fallback slot; a move that another move or spilled data holds up waits (R213, R214). A channel that finds no place is not moved: it is no longer to be retired. -/
def chStart (l : Nat) (c : Ctl) : Ctl :=
  if channels c.fuses.grade ≤ l then c
  else if c.slu.chLive then chQueue l c
  else match spareChannels c (homeStack l), freeSlot c, emptySlots c with
    | n :: _, _, _ => chBegin l (.phys n) c
    | [], some f, _ =>
      (match chHome c l with
       | .slot _ => c
       | .phys _ => chBegin l (.slot f) c)
    | [], none, _ :: _ =>
      (match chHome c l with
       | .slot _ => c
       | .phys _ => chQueue l c)
    | [], none, [] =>
      let c := match chHome c l with
        | .phys n => noSpare (srcChannel n) (onFan (fun s => { s with retiring := s.retiring.filter (· != n) }) c)
        | .slot _ => c
      onSlu (fun s => { s with chWait := s.chWait.filter (· != l) })
        (raise evMemory 0x08 (srcStack (homeStack l)) 0 (setB (hbmF R.HBM_STATUS.NO_FALLBACK (homeStack l)) true c))

/-- The physical stack in whose channels a home of logical channel l lies: the home stack, for a fallback slot (R200, R214). -/
def homeStackOf (l : Nat) : ChHome → Nat
  | .phys n => n / 32
  | .slot _ => homeStack l

/-- A move job's read of a granule of 256 bytes at HBM address a, key and what it finds: the bytes, and whether they are uncorrectable (R199, R209). -/
def jobRead (d : Dev) (key : Nat) : List Byte × Bool := (maskPoison d.c key (readBytes d.m key 256), poisoned d.c key 256)

/-- The granule of logical channel l at offset w moves, from local address a: a write to a stack in WRITE_STOP waits for it to end, or takes a spill entry (R209, R401). -/
def chCopyAt (l w a : Nat) (d : Dev) : Dev :=
  let s := homeStackOf l (moveEnd d.c true)
  if sluiceWaits d.c [(a, s)] then onCtl (sluiceFull [(a, s)]) d
  else
    let src := granuleKey a w (moveEnd d.c false)
    let g := jobRead d src
    let dst := granuleKey a w (moveEnd d.c true)
    let d := onCtl (fun c =>
      readErrors a src 256 (serveGranule l (moveEnd c true) (serveGranule l (moveEnd c false) (chargeBytes 5 512 c)))) d
    onCtl (setF R.SLU_CHMOVE.W (w + 1)) (sluicePut s a dst g.1 g.2 d)

/-- One granule of the moved channel copied, poison included, a read at the source and a write at the destination, both charged to SNAP; the watermark advances (R199, R204, R209, R215). A write that the destination stack may not perform waits or goes to the spill (R401; log entry 164). -/
def chCopy (d : Dev) : Dev :=
  let w := getF d.c R.SLU_CHMOVE.W
  let l := getF d.c R.SLU_CHMOVE.LOGICAL
  if !d.c.slu.chLive || d.c.slu.chDone || moveEndUnit ≤ w then d
  else
    match granuleAddr d.c l w (saltFor d.c w) with
    | some a => chCopyAt l w a d
    | none => onCtl (setF R.SLU_CHMOVE.W (w + 1)) d

/-- CHANNEL_MOVE_COMPLETE: the copy loop has ended; the sluice routes to the destination until the boundary (R209). -/
def chComplete (c : Ctl) : Ctl :=
  if c.slu.chLive && !c.slu.chDone && getF c R.SLU_CHMOVE.W == moveEndUnit then
    setB R.SLU_STATUS.CHMOVE_ACTIVE false (onSlu (fun s => { s with chDone := true }) c)
  else c

/-- The heddle map takes a completed channel move at a boundary: the source channel leaves the data path for retraining (R13, R209, R213). -/
def chBoundary (c : Ctl) : Ctl :=
  if !c.slu.chDone then c
  else
    let l := getF c R.SLU_CHMOVE.LOGICAL
    let c0 := c
    let c := match moveEnd c0 false with
      | .phys n => setF (chF R.HBM_CH_MAP.STATE n) 4 c
      | .slot f => setB (idxF R.MP_FB_SLOT.USED 4 f) false c
    let c := match moveEnd c0 true with
      | .phys n => setF (chF R.HBM_CH_MAP.LOGICAL n) l (setF (chF R.HBM_CH_MAP.STATE n) 0 c)
      | .slot f => setF (idxF R.MP_FB_SLOT.LOGICAL 4 f) l (setB (idxF R.MP_FB_SLOT.USED 4 f) true c)
    stackCounts (homeStack l) (onSlu (fun s => { s with chLive := false, chDone := false }) c)

/-- RETRAIN: an evacuated channel becomes a free spare, or is retired (R213). -/
def retrainChannel (n : Nat) (pass : Bool) (c : Ctl) : Ctl :=
  if n < 256 ∧ getF c (chF R.HBM_CH_MAP.STATE n) = 4 then
    stackCounts (n / 32) (setF (chF R.HBM_CH_MAP.STATE n) (if pass then 1 else 5) c)
  else c

/-! ### Re-keys (R209, R216) -/

/-- A re-key is requested; one asked for while a re-key runs is held until it ends (R216). DESIGN CHOICE (log entry 147): REKEY_PENDING stays 0 while a request is held, and becomes 1 when the re-key that holds it ends. -/
def rekeyRequest (c : Ctl) : Ctl :=
  if c.slu.rkLive then onSlu (fun s => { s with rkHeld := true }) c else setB R.SLU_STATUS.REKEY_PENDING true c

/-- A pending re-key starts at a snapshot boundary (R216). -/
def rekeyStart (c : Ctl) : Ctl :=
  if getB c R.SLU_STATUS.REKEY_PENDING && !c.slu.rkLive then
    let c := onSlu (fun s => { s with rkLive := true, rkDone := false, rkSalt := getReg c R.SLU_NEWSALT.adr }) c
    setF R.SLU_REKEY.W 0 (setB R.SLU_STATUS.REKEY_ACTIVE true (setB R.SLU_STATUS.REKEY_PENDING false c))
  else c

/-- The granules of group q: addresses with their home keys as routed by `c` (R201, R209). -/
def groupKeys (c : Ctl) (q : Nat) : List (Nat × Nat) :=
  let n := channels c.fuses.grade
  ((List.range n).map (fun r => (q * n + r) * 256)).filterMap (fun a =>
    if a < hbmEnd c.fuses.grade then
      let r := hbmRoute c a
      some (a, granuleKey a r.2 (chRoute c r.1 r.2))
    else none)

/-- A granule of a re-key read or written at HBM address a where the routing now puts it: 256 bytes charged to SNAP (R204, R215). -/
def rekeyCharge (a : Nat) (c : Ctl) : Ctl :=
  let r := hbmRoute c a
  serveGranule r.1 (chRoute c r.1 r.2) (chargeBytes 5 256 c)

/-- The granules of group q with the stacks to which they go. -/
def groupStacks (c : Ctl) (q : Nat) : List (Nat × Nat) := (groupKeys c q).map (fun x => (x.1, hbmStack c x.1))

/-- One group read in full under the old salt and written in full to where the new salt puts its granules; the watermark advances (R209). Writes that WRITE_STOP forbids wait, and the group with them, or go to the spill (R401; log entry 164). -/
def rekeyCopy (d : Dev) : Dev :=
  let w := getF d.c R.SLU_REKEY.W
  if !d.c.slu.rkLive || d.c.slu.rkDone || moveEndUnit ≤ w then d
  else
    let dest := groupStacks (setF R.SLU_REKEY.W (w + 1) d.c) w
    if sluiceWaits d.c dest then onCtl (sluiceFull dest) d
    else
      let old := groupKeys d.c w
      let data := old.map (fun x => jobRead d x.2)
      let d := onCtl (fun c => setF R.SLU_REKEY.W (w + 1) (old.foldl (fun c x => readErrors x.1 x.2 256 (rekeyCharge x.1 c)) c)) d
      (List.zip (groupKeys d.c w) data).foldl (fun d x => sluicePut (hbmStack d.c x.1.1) x.1.1 x.1.2 x.2.1 x.2.2 (onCtl (rekeyCharge x.1.1) d)) d

/-- REKEY_COMPLETE: the copy loop has ended; routing stays by the watermark until the boundary (R216). -/
def rekeyComplete (c : Ctl) : Ctl :=
  if c.slu.rkLive && !c.slu.rkDone && getF c R.SLU_REKEY.W == moveEndUnit then
    setB R.SLU_STATUS.REKEY_ACTIVE false (onSlu (fun s => { s with rkDone := true }) c)
  else c

/-- SLU_SALT takes the new value at the boundary after the job; a held request becomes pending (R216). -/
def rekeyBoundary (c : Ctl) : Ctl :=
  if !c.slu.rkDone then c
  else
    let held := c.slu.rkHeld
    let c := setReg R.SLU_SALT.adr c.slu.rkSalt c
    let c := onSlu (fun s => { s with rkLive := false, rkDone := false, rkHeld := false }) c
    if held then rekeyRequest c else c

/-! ### The snapshot copy loop (R210, R211) -/

/-- Lines of the persistent shard (R210). -/
def shardLines (c : Ctl) : Nat := imageBytes c / lineBytes

/-- A snapshot job of the sealed step starts with the digest of the image (R211, R325). -/
def snapStart (step : Nat) (dg : Nat × Nat) (c : Ctl) : Ctl :=
  let c := setReg R.SLU_SNAP.adr (BitVec.ofNat 64 (shardLines c * 2 ^ 32)) c
  let c := setF R.SLU_SNAP_STEP.STEP step (setB R.SLU_STATUS.SNAP_VALID false (setB R.SLU_STATUS.SNAP_ACTIVE true c))
  onSlu (fun s => { s with copied := [], snapDig := dg, snapBad := false }) c

/-- A rollback aborts a running job; the image is invalid (R211). -/
def snapAbort (c : Ctl) : Ctl :=
  if getB c R.SLU_STATUS.SNAP_ACTIVE then
    setB R.SLU_STATUS.SNAP_ABORTED true (setB R.SLU_STATUS.SNAP_ACTIVE false c)
  else c

/-- SNAPSHOT_LINE_COPY: the copy loop skips a line copied already, and copies the next one (R210). -/
def snapLine (d : Dev) : Dev :=
  let w := getF d.c R.SLU_SNAP.W
  if !getB d.c R.SLU_STATUS.SNAP_ACTIVE || getF d.c R.SLU_SNAP.LINES ≤ w then d
  else
    let d := if d.c.slu.copied.contains w then d else copyLine w d
    onCtl (fun c => setF R.SLU_SNAP.W (w + 1) (onSlu (fun s => { s with copied := s.copied.filter (fun i => decide (w < i)) }) c)) d

/-- Whether the copy loop has ended. -/
def snapLinesDone (c : Ctl) : Bool :=
  getB c R.SLU_STATUS.SNAP_ACTIVE && getF c R.SLU_SNAP.W == getF c R.SLU_SNAP.LINES

/-! ### Calibration, scrub (R199, R212) -/

/-- The home key of a local address at its own channel or package, spilled or not. -/
def scrubKey (c : Ctl) (a : Nat) : Nat :=
  if a < millBase then
    let r := hbmRoute c a
    granuleKey a r.2 (chRoute c r.1 r.2) + a % 256
  else a

/-- What a scrub finds at a home key: an error that is there already, else what it comes upon (R199). -/
def scrubFinds (c : Ctl) (key : Nat) (f : ScrubFinding) : ScrubFinding :=
  if poisoned c (key / 32 * 32) 32 then .uncorrectable else if c.soft.any (fun k => k / 32 == key / 32) then .corrected else f

/-- SCRUB of the 32 bytes at a local address: a correctable error is corrected in place and counted; an uncorrectable one is counted and reported like any uncorrectable read, and stays where it is, with no poison pattern written (R199). -/
def scrubAt (a : Nat) (f : ScrubFinding) (c : Ctl) : Ctl :=
  if !(decide (a < hbmEnd c.fuses.grade) || (decide (millBase ≤ a) && decide (a < 0x18000000000))) then c
  else
    let key := scrubKey c a
    let src := errSource c a key
    match scrubFinds c key f with
    | .clean => c
    | .corrected => correctedAt src { c with soft := c.soft.filter (fun k => k / 32 != key / 32) }
    | .uncorrectable => uncorrectable src a (if poisoned c (key / 32 * 32) 32 then c else upset ⟨key, false⟩ c)

/-! ### Hotspots (R215) -/

/-- The counts of the ending beat: HBM_OCC, the hottest channel, the run of hot beats (R215, R222, R225). -/
def hotCount (c : Ctl) : Ctl :=
  let n := channels c.fuses.grade
  let c := forN (32 * stackCount c.fuses.grade) (fun i c => setF (chF' i) (c.slu.occP.getD i 0) c) c
  let cnt := fun l => c.slu.occL.getD l 0
  let best := (List.range n).foldl (fun b l => if cnt b < cnt l then l else b) 0
  let sum := (List.range n).foldl (fun s l => s + cnt l) 0
  let ratio := getF c R.MEM_HOT_CFG.RATIO
  let hot := decide (ratio ≠ 0) && decide (sum * ratio < cnt best * 64 * n)
  let c := setF R.MEM_HOT_STATUS.CHANNEL best c
  let c := if hot then satF R.MEM_HOT_STATUS.RUN 1 c else setF R.MEM_HOT_STATUS.RUN 0 c
  onSlu (fun s => { s with occL := [], occP := [], calib := [] }) c
where
  chF' (i : Nat) : Fld := R.HBM_OCC.GRANULES.at (0x40000 * (i / 32) + 4 * (i % 32))

/-- HOTSPOT, whose source is the physical channel that carries the hottest one by the map in force when the command runs, after the boundary (DESIGN CHOICE, log entry 148): a run of BEATS hot beats raises the event and restarts; AUTO_REKEY asks for a re-key to a salt of Ahnaskip's choice, unless one runs (R215, R216). -/
def hotspotDue (c : Ctl) : Ctl :=
  let run := getF c R.MEM_HOT_STATUS.RUN
  if run = 0 ∨ run < max 1 (getF c R.MEM_HOT_CFG.BEATS) then c
  else
    let l := getF c R.MEM_HOT_STATUS.CHANNEL
    let src := match chHome c l with | .phys n => srcChannel n | .slot _ => srcDevice
    let c := raise evHotspot 0x01 src (l + run * 2 ^ 8) (setF R.MEM_HOT_STATUS.RUN 0 c)
    if getB c R.SLU_CTRL.AUTO_REKEY && !c.slu.rkLive then
      rekeyRequest (drawn (setReg R.SLU_NEWSALT.adr ((freeValue c).setWidth 64) c))
    else c

/-! ### Commands -/

/-- SNAPSHOT_LINE_COPY. -/
def execSnapshotLineCopy (s : State) : Host.Outcome State Fault Refusal := runDev snapLine s

/-- CHANNEL_MOVE_START. -/
def execChannelMoveStart (l : Nat) (s : State) : Host.Outcome State Fault Refusal := runCtl (whenReady 8 (chStart l)) s

/-- MOVE_JOB_UNIT_COPY. -/
def execMoveJobUnitCopy (job : MoveJob) (s : State) : Host.Outcome State Fault Refusal :=
  runDev (match job with | .channel => chCopy | .rekey => rekeyCopy) s

/-- CHANNEL_MOVE_COMPLETE. -/
def execChannelMoveComplete (s : State) : Host.Outcome State Fault Refusal := runCtl chComplete s

/-- SCRUB. -/
def execScrub (a : Nat) (f : ScrubFinding) (s : State) : Host.Outcome State Fault Refusal := runCtl (scrubAt a f) s

/-- REKEY_REQ. -/
def execRekeyReq (s : State) : Host.Outcome State Fault Refusal := runCtl (whenReady 8 rekeyRequest) s

/-- REKEY_COMPLETE. -/
def execRekeyComplete (s : State) : Host.Outcome State Fault Refusal := runCtl rekeyComplete s

/-- HOTSPOT. -/
def execHotspot (s : State) : Host.Outcome State Fault Refusal := runCtl hotspotDue s

end Sys2Proof.Machine
end

