-- ==== Sys2Proof/Machine/Snap.lean ====
section
/-! DEFINITION. Images (spec/11_snapshots_and_checkpoints.md): their layout (R350 to R353), capture at the snapshot boundary (R354, R355), completion of the snapshot job (R211, R356), the mirror drain at the sender and the holder (R327, R357 to R360). -/

namespace Sys2Proof.Machine

/-- The snapshot state changed. -/
def onSnap (f : SnapSt → SnapSt) (c : Ctl) : Ctl := { c with snap := f c.snap }

/-! ### Where images lie (R350, R351) -/

/-- SH, the size of the shard part. -/
def shardBytes (c : Ctl) : Nat := imageBytes c

/-- S_B, the size of the state section (R351). -/
def stateBytes (c : Ctl) : Nat := 0x508000 + getF c R.IMG_CFG.STATE_TILES * 0x21000

/-- Bytes of an image. -/
def imageLen (c : Ctl) : Nat := shardBytes c + stateBytes c

/-- Local address of state area k in the millpond: 0 STATE_L, 1 STATE_M0, 2 STATE_M1 (R351). -/
def stateArea (c : Ctl) (k : Nat) : Nat :=
  let s := (stateBytes c + 0xFFFFF) / 0x100000 * 0x100000
  regionBase c 3 + getF c (idxF R.MP_REGION.SIZE 8 3) * gib - (3 - k) * s

/-- Local address of image offset o in copy k: 0 the local copy, 1 and 2 the mirror images. -/
def copyAddr (c : Ctl) (k o : Nat) : Nat :=
  if o < shardBytes c then regionBase c k + o else stateArea c k + (o - shardBytes c)

/-- Local address of byte o of the capture buffer: the start of HBM partition SNAP (R351). -/
def captureAddr (c : Ctl) (o : Nat) : Nat := getF c (idxF R.MEM_PART.BASE 8 5) * gib + o

/-- Bytes read by the sluice and the drains, in pieces that cross no 256-byte boundary. -/
def readPieces (d : Dev) : List (Nat × Nat) → List Byte × Dev
  | [] => ([], d)
  | (a, n) :: l =>
    let r := readUnit d.m a n d.c
    let t := readPieces { d with c := r.2.2 } l
    (r.1 ++ t.1, t.2)

/-- n bytes from local address a, a multiple of 256. -/
def readLong (a n : Nat) (d : Dev) : List Byte × Dev :=
  readPieces d ((List.range ((n + 255) / 256)).map (fun i => (a + 256 * i, min 256 (n - 256 * i))))

/-- Bytes written from local address a, a multiple of 256, in pieces of 256. -/
def writeLong (a : Nat) (data : List Byte) (d : Dev) : Dev :=
  ((chunksOf 256 ((data.length + 255) / 256) data).foldl (fun x bs => (x.1 + 256, (writeUnit x.1 bs .nobody x.2).1)) (a, d)).2

/-! ### The state section (R352) -/

/-- What the state section says of logical core l: bytes that `f` gives of the physical core that serves it, zeros where none does. -/
def coreField (c : Ctl) (n l : Nat) (f : Nat → List Byte) : List Byte :=
  match physCore c l with
  | some p => f p
  | none => zeros n

/-- The trim table of the draft in force (R361). -/
def trimTable (c : Ctl) : List (Nat × Nat) := if getF c R.IMG_CFG.TAIL_STEPS = 0 then [] else (c.job.map (·.snap.trim)).getD []

/-- A governor record as 320 bytes (R97, R352). -/
def recBytes (r : TRec) : List Byte := (List.range 80).flatMap (fun w => leBytes 4 (recWord r w))

/-- The state section without its tile dumps, of the sealed step u with n dumps (R352). -/
def sectionBytes (c : Ctl) (u n : Nat) : List Byte :=
  let dg := c.slu.snapDig
  let trim := trimTable c
  let head := leBytes 8 0x0001535441544553 ++ leBytes 8 u ++ leBytes 2 ((mySeat c).getD 0) ++ leBytes 1 0 ++ leBytes 1 1 ++
    leBytes 4 (getF c R.PLACE_STATUS.ROSTER_VER) ++ leBytes 8 (getF c R.GOV_SEED.SEED) ++ leBytes 8 (shardBytes c) ++
    leBytes 8 (stateBytes c) ++ leBytes 8 dg.1 ++ leBytes 8 dg.2 ++ leBytes 2 (lcores c.fuses.grade) ++ leBytes 2 n ++
    leBytes 1 (getF c R.GOV_STATUS.MEAS_LEFT) ++ leBytes 1 trim.length ++ zeros 186
  let table := (List.range 64).flatMap (fun i => let e := trim.getD i (0, 0); leBytes 4 e.1 ++ leBytes 4 e.2)
  let counts := (List.range 64).flatMap (fun l => coreField c 128 l (fun p => (List.range 32).flatMap (fun k => leBytes 4 (cntOf c p k))))
  let pos := (List.range 64).flatMap (fun l => coreField c 48 l (fun p =>
    (List.range 6).flatMap (fun t => leBytes 8 (getReg c (trF R.TR_POS.WORD p t).off).toNat)))
  let loc := (List.range 64).flatMap (fun l => coreField c 8 l (fun p => leBytes 8 (localFlags c p).toNat))
  let gov := (List.range 16384).flatMap (fun i => recBytes (recAt c i))
  head ++ table ++ zeros 3328 ++ counts ++ pos ++ zeros 1024 ++ loc ++ leBytes 512 c.chip.toNat ++ zeros 3072 ++ heddleMap c ++ gov

/-! ### Capture (R354, R355) -/

/-- The slots whose IN_USE is 1, in the order of dumps: ascending logical core, engine, slot (R352). -/
def slotsInUse (c : Ctl) : List Nat :=
  (List.range (lcores c.fuses.grade)).flatMap (fun l =>
    match physCore c l with
    | some p => ((List.range 32).filter (fun k => getB c { tileStatus p (k / 8) (k % 8) with lo := 8, w := 1 })).map (fun k => slotKey p (k / 8) (k % 8))
    | none => [])

/-- The capture at a boundary at which a snapshot job of step u starts: the section is written into the capture buffer, and read-out of the tile slots begins (R354, R355). -/
def capture (u : Nat) (d : Dev) : Dev :=
  let all := slotsInUse d.c
  let n := getF d.c R.IMG_CFG.STATE_TILES
  let overs := decide (n < all.length)
  let take := all.take n
  let d := writeLong (captureAddr d.c 0) (sectionBytes d.c u take.length) d
  onCtl (fun c =>
    let c := onSnap (fun s => { s with dumps := (List.range take.length).zip take, overs := overs }) c
    let c := if overs then raise evProgram 0x14 srcSluice 0 (setB R.IMG_STATUS.STATE_OVER true c) else c
    setB R.IMG_STATUS.CAPTURING (!take.isEmpty) c) d

/-- A tile dump: core, engine, slot, status word, then the entries (R352). -/
def dumpBytes (c : Ctl) (k : Nat) : List Byte :=
  let p := k / 32
  let e := k / 8 % 4
  let s := k % 8
  leBytes 1 (logCore c p) ++ leBytes 1 e ++ leBytes 1 s ++ zeros 1 ++ leBytes 4 (getReg c (tileStatus p e s).off).toNat ++ zeros 4088 ++
    (List.range 16384).flatMap (fun i => leBytes 8 (accAt c p e s (i / 128) (i % 128)))

/-- CAPTURE_READOUT_DONE: every slot has been read out, and may be written again (R355). -/
def readoutDone (d : Dev) : Dev :=
  let l := d.c.snap.dumps
  let d := l.foldl (fun d x => writeLong (captureAddr d.c (0x508000 + x.1 * 0x21000)) (dumpBytes d.c x.2) d) d
  onCtl (fun c => setB R.IMG_STATUS.CAPTURING false (onSnap (fun s => { s with dumps := [] }) c)) d

/-! ### The end of the snapshot job (R211, R356) -/

/-- The capture buffer is copied to STATE_L, poison included (R199, R356). -/
def copyState (d : Dev) : Dev :=
  let c0 := d.c
  forN (stateBytes c0 / 256) (fun i d =>
    snapGranule (captureAddr c0 (256 * i)) (stateArea c0 0 + 256 * i) d) d

/-- The tailrace section of the draft in force. -/
def snapSec (c : Ctl) : Option SnapSec := c.job.map (·.snap)

/-! ### The mirror drain: the sender (R357, R358, R360) -/

/-- Bytes of an extent (R357). -/
def extentBytes : Nat := 0x100000

/-- Extents of an image. -/
def extents (c : Ctl) : Nat := (imageLen c + extentBytes - 1) / extentBytes

/-- 4 KiB frames of extent e. -/
def extentFrames (c : Ctl) (e : Nat) : Nat := min 256 ((imageLen c - e * extentBytes) / 4096)

/-- The drain of the image of a new snapshot job starts, to the device that serves the holder's seat (R357). -/
def drainStart (u : Nat) (c : Ctl) : Ctl :=
  let c := setB R.MIR_STATUS.DONE false c
  match mySeat c, c.place.serving.look (getF c R.PLACE_SELF.HOLDER) with
  | some s, some dst =>
    setB R.MIR_STATUS.DRAINING true (setF R.MIR_STATUS.STEP u
      (onSnap (fun x => { x with drain := some { step := u, seat := s, dst := dst, next := 0, total := extents c, out := [], ended := false } }) c))
  | _, _ => c

/-- A drain stops (R360). -/
def drainStop (c : Ctl) : Ctl := setB R.MIR_STATUS.DRAINING false (onSnap (fun s => { s with drain := none }) c)

/-- Whether every byte of extent e is in the local millpond (R357). -/
def extentHere (c : Ctl) (u e : Nat) : Bool :=
  c.snap.whole == some u ||
    (getB c R.SLU_STATUS.SNAP_ACTIVE && getF c R.SLU_SNAP_STEP.STEP == u && decide ((e + 1) * extentBytes ≤ shardBytes c) &&
      (List.range 16).all (fun i => decide (16 * e + i < getF c R.SLU_SNAP.W) || c.slu.copied.contains (16 * e + i)))

/-- A frame of the DRAIN class with the source seat and step (R357). -/
def drainFrame (type dst seat step : Nat) (payload : List Byte) : Out := { out 3 type dst payload with tag := seat, arg := step % 2 ^ 32 }

/-- The frames of extent e of copy k to a device (R357). -/
def sendExtent (k e dst seat step : Nat) (d : Dev) : Dev :=
  forN (extentFrames d.c e) (fun i d =>
    let o := e * extentBytes + 4096 * i
    let r := readLong (copyAddr d.c k o) 4096 d
    onCtl (sendAdmitted { drainFrame 0x01 dst seat step r.1 with addr := o }) r.2) d

/-- The running drain changed. -/
def onDrain (f : Drain → Drain) (c : Ctl) : Ctl := onSnap (fun s => { s with drain := s.drain.map f }) c

/-- An extent of the drain is sent, with its deadline (R358). -/
def drainExtent (x : Drain) (e : Nat) (d : Dev) : Dev :=
  let d := sendExtent 0 e x.dst x.seat x.step d
  onCtl (fun c => onDrain (fun y => { y with out := y.out.put e (c.ticks + rmaBeats c) }) c) d

/-- MIRROR_EXTENT_SEND: the next extent, once it is in the millpond and fewer than 64 are unacknowledged (R357). -/
def mirrorSend (d : Dev) : Dev :=
  match d.c.snap.drain with
  | some x =>
    if x.next < x.total ∧ x.out.length < 64 ∧ extentHere d.c x.step x.next then
      drainExtent x x.next (onCtl (onDrain (fun y => { y with next := x.next + 1 })) d)
    else d
  | none => d

/-- MIRROR_EXTENT_RESEND: an extent past its deadline is sent again in full (R358). -/
def mirrorResend (e : Nat) (d : Dev) : Dev :=
  match d.c.snap.drain with
  | some x =>
    match x.out.look e with
    | some t => if t ≤ d.c.ticks then drainExtent x e d else d
    | none => d
  | none => d

/-- The digest in the header of a state area (R352, R356). -/
def headerDigest (c : Ctl) (m : Store) (k : Nat) : Nat × Nat :=
  (leNat (readBytes m (stateArea c k + 0x30) 8), leNat (readBytes m (stateArea c k + 0x38) 8))

/-- IMG_ACK at the sender: after the last extent, IMG_END (R358). -/
def gotImgAck : Handler := fun _ rx d =>
  match d.c.snap.drain with
  | some x =>
    if rx.peer = x.dst ∧ rx.tag = x.seat ∧ rx.arg = x.step % 2 ^ 32 then
      let out := x.out.del (rx.addr / extentBytes)
      let last := x.next = x.total ∧ out.isEmpty ∧ !x.ended
      let d := onCtl (onDrain (fun y => { y with out := out, ended := y.ended || decide last })) d
      if last then
        let dg := headerDigest d.c d.m 0
        let body := leBytes 8 dg.1 ++ leBytes 8 dg.2 ++ leBytes 8 (shardBytes d.c) ++ leBytes 8 (stateBytes d.c)
        onCtl (sendAdmitted (drainFrame 0x03 x.dst x.seat x.step body)) d
      else d
    else d
  | none => d

/-- A step whose local copy and drain are both complete may be a rollback point; a section that overflowed makes no complete image (R24, R355). -/
def markGood (u : Nat) (c : Ctl) : Ctl :=
  if c.snap.done = some u ∧ !c.snap.overs ∧ !c.snap.good.contains u then onSnap (fun s => { s with good := u :: s.good }) c else c

/-- IMG_DONE answers the drain's IMG_END (R358). -/
def drainDone (x : Drain) (rx : Rx) (c : Ctl) : Ctl :=
  if rx.peer = x.dst ∧ rx.arg = x.step % 2 ^ 32 ∧ x.ended then
    if rx.status = 0 then
      let c := drainStop c
      markGood x.step (if getF c R.SLU_SNAP_STEP.STEP = x.step then setB R.MIR_STATUS.DONE true c else c)
    else
      setB R.MIR_STATUS.RESENT true (onDrain (fun y => { y with next := 0, out := [], ended := false }) c)
  else c

/-! ### The holder (R327, R358, R359) -/

/-- STATE, SEAT and STEP of mirror image i. -/
def mirF (f : Fld) (i : Nat) : Fld := idxF f 8 i

def mirInvalid : Nat := 0
def mirReceiving : Nat := 1
def mirValid : Nat := 2

/-- Whether mirror image i is of a seat and the low word of a step. -/
def mirIs (c : Ctl) (i seat step : Nat) : Bool :=
  getF c (mirF R.MIR_IMG0.STATE i) != mirInvalid && getF c (mirF R.MIR_IMG0.SEAT i) == seat && getF c (mirF R.MIR_IMG0.STEP i) == step

/-- The mirror image that holds or receives a seat's image of a step. -/
def mirFind (c : Ctl) (seat step : Nat) : Option Nat := (List.range 2).find? (fun i => mirIs c i seat step)

/-- Mirror image i becomes invalid. -/
def mirDrop (i : Nat) (c : Ctl) : Ctl :=
  onSnap (fun s => { s with mirGot := s.mirGot.filter (fun x => x.1 / 2 ^ 20 != i) }) (setF (mirF R.MIR_IMG0.STATE i) mirInvalid c)

/-- The image index for a new step (R359). -/
def mirChoose (c : Ctl) (seat : Nat) : Nat :=
  let keep (i : Nat) : Bool := getF c (mirF R.MIR_IMG0.STATE i) == mirValid && mirIs c i seat (getF c R.STEP_ROLLBACK.STEP % 2 ^ 32)
  let rank (i : Nat) : Nat := if getF c (mirF R.MIR_IMG0.STATE i) = mirInvalid then 0 else 1 + getF c (mirF R.MIR_IMG0.STEP i)
  if keep 0 then 1 else if keep 1 then 0 else if rank 1 < rank 0 then 1 else 0

/-- The holder makes room for the image of a new step (R359). -/
def mirBegin (seat step : Nat) (c : Ctl) : Ctl :=
  let c := forN 2 (fun i c =>
    if getF c (mirF R.MIR_IMG0.STATE i) == mirReceiving && getF c (mirF R.MIR_IMG0.SEAT i) == seat then mirDrop i c else c) c
  let i := mirChoose c seat
  let c := mirDrop i c
  setF (mirF R.MIR_IMG0.STATE i) mirReceiving (setF (mirF R.MIR_IMG0.SEAT i) seat (setF (mirF R.MIR_IMG0.STEP i) step c))

/-- A received frame of an extent is noted; true when the extent is complete. -/
def noteFrame (c : Ctl) (got : Tab (BitVec 256)) (key o : Nat) : Tab (BitVec 256) × Bool :=
  let e := o / extentBytes
  let v := got.getD key 0 ||| ((1 : BitVec 256) <<< (o % extentBytes / 4096))
  let full := (List.range (extentFrames c e)).all (fun i => v.getLsbD i)
  if full then (got.del key, true) else (got.put key v, false)

/-- IMG_DATA at the holder: written at its place, and the extent acknowledged when whole (R358, R359). -/
def holderData (rx : Rx) (d : Dev) : Dev :=
  let o := rx.addr
  if imageLen d.c ≤ o ∨ o % 4096 ≠ 0 then d
  else
    let d := if (mirFind d.c rx.tag rx.arg).isNone then onCtl (mirBegin rx.tag rx.arg) d else d
    match mirFind d.c rx.tag rx.arg with
    | none => d
    | some i =>
      let d := writeLong (copyAddr d.c (i + 1) o) rx.frame.payload d
      let r := noteFrame d.c d.c.snap.mirGot (i * 2 ^ 20 + o / extentBytes) o
      let d := onCtl (onSnap (fun s => { s with mirGot := r.1 })) d
      if r.2 then onCtl (sendAdmitted { drainFrame 0x02 rx.peer rx.tag rx.arg [] with addr := o / extentBytes * extentBytes }) d else d

/-- The digest of the shard part of copy k (R324, R327). -/
def copyDigest (c : Ctl) (m : Store) (k : Nat) : Nat × Nat := digSweep m (fun o => copyAddr c k o) 0 (shardBytes c / 4) (0, 0)

/-- A double-word of a payload. -/
def payloadD (rx : Rx) (i : Nat) : Nat := leNat ((rx.frame.payload.drop (8 * i)).take 8)

/-- IMG_END at the holder: the digest is checked, and IMG_DONE answers (R327, R358). -/
def gotImgEnd : Handler := fun _ rx d =>
  match mirFind d.c rx.tag rx.arg with
  | none => d
  | some i =>
    let ok := copyDigest d.c d.m (i + 1) == (payloadD rx 0, payloadD rx 1)
    let d := onCtl (fun c =>
      if ok then setF (mirF R.MIR_IMG0.STATE i) mirValid c
      else raise evMemory 0x09 srcDevice (regionBase c (i + 1)) (setB R.CHK_DIG_STATUS.MIRROR_BAD true (setF (mirF R.MIR_IMG0.STATE i) mirReceiving c))) d
    onCtl (sendAdmitted { drainFrame 0x04 rx.peer rx.tag rx.arg [] with status := if ok then 0 else 1 }) d

/-- IMG_REQ: the extent asked for, or IMG_DONE with BAD when the image is not valid here (R360, R370). -/
def gotImgReq : Handler := fun _ rx d =>
  let bad := onCtl (sendAdmitted { drainFrame 0x04 rx.peer rx.tag rx.arg [] with status := 1 }) d
  match mirFind d.c rx.tag rx.arg with
  | none => bad
  | some i =>
    if getF d.c (mirF R.MIR_IMG0.STATE i) = mirValid ∧ rx.addr < imageLen d.c then
      sendExtent (i + 1) (rx.addr / extentBytes) rx.peer rx.tag rx.arg d
    else bad

/-! ### Events that end images and drains (R211, R360) -/

/-- A rollback boundary with rollback point u: images of later steps become invalid, their drains stop (R211, R360). -/
def imagesRollback (u : Nat) (c : Ctl) : Ctl :=
  let c := snapAbort c
  let c := if u < getF c R.SLU_SNAP_STEP.STEP then setB R.SLU_STATUS.SNAP_VALID false c else c
  let c := match c.snap.drain with
    | some x => if u < x.step then drainStop c else c
    | none => c
  let c := forN 2 (fun i c => if u % 2 ^ 32 < getF c (mirF R.MIR_IMG0.STEP i) then mirDrop i c else c) c
  onSnap (fun s => { s with good := s.good.filter (· ≤ u), dumps := [], done := s.done.filter (· ≤ u), whole := s.whole.filter (· ≤ u) }) (setB R.IMG_STATUS.CAPTURING false c)

/-- A roster change: a drain to a replaced device stops (R360). -/
def drainRoster (c : Ctl) : Ctl :=
  match c.snap.drain with
  | some x => if c.place.serving.look (getF c R.PLACE_SELF.HOLDER) = some x.dst then c else drainStop c
  | none => c

/-- A snapshot boundary: the job, its capture and its drain start, unless the previous drain is not complete (R211, R354, R357). `snapStart` has been given the digest of the image. -/
def snapBoundary (u : Nat) (dg : Nat × Nat) (d : Dev) : Dev :=
  if d.c.snap.drain.isSome then onCtl (setB R.SLU_STATUS.SNAP_SKIPPED true) d
  else
    let d := onCtl (fun c => onSnap (fun s => { s with done := none, whole := none }) (snapStart u dg c)) d
    onCtl (drainStart u) (capture u d)

/-- CAPTURE_READOUT_DONE. -/
def execCaptureReadoutDone (s : State) : Host.Outcome State Fault Refusal := runDev readoutDone s

/-- MIRROR_EXTENT_SEND. -/
def execMirrorExtentSend (s : State) : Host.Outcome State Fault Refusal := runDev mirrorSend s

/-- MIRROR_EXTENT_RESEND. -/
def execMirrorExtentResend (e : Nat) (s : State) : Host.Outcome State Fault Refusal := runDev (mirrorResend e) s

/-- IMG_ACK. -/
def execImgAck (rx : Rx) (s : State) : Host.Outcome State Fault Refusal := runDev (arrive 3 0x02 gotImgAck rx) s

/-- IMG_END. -/
def execImgEnd (rx : Rx) (s : State) : Host.Outcome State Fault Refusal := runDev (arrive 3 0x03 gotImgEnd rx) s

/-- IMG_REQ. -/
def execImgReq (rx : Rx) (s : State) : Host.Outcome State Fault Refusal := runDev (arrive 3 0x05 gotImgReq rx) s

end Sys2Proof.Machine
end

