-- ==== Sys2Proof/Machine/Tail.lean ====
section
/-! DEFINITION. The tailrace (R361 to R369): generations, stripes, commit records, generation slots; and restores from every source (R370 to R373). -/

namespace Sys2Proof.Machine

/-! ### The image as a generation carries it (R362, R368) -/

/-- Whether a line of OPTIM, counted within OPTIM, is narrowed by a trim table (R368). -/
def trimmedLine (trim : List (Nat × Nat)) (i : Nat) : Bool := trim.any (fun e => decide (e.1 ≤ i) && decide (i < e.1 + e.2))

/-- The trim table that a class applies. -/
def classTrim (trimmed : Bool) (trim : List (Nat × Nat)) : List (Nat × Nat) := if trimmed then trim else []

/-- Whether shard line i (WEIGHTS, then OPTIM) is narrowed. -/
def narrowedLine (c : Ctl) (trim : List (Nat × Nat)) (i : Nat) : Bool :=
  let w := getF c R.MEM_PART.SIZE * gib / lineBytes
  decide (w ≤ i) && trimmedLine trim (i - w)

/-- Bytes of an image after transformation (R362, R364). -/
def genLen (c : Ctl) (trim : List (Nat × Nat)) : Nat :=
  imageLen c - lineBytes / 2 * ((List.range (shardLines c)).filter (narrowedLine c trim)).length

/-- F32 codes narrowed to B16 with OUT_SATCONV = 1 (R49, R50, R368). -/
def narrowBytes (bs : List Byte) : List Byte :=
  (List.range (bs.length / 4)).flatMap (fun i => leBytes 2 (narrowCode .b16 true (fmtDecode .f32 (leNat ((bs.drop (4 * i)).take 4)))))

/-- B16 codes widened to F32 (R48, R369). -/
def widenBytes (bs : List Byte) : List Byte :=
  (List.range (bs.length / 2)).flatMap (fun i => leBytes 4 (toF32 (fmtDecode .b16 (leNat ((bs.drop (2 * i)).take 2)))))

/-- Byte o of a state section as a TRIMMED image carries it: class 1; words 16 to 79, SAMPLES, HEAD and CLEAN_RUN of every record zero (R352, R368). -/
def trimByte (o : Nat) (b : Byte) : Byte :=
  if o = 0x12 then 1
  else if 0x8000 ≤ o ∧ o < 0x508000 then
    let r := (o - 0x8000) % 320
    if 64 ≤ r ∨ r = 7 ∨ r = 9 then 0 else if r = 6 then b &&& 1 else b
  else b

/-- The pieces of an image in order: image offset, bytes in FULL form, whether narrowed. -/
def genPieces (c : Ctl) (trim : List (Nat × Nat)) : List (Nat × Nat × Bool) :=
  (List.range (shardLines c)).map (fun i => (lineBytes * i, lineBytes, narrowedLine c trim i)) ++
    (List.range (stateBytes c / 4096)).map (fun i => (shardBytes c + 4096 * i, 4096, false))

/-- Bytes of a piece after transformation. -/
def pieceLen (p : Nat × Nat × Bool) : Nat := if p.2.2 then p.2.1 / 2 else p.2.1

/-- Bytes [lo, hi) of the transformed local image: `pos` is where the pieces begin (R362, R368). -/
def genSlice (trimmed : Bool) (lo hi : Nat) : Nat → List (Nat × Nat × Bool) → Dev → List Byte × Dev
  | _, [], d => ([], d)
  | pos, p :: ps, d =>
    let stop := pos + pieceLen p
    if stop ≤ lo ∨ hi ≤ pos then genSlice trimmed lo hi stop ps d
    else
      let r := readLong (copyAddr d.c 0 p.1) p.2.1 d
      let sh := shardBytes d.c
      let bs := if p.2.2 then narrowBytes r.1
        else if trimmed && decide (sh ≤ p.1) then (List.range r.1.length).zipWith (fun i b => trimByte (p.1 - sh + i) b) r.1
        else r.1
      let t := genSlice trimmed lo hi stop ps r.2
      ((bs.take (hi - pos)).drop (lo - pos) ++ t.1, t.2)

/-! ### Stripes (R362) -/

/-- SZ, the stripe size. -/
def stripeSize : Nat := 0x4000000

/-- Data stripes of `bytes`. -/
def dataStripes (bytes : Nat) : Nat := (bytes + stripeSize - 1) / stripeSize

/-- Stripe indices of a generation: ns × (K + 1). -/
def stripeCount (bytes k : Nat) : Nat := (dataStripes bytes + k - 1) / k * (k + 1)

/-- Length of stripe i; 0 when it is absent. -/
def stripeLen (bytes k i : Nat) : Nat :=
  if i % (k + 1) = k then stripeSize
  else
    let d := i / (k + 1) * k + i % (k + 1)
    min stripeSize (bytes - d * stripeSize)

/-- XOR of byte strings, the shorter one zero-padded. -/
def xorBytes : List Byte → List Byte → List Byte
  | [], bs => bs
  | as, [] => as
  | a :: as, b :: bs => (a ^^^ b) :: xorBytes as bs

/-- A byte string zero-padded to a stripe. -/
def padStripe (bs : List Byte) : List Byte := bs ++ zeros (stripeSize - bs.length)

/-- TAIL_K in force. -/
def tailK (c : Ctl) : Nat := getF c R.IMG_CFG.TAIL_K

/-- Whether generations are TRIMMED. -/
def tailTrimmed (c : Ctl) : Bool := getB c R.IMG_CFG.TAIL_CLASS

/-- The trim table of generations made here. -/
def tailTrim (c : Ctl) : List (Nat × Nat) := classTrim (tailTrimmed c) (trimTable c)

/-- Tp: the checkpoint group without the source seat (R362). -/
def tailTargets (c : Ctl) (seat : Nat) : List TailTarget :=
  (((snapSec c).map (·.targets)).getD []).filter (fun t => t.endpoint || t.num != seat)

/-- The device of a target (R285, R361). -/
def targetDevice (c : Ctl) (t : TailTarget) : Option Nat := if t.endpoint then some t.num else c.place.serving.look t.num

/-- The target of stripe i of a seat (R362). -/
def stripeTarget (c : Ctl) (seat i : Nat) : Option TailTarget :=
  let tp := tailTargets c seat
  if tp.isEmpty then none else tp[(seat + i) % tp.length]?

/-- The devices of a seat's targets (R361). -/
def targetDevices (c : Ctl) (seat : Nat) : List (Option Nat) := (tailTargets c seat).map (targetDevice c)

/-- The device that holds stripe i of a seat. -/
def stripeDevice (c : Ctl) (seat i : Nat) : Option Nat := (stripeTarget c seat i).bind (targetDevice c)

/-- Word 5 of a header from a stripe index (R357). -/
def word5 (x : Nat) : Nat := x * 2 ^ 32

/-- A stripe as frames of 4,096 bytes and the closing STRIPE_END with its CRC-64 (R357, R363). -/
def sendStripe (dst seat step i : Nat) (bs : List Byte) (crc : Nat) (c : Ctl) : Ctl :=
  let c := forN ((bs.length + 4095) / 4096) (fun k c =>
    sendAdmitted { drainFrame 0x11 dst seat step ((bs.drop (4096 * k)).take 4096) with addr := 4096 * k + word5 i } c) c
  sendAdmitted { drainFrame 0x12 dst seat step (crcAppend 1 crc) with addr := word5 i } c

/-- The general check-value unit of the tailrace: the lowest with OWNER = 1 (R250, R363). -/
def tailUnit (c : Ctl) : Option Nat := (List.range 16).find? (fun u => getB c (idxF R.CV_CFG.OWNER 0x100 u))

/-- The CRC-64 of a stripe; the unit that computes it keeps its running state and count (R249, R250, R363). -/
def tailCrc (bs : List Byte) (c : Ctl) : Nat × Ctl :=
  let v := crc64 bs
  (v, match tailUnit c with
    | some u => incF (idxF R.CV_COUNT.BYTES 0x100 u) bs.length (setF (idxF R.CV_STATE.STATE 0x100 u) v (setF (idxF R.CV_CFG.POLY 0x100 u) 1 c))
    | none => c)

/-! ### The source (R361, R363) -/

def tailIdle : Nat := 0
def tailStriping : Nat := 1
def tailWaiting : Nat := 2
def tailCommitting : Nat := 3

/-- Phase of a generation in progress (R378). -/
def tailPhase (x : TailSrc) : Nat :=
  if x.waiting.isSome then tailCommitting else if x.next = x.total ∧ x.out.isEmpty then tailWaiting else tailStriping

/-- TAIL_STATUS shows the newest generation in progress. -/
def tailShow (c : Ctl) : Ctl :=
  match c.snap.tails.getLast? with
  | some x => setF R.TAIL_STATUS.STEP x.step (setF R.TAIL_STATUS.PHASE (tailPhase x) c)
  | none => setF R.TAIL_STATUS.PHASE tailIdle c

/-- The generations in progress changed. -/
def onTails (f : List TailSrc → List TailSrc) (c : Ctl) : Ctl := tailShow (onSnap (fun s => { s with tails := f s.tails }) c)

/-- A generation in progress with the low word of a step. -/
def tailFind (c : Ctl) (step : Nat) : Option TailSrc := c.snap.tails.find? (fun x => x.step % 2 ^ 32 == step % 2 ^ 32)

/-- One generation in progress changed. -/
def onTail (step : Nat) (f : TailSrc → TailSrc) (c : Ctl) : Ctl :=
  onTails (fun l => l.map (fun x => if x.step % 2 ^ 32 = step % 2 ^ 32 then f x else x)) c

/-- Striping of a generation starts when the snapshot job of a step with u mod TAIL_STEPS = 0 completes (R361). -/
def tailStart (u : Nat) (d : Dev) : Dev :=
  let c := d.c
  let n := getF c R.IMG_CFG.TAIL_STEPS
  match mySeat c with
  | some s =>
    if n = 0 ∨ u % n ≠ 0 then d
    else
      let total := stripeCount (genLen c (tailTrim c)) (tailK c)
      onCtl (onTails (fun l => l ++ [{ step := u, seat := s, next := 0, total := total, dig := headerDigest c d.m 0, out := [], crcs := [], waiting := none, devs := targetDevices c s }])) d
  | none => d

/-- Generations that satisfy a test are abandoned (R361). -/
def tailAbandon (f : TailSrc → Bool) (c : Ctl) : Ctl :=
  if c.snap.tails.any f then setB R.TAIL_STATUS.ABANDONED true (onTails (fun l => l.filter (fun x => !f x)) c) else c

/-- Up to a stripe's worth of the local image from byte `lo` on, as a stripe sends it (R361, R362). -/
def imageSlice (c : Ctl) (lo : Nat) (d : Dev) : List Byte × Dev :=
  let trim := tailTrim c
  let bytes := genLen c trim
  if bytes ≤ lo then ([], d) else genSlice (tailTrimmed c) lo (min bytes (lo + stripeSize)) 0 (genPieces c trim) d

/-- A data stripe joined to the parity gathered so far (R362). -/
def parityStep (c : Ctl) (lo : Nat) (acc : List Byte × Dev) : List Byte × Dev :=
  (xorBytes acc.1 (imageSlice c lo acc.2).1, (imageSlice c lo acc.2).2)

/-- Bytes of stripe i of the local image: a data stripe, or the parity of its set (R362). -/
def stripeBytes (c : Ctl) (i : Nat) (d : Dev) : List Byte × Dev :=
  let k := tailK c
  let first := i / (k + 1) * k
  if i % (k + 1) = k then (List.range k).foldl (fun acc p => parityStep c ((first + p) * stripeSize) acc) (zeros stripeSize, d)
  else imageSlice c ((first + i % (k + 1)) * stripeSize) d

/-- Stripe i of a generation is read and sent to its target (R363). -/
def tailSend (x : TailSrc) (i : Nat) (d : Dev) : Dev :=
  let r := stripeBytes d.c i d
  onCtl (fun c =>
    let v := tailCrc r.1 c
    let c := match stripeDevice c x.seat i with
      | some dst => sendStripe dst x.seat x.step i r.1 v.1 v.2
      | none => v.2
    onTail x.step (fun y => { y with out := y.out.put i (c.ticks + rmaBeats c), crcs := y.crcs.put i v.1 }) c) r.2

/-- STRIPE_SEND: the next stripe of the oldest generation that still has one; an absent stripe is not sent (R362, R363). -/
def stripeSend (d : Dev) : Dev :=
  match d.c.snap.tails.find? (fun x => decide (x.next < x.total)) with
  | some x =>
    let d' := onCtl (onTail x.step (fun y => { y with next := x.next + 1 })) d
    if stripeLen (genLen d.c (tailTrim d.c)) (tailK d.c) x.next = 0 then d' else tailSend x x.next d'
  | none => d

/-- STRIPE_RESEND: a stripe past its deadline is sent again in full (R363). -/
def stripeResend (i : Nat) (d : Dev) : Dev :=
  match d.c.snap.tails.find? (fun x => match x.out.look i with | some t => decide (t ≤ d.c.ticks) | none => false) with
  | some x => tailSend x i d
  | none => d

/-- STRIPE_ACK: OK ends the stripe's wait, BAD has it sent again (R363). A generation that has lost a target during striping takes no further acknowledgement: it cannot commit (R367). -/
def gotStripeAck : Handler := fun _ rx d =>
  let i := rx.word5 % 2 ^ 16
  match tailFind d.c rx.arg with
  | some x =>
    if x.out.has i && x.seat == rx.tag && stripeDevice d.c x.seat i == some rx.peer && targetDevices d.c x.seat == x.devs then
      (if rx.status = 0 then onCtl (onTail x.step (fun y => { y with out := y.out.del i })) d else tailSend x i d)
    else d
  | none => d

/-! ### Commit records (R364, R365) -/

/-- Length of the fixed part of a commit record. -/
def recFixed : Nat := 0x140

/-- The identity public key as bytes (R251). -/
def identityKey (c : Ctl) : List Byte := edPublic (leBytes 32 c.fuses.idSeed.toNat)

/-- The CRC list of a generation: 0 for an absent stripe (R364). -/
def crcList (x : TailSrc) : List Byte := (List.range x.total).flatMap (fun i => leBytes 8 (x.crcs.getD i 0))

/-- The commit record of a generation, signed (R364). -/
def commitRecord (c : Ctl) (x : TailSrc) : List Byte :=
  let list := crcList x
  let signed := leBytes 8 0x00014C4154524341 ++ leBytes 8 x.step ++ leBytes 2 x.seat ++ leBytes 2 (myNum c) ++
    leBytes 1 (if tailTrimmed c then 1 else 0) ++ leBytes 1 (tailK c) ++ zeros 2 ++ leBytes 4 (getF c R.PLACE_STATUS.ROSTER_VER) ++
    leBytes 4 x.total ++ leBytes 8 (genLen c (tailTrim c)) ++ leBytes 8 c.fuses.serial.toNat ++ leBytes 8 x.dig.1 ++ leBytes 8 x.dig.2 ++
    sha512 list ++ identityKey c ++ leBytes 64 c.fuses.certificate.toNat ++ leBytes 4 (gradeCode c.fuses.grade) ++ zeros 28
  signed ++ signMessage (leBytes 32 c.fuses.idSeed.toNat) signed ++ list

/-- A record, or its fixed part, as REC_DATA frames (R357, R365). -/
def sendRecord (dst seat step : Nat) (fixed : Bool) (bs : List Byte) (c : Ctl) : Ctl :=
  forN ((bs.length + 4095) / 4096) (fun k c =>
    sendAdmitted { drainFrame 0x15 dst seat step ((bs.drop (4096 * k)).take 4096) with addr := 4096 * k + word5 (if fixed then 1 else 0) } c) c

/-- Whether a target holds a stripe of a generation. -/
def holdsStripe (c : Ctl) (x : TailSrc) (t : TailTarget) : Bool :=
  (List.range x.total).any (fun i => stripeTarget c x.seat i == some t && x.crcs.has i)

/-- TAIL_COMMIT_RECORD: once every stripe has been acknowledged and the rollback point has reached u (R365). -/
def tailCommit (c : Ctl) : Ctl :=
  match c.snap.tails.find? (fun x => tailPhase x == tailWaiting && decide (x.step ≤ getF c R.STEP_ROLLBACK.STEP)) with
  | some x =>
    let bs := commitRecord c x
    let tp := tailTargets c x.seat
    let c := tp.foldl (fun c t =>
      match targetDevice c t with
      | some dst => if holdsStripe c x t then sendRecord dst x.seat x.step false bs c else sendRecord dst x.seat x.step true (bs.take recFixed) c
      | none => c) c
    onTail x.step (fun y => { y with waiting := some (List.range tp.length) }) c
  | none => c

/-- The place of a device in a seat's target list. -/
def targetPlace (c : Ctl) (seat dev : Nat) : Nat := (targetDevices c seat).findIdx (· == some dev)

/-- REC_ACK: when every target has acknowledged, the generation is committed (R365). A target that no device serves never does. -/
def gotRecAck : Handler := fun _ rx d =>
  match tailFind d.c rx.arg with
  | some x =>
    match x.waiting with
    | some l =>
      let k := targetPlace d.c x.seat rx.peer
      if rx.status ≠ 0 ∨ rx.tag ≠ x.seat ∨ !l.contains k then d
      else
        let l := l.erase k
        if l.isEmpty then onCtl (fun c => setF R.TAIL_LAST.STEP x.step (onTails (fun ts => ts.filter (fun y => y.step != x.step)) c)) d
        else onCtl (onTail x.step (fun y => { y with waiting := some l })) d
    | none => d
  | none => d

/-! ### The target (R363, R365, R366) -/

/-- The target that this device is: the seat it serves (R361). -/
def selfTarget (c : Ctl) : Option TailTarget := (mySeat c).map (fun s => { num := s, endpoint := false })

/-- Stripes of a seat that R362 assigns to this device. -/
def ownStripes (c : Ctl) (seat : Nat) : List Nat :=
  (List.range (stripeCount (genLen c (tailTrim c)) (tailK c))).filter (fun i => (selfTarget c).isSome && stripeTarget c seat i == selfTarget c)

/-- Bytes of a list of stripes. -/
def stripesLen (c : Ctl) (l : List Nat) : Nat := l.foldl (fun n i => n + stripeLen (genLen c (tailTrim c)) (tailK c) i) 0

/-- Place of a seat among the seats. -/
def seatIndex (c : Ctl) (seat : Nat) : Nat := (seats c).findIdx (· == seat)

/-- Local address of the record kept in slot j of a seat (log entry 14): 64 KiB for each seat at the start of TAIL. -/
def recordAddr (c : Ctl) (seat j : Nat) : Nat := regionBase c 4 + 0x10000 * seatIndex c seat + 0x8000 * j

/-- Local address of stripe i of a seat in slot j (log entry 14): the seats' slots follow the records, in ascending seat, slot and stripe. -/
def stripeAddr (c : Ctl) (seat j i : Nat) : Nat :=
  let before := ((seats c).take (seatIndex c seat)).foldl (fun n s => n + 2 * stripesLen c (ownStripes c s)) 0
  let own := ownStripes c seat
  regionBase c 4 + 0x10000 * (seats c).length + before + j * stripesLen c own + stripesLen c (own.filter (· < i))

/-- The slot of a source seat. -/
def slotOf (c : Ctl) (seat j : Nat) : Option TailSlot := c.snap.slots.look (2 * seat + j)

/-- Whether slot j of a seat is of a generation. -/
def slotIs (c : Ctl) (seat j step : Nat) : Bool :=
  match slotOf c seat j with
  | some x => x.step == step
  | none => false

/-- Whether slot j holds the protected generation at J (R366). -/
def slotKept (c : Ctl) (seat j : Nat) : Bool :=
  match slotOf c seat j with
  | some x => x.record == some (getF c R.TAIL_J.STEP)
  | none => false

/-- The slot that holds a generation, the protected one first. -/
def slotFind (c : Ctl) (seat step : Nat) : Option Nat :=
  (List.range 2).find? (fun j => slotIs c seat j step && slotKept c seat j) <|> (List.range 2).find? (fun j => slotIs c seat j step)

/-- The slot that receives a generation; the protected one receives none (R366). -/
def slotOpen (c : Ctl) (seat step : Nat) : Option Nat := (List.range 2).find? (fun j => slotIs c seat j step && !slotKept c seat j)

/-- The slot into which a new generation goes (R366). -/
def slotChoose (c : Ctl) (seat : Nat) : Nat :=
  let rank (j : Nat) : Nat := match slotOf c seat j with | some x => x.step + 1 | none => 0
  if slotKept c seat 0 then 1 else if slotKept c seat 1 then 0 else if rank 1 < rank 0 then 1 else 0

/-- A slot changed. -/
def onSlot (seat j : Nat) (f : TailSlot → TailSlot) (c : Ctl) : Ctl :=
  onSnap (fun s => { s with slots := s.slots.adjust (2 * seat + j) f }) c

/-- The slot of a generation, taken anew if there is none. -/
def slotTake (seat step : Nat) (c : Ctl) : Nat × Ctl :=
  match slotOpen c seat step with
  | some j => (j, c)
  | none =>
    let j := slotChoose c seat
    (j, onSnap (fun s => { s with slots := s.slots.put (2 * seat + j) { step := step, crcs := [], record := none, recLen := 0, whole := false } }) c)

/-- J: the newest step at which verified records of every other seat are stored; never less than it was (R366). -/
def tailJ (c : Ctl) : Nat :=
  let others := (seats c).filter (fun s => some s != mySeat c)
  let has (s u : Nat) : Bool := (List.range 2).any (fun j => ((slotOf c s j).bind (·.record)) == some u)
  let cand := (c.snap.slots.filterMap (fun e => e.2.record)).filter (fun u => others.all (fun s => has s u))
  cand.foldl max (getF c R.TAIL_J.STEP)

/-- STRIPE_DATA at a target: stored at its offset (R363, R366). -/
def targetData (rx : Rx) (d : Dev) : Dev :=
  let i := rx.word5 % 2 ^ 16
  if !(ownStripes d.c rx.tag).contains i || stripeLen (genLen d.c (tailTrim d.c)) (tailK d.c) i < rx.word4 + 4096 || rx.word4 % 4096 != 0 then d
  else
    let r := slotTake rx.tag rx.arg d.c
    let d := { d with c := onSlot rx.tag r.1 (fun x => { x with crcs := x.crcs.del i }) r.2 }
    writeLong (stripeAddr d.c rx.tag r.1 i + rx.word4) rx.frame.payload d

/-- STRIPE_END at a target: the CRC is recomputed and STRIPE_ACK answers (R363). -/
def targetEnd (rx : Rx) (d : Dev) : Dev :=
  let i := rx.word5 % 2 ^ 16
  match slotOpen d.c rx.tag rx.arg with
  | none => d
  | some j =>
    let n := stripeLen (genLen d.c (tailTrim d.c)) (tailK d.c) i
    let r := readLong (stripeAddr d.c rx.tag j i) n d
    let v := tailCrc r.1 r.2.c
    let ok := (ownStripes d.c rx.tag).contains i && v.1 == beNat rx.frame.payload
    let c := if ok then onSlot rx.tag j (fun x => { x with crcs := x.crcs.put i v.1 }) v.2 else v.2
    { r.2 with c := sendAdmitted { drainFrame 0x13 rx.peer rx.tag rx.arg [] with addr := word5 i, status := if ok then 0 else 1 } c }

/-- Bytes that arrived by offset, as far as they are contiguous from `pos`. -/
def joinParts : Nat → List (Nat × List Byte) → List Byte
  | _, [] => []
  | pos, (o, bs) :: l => if o = pos then bs ++ joinParts (pos + bs.length) l else []

/-- A field of a record. -/
def recField (bs : List Byte) (o n : Nat) : Nat := leNat ((bs.drop o).take n)

/-- Whether bytes hold a whole record or, `fixed`, its fixed part. -/
def recComplete (fixed : Bool) (bs : List Byte) : Bool :=
  decide (recFixed ≤ bs.length) && (fixed || decide (recFixed + 8 * recField bs 0x1C 4 ≤ bs.length))

/-- The checks of a record before it is stored (R365): certificate, signature, and for a whole record the CRC list. -/
def recVerify (fixed : Bool) (bs : List Byte) : Bool :=
  let part (o n : Nat) : List Byte := (bs.drop o).take n
  let key := part 0x80 32
  verifyMessage (leBytes 32 Config.certKey.toNat) (part 0x28 8 ++ key ++ part 0xE0 4) (part 0xA0 64) &&
    verifyMessage key (bs.take 0x100) (part 0x100 64) &&
    (fixed || sha512 (bs.drop recFixed) == part 0x40 64)

/-- The key of the parts of a seat's record of a step. -/
def recKey (seat step : Nat) : Nat := seat * 2 ^ 32 + step % 2 ^ 32

/-- REC_DATA at a target: the parts of one record are those of its seat and step, and an older step's are dropped; a complete record is verified and stored, or discarded, and REC_ACK answers (R365, R366). -/
def targetRecord (rx : Rx) (d : Dev) : Dev :=
  let fixed := rx.word5 % 2 == 1
  let key := recKey rx.tag rx.arg
  let parts := (d.c.snap.recs.getD key []).put rx.word4 rx.frame.payload
  let bs := joinParts 0 parts
  let d := onCtl (onSnap (fun s => { s with recs := s.recs.filter (fun e => e.1 / 2 ^ 32 != rx.tag || e.1 == key) })) d
  if !recComplete fixed bs then onCtl (onSnap (fun s => { s with recs := s.recs.put key parts })) d
  else
    let bs := bs.take (if fixed then recFixed else recFixed + 8 * recField bs 0x1C 4)
    let d := onCtl (onSnap (fun s => { s with recs := s.recs.del key })) d
    let ok := recVerify fixed bs
    let d := if ok then
        let r := slotTake rx.tag rx.arg d.c
        let c := onSlot rx.tag r.1 (fun x => { x with record := some (recField bs 8 8), recLen := bs.length, whole := !fixed }) r.2
        writeLong (recordAddr c rx.tag r.1) bs { d with c := setF R.TAIL_J.STEP (tailJ c) c }
      else d
    onCtl (sendAdmitted { drainFrame 0x16 rx.peer rx.tag rx.arg [] with status := if ok then 0 else 1 }) d

/-- STRIPE_REQ: a stripe held is sent; another is not answered (R370). -/
def gotStripeReq : Handler := fun _ rx d =>
  let i := rx.word5 % 2 ^ 16
  match slotFind d.c rx.tag rx.arg with
  | none => d
  | some j =>
    match (slotOf d.c rx.tag j).bind (fun x => x.crcs.look i) with
    | some v =>
      let r := readLong (stripeAddr d.c rx.tag j i) (stripeLen (genLen d.c (tailTrim d.c)) (tailK d.c) i) d
      onCtl (sendStripe rx.peer rx.tag rx.arg i r.1 v) r.2
    | none => d

/-- REC_REQ: a record held is sent; without one there is no answer (R370). -/
def gotRecReq : Handler := fun _ rx d =>
  match slotFind d.c rx.tag rx.arg with
  | none => d
  | some j =>
    match slotOf d.c rx.tag j with
    | some x =>
      if x.record.isSome then
        let r := readLong (recordAddr d.c rx.tag j) x.recLen d
        onCtl (sendRecord rx.peer rx.tag rx.arg (!x.whole) r.1) r.2
      else d
    | none => d

/-! ### Restores (R370 to R373) -/

def rstIdle : Nat := 0
def rstRunning : Nat := 1
def rstDone : Nat := 2
def rstFailed : Nat := 3

/-- The running restore changed. -/
def onRestore (f : Restore → Restore) (c : Ctl) : Ctl := onSnap (fun s => { s with restore := s.restore.map f }) c

/-- The restore ends with nothing restored (R371 to R373). -/
def restoreFail (c : Ctl) : Ctl :=
  let c := if c.snap.restore.any (·.go) then onSnap (fun s => { s with go := some false }) c else c
  cause 17 (setB R.CHK_DIG_STATUS.SWEEP false (setF R.RST_STATUS.STATE rstFailed (onSnap (fun s => { s with restore := none }) c)))

/-- Whether the image in STATE_L is TRIMMED (R352). -/
def headerTrimmed (c : Ctl) (m : Store) : Bool := leNat (readBytes m (stateArea c 0 + 0x12) 1) == 1

/-- Whether the local copy holds step u for a restore (R370): a TRIMMED one serves only the recovery that follows RST_CTRL.GO (R369, R373). -/
def localHolds (c : Ctl) (m : Store) (u : Nat) : Bool :=
  getF c R.SLU_SNAP_STEP.STEP == u && getB c R.SLU_STATUS.SNAP_VALID && (c.ret.restart || !headerTrimmed c m) &&
    leNat (readBytes m (stateArea c 0) 8) == 0x0001535441544553 && leNat (readBytes m (stateArea c 0 + 8) 8) == u

/-- Image bytes at offset o, a multiple of 256, go to WEIGHTS, OPTIM or STATE_L; for RST_CTRL.GO into SNAP as well (R370, R373). -/
def writeImage (go : Bool) (o : Nat) (bs : List Byte) (d : Dev) : Dev :=
  if o < shardBytes d.c then
    let d := if go then writeLong (copyAddr d.c 0 o) bs d else d
    writeLong (imageAddr d.c o) bs d
  else writeLong (copyAddr d.c 0 o) bs d

/-- The shard is written: the digest sweep runs (R372). -/
def restoreSweep (c : Ctl) : Ctl := setB R.CHK_DIG_STATUS.SWEEP true (onRestore (fun r => { r with phase := .sweep, out := [] }) c)

/-- The shard from the local copy (R370). -/
def restoreLocal (d : Dev) : Dev :=
  let c0 := d.c
  onCtl restoreSweep (forN (shardBytes c0 / 4096) (fun i d =>
    let r := readLong (copyAddr c0 0 (4096 * i)) 4096 d
    writeLong (imageAddr c0 (4096 * i)) r.1 r.2) d)

/-- A request of extent e of the mirror image, with its deadline (R370). -/
def requestExtent (dst e : Nat) (x : Restore) (c : Ctl) : Ctl :=
  let c := sendAdmitted { drainFrame 0x05 dst x.seat x.step [] with addr := e * extentBytes } c
  onRestore (fun y => { y with out := y.out.put e (c.ticks + rmaBeats c) }) c

/-- The device that holds this seat's mirror. -/
def holderDevice (c : Ctl) : Option Nat := c.place.serving.look (getF c R.PLACE_SELF.HOLDER)

/-- Requests up to 64 outstanding extents (R370). -/
def requestMore (dst : Nat) (c : Ctl) : Ctl :=
  forN 64 (fun _ c =>
    match c.snap.restore with
    | some x => if x.next < x.total ∧ x.out.length < 64 then requestExtent dst x.next x (onRestore (fun y => { y with next := x.next + 1 }) c) else c
    | none => c) c

/-- The restore from the mirror begins. -/
def restoreMirror (dst : Nat) (c : Ctl) : Ctl :=
  requestMore dst (onRestore (fun y => { y with phase := .mirror, next := 0, total := extents c, out := [], got := [] }) c)

/-- The restore from a generation begins: REC_REQ to the targets (R370). -/
def restoreRecord (x : Restore) (c : Ctl) : Ctl :=
  let l := (tailTargets c x.seat).filterMap (targetDevice c)
  let c := l.foldl (fun c t => sendAdmitted (drainFrame 0x17 t x.seat x.step []) c) c
  onRestore (fun y => { y with phase := .record, out := [(0, c.ticks + rmaBeats c)], recs := [], record := [], stripes := [], good := [], lost := [] }) c

/-- Sources of R370: 1 LOCAL, 2 MIRROR, 3 GENERATION. The first above `k` that may hold the image is tried; with none left the restore has no source (R372). -/
def trySource (k : Nat) (d : Dev) : Dev :=
  match d.c.snap.restore with
  | none => d
  | some x =>
    let pick (n : Nat) : Dev := onCtl (setF R.RST_STATUS.SOURCE n) d
    if k < 1 && !x.go && localHolds d.c d.m x.step then restoreLocal (pick 1)
    else match if decide (k < 2) && !x.go then (holderDevice d.c).filter (fun n => some n != d.c.place.me) else none with
      | some dst => onCtl (restoreMirror dst) (pick 2)
      | none =>
        if k < 3 && (x.go || !tailTrimmed d.c) && getF d.c R.IMG_CFG.TAIL_STEPS != 0 && !(tailTargets d.c x.seat).isEmpty then
          onCtl (restoreRecord x) (pick 3)
        else
          onCtl (fun c => restoreFail (setB R.RST_STATUS.NO_SOURCE true (onSnap (fun s => { s with noSource := true }) (setF R.RST_STATUS.SOURCE 0 c)))) d

/-- The steps as RST_CTRL.GO leaves them (R373): the rollback point is u, which is CHECKED (R317); nothing is retained. -/
def goSteps (u : Nat) (c : Ctl) : Ctl :=
  let c := setF R.REC_FAULT_STEP.STEP u (setF R.STEP_ROLLBACK.STEP u c)
  let c := setF R.STEP_CHECKED.STEP u (setF R.STEP_SEALED.STEP u c)
  onSnap (fun s => { s with go := some true })
    { c with ret := { c.ret with kept := [] }, step := { c.step with hasRollback := true, hasSealed := true, hasChecked := true } }

/-- A restore ends as DONE (R372, R381). -/
def restoreEnd (c : Ctl) : Ctl := cause 17 (setF R.RST_STATUS.STATE rstDone (onSnap (fun s => { s with restore := none }) c))

/-- A restore of the image of this device's seat at step u starts (R370, R373); the device leaves the failed state (R153). A device without a seat has nothing to restore: RST_CTRL.GO is done at once. DESIGN CHOICE (log entry 174): no image gives it a MEAS_LEFT, and its MEAS_LEFT stays (R109). -/
def restoreStart (u : Nat) (go : Bool) (d : Dev) : Dev :=
  let d := onCtl (fun c => setB R.CHK_DIG_STATUS.SWEEP false { c with step := { c.step with failed := false } }) d
  match mySeat d.c with
  | none => if go then onCtl (fun c => restoreEnd (goSteps u c)) d else d
  | some s =>
    let r : Restore := { step := u, seat := s, go := go, phase := .mirror, next := 0, total := 0, out := [], got := [], recs := [], record := [], stripes := [], good := [], lost := [] }
    trySource 0 (onCtl (fun c => setF R.RST_STATUS.STATE rstRunning (onSnap (fun x => { x with restore := some r, noSource := false }) c)) d)

/-- Whether a frame belongs to the running restore: its seat and step. -/
def restoreHears (c : Ctl) (rx : Rx) (f : RstPhase) : Bool :=
  match c.snap.restore with
  | some x => x.phase == f && x.seat == rx.tag && x.step % 2 ^ 32 == rx.arg
  | none => false

/-- IMG_DATA at a restoring device: written at its place; a whole extent makes room for further requests (R370). -/
def restoreData (rx : Rx) (d : Dev) : Dev :=
  match d.c.snap.restore with
  | none => d
  | some x =>
    let o := rx.addr
    let e := o / extentBytes
    if imageLen d.c ≤ o ∨ o % 4096 ≠ 0 ∨ !x.out.has e then d
    else
      let d := writeImage x.go o rx.frame.payload d
      let n := noteFrame d.c x.got e o
      let d := onCtl (onRestore (fun y => { y with got := n.1 })) d
      if n.2 then
        let d := onCtl (fun c => requestMore rx.peer (onRestore (fun y => { y with out := y.out.del e }) c)) d
        match d.c.snap.restore with
        | some y => if y.next = y.total ∧ y.out.isEmpty then onCtl restoreSweep d else d
        | none => d
      else d

/-- The stripes of the set of stripe i that a record counts, other than i. -/
def setMates (k i : Nat) : List Nat := ((List.range (k + 1)).map (fun p => i / (k + 1) * (k + 1) + p)).filter (· != i)

/-- K and image bytes of the record of a restore. -/
def rstK (x : Restore) : Nat := max 1 (recField x.record 0x15 1)
def rstBytes (x : Restore) : Nat := recField x.record 0x20 8

/-- A stripe is requested of its target (R370). -/
def requestStripe (i : Nat) (c : Ctl) : Ctl :=
  match c.snap.restore with
  | none => c
  | some x =>
    if x.out.has i || x.good.contains i || x.lost.contains i then c
    else
      let c := match stripeDevice c x.seat i with
        | some dst => sendAdmitted { drainFrame 0x14 dst x.seat x.step [] with addr := word5 i } c
        | none => c
      onRestore (fun y => { y with out := y.out.put i (c.ticks + rmaBeats c) }) c

/-- A stripe that the sender holds as bytes. -/
def stripeGot (x : Restore) (i : Nat) : List Byte := joinParts 0 (x.stripes.getD i [])

/-- Present data stripes of a record. -/
def rstData (x : Restore) : List Nat :=
  (List.range (stripeCount (rstBytes x) (rstK x))).filter (fun i => i % (rstK x + 1) != rstK x && stripeLen (rstBytes x) (rstK x) i != 0)

/-- Whether data stripe i can be rebuilt: every other present stripe of its set is good (R362, R370). -/
def canRebuild (x : Restore) (i : Nat) : Bool :=
  (setMates (rstK x) i).all (fun m => x.good.contains m || stripeLen (rstBytes x) (rstK x) m == 0)

/-- The bytes of data stripe i, as received or rebuilt from its set (R362). -/
def stripeData (x : Restore) (i : Nat) : List Byte :=
  if x.good.contains i then stripeGot x i
  else ((setMates (rstK x) i).foldl (fun acc m => xorBytes acc (stripeGot x m)) (zeros stripeSize)).take (stripeLen (rstBytes x) (rstK x) i)

/-- A transformed shard back in FULL form (R369): each narrowed line widened. -/
def untrim (c : Ctl) (trim : List (Nat × Nat)) : Nat → Nat → List Byte → List Byte
  | 0, _, _ => []
  | n + 1, i, bs =>
    if narrowedLine c trim i then widenBytes (bs.take (lineBytes / 2)) ++ untrim c trim n (i + 1) (bs.drop (lineBytes / 2))
    else bs.take lineBytes ++ untrim c trim n (i + 1) (bs.drop lineBytes)

/-- The trim table of a state section (R352). -/
def sectionTrim (bs : List Byte) : List (Nat × Nat) :=
  (List.range (recField bs 0x45 1)).map (fun i => (recField bs (0x100 + 8 * i) 4, recField bs (0x104 + 8 * i) 4))

/-- Every data stripe is at hand: the image is written (R369, R370, R373). -/
def restoreStripes (x : Restore) (d : Dev) : Dev :=
  let bs := (rstData x).flatMap (stripeData x)
  let sec := bs.drop (rstBytes x - stateBytes d.c)
  let trim := classTrim (recField sec 0x12 1 == 1) (sectionTrim sec)
  let shard := untrim d.c trim (shardLines d.c) 0 bs
  let d := if x.lost.isEmpty then d else onCtl (setB R.RST_STATUS.REBUILT true) d
  let d := forN (shardLines d.c) (fun i d => writeImage x.go (lineBytes * i) ((shard.drop (lineBytes * i)).take lineBytes) d) d
  onCtl restoreSweep (writeImage x.go (shardBytes d.c) sec d)

/-- After a stripe has been settled: the rest of a broken set is asked for, a set past rebuilding ends the source, and with every data stripe at hand the image is written (R370). -/
def stripesCheck (d : Dev) : Dev :=
  match d.c.snap.restore with
  | none => d
  | some x =>
    let need := rstData x
    let d := onCtl (fun c => (x.lost.flatMap (setMates (rstK x))).foldl (fun c m =>
      if stripeLen (rstBytes x) (rstK x) m = 0 then c else requestStripe m c) c) d
    if x.lost.any (fun i => need.contains i && (setMates (rstK x) i).any (fun m => x.lost.contains m)) then trySource 3 d
    else if need.all (fun i => x.good.contains i || (x.lost.contains i && canRebuild x i)) then restoreStripes x d
    else d

/-- STRIPE_DATA at a restoring device. -/
def restoreStripeData (rx : Rx) (d : Dev) : Dev :=
  let i := rx.word5 % 2 ^ 16
  onCtl (onRestore (fun y =>
    if y.out.has i then { y with stripes := y.stripes.put i ((y.stripes.getD i []).put rx.word4 rx.frame.payload) } else y)) d

/-- A stripe is given up: lost. -/
def stripeLost (i : Nat) (c : Ctl) : Ctl := onRestore (fun y => { y with out := y.out.del i, lost := i :: y.lost }) c

/-- STRIPE_END at a restoring device: the tailrace's unit takes the stripe and strips the CRC that STRIPE_END carries; it must agree with it, and with the record's list (R250, R370). -/
def restoreStripeEnd (rx : Rx) (d : Dev) : Dev :=
  let i := rx.word5 % 2 ^ 16
  match d.c.snap.restore with
  | none => d
  | some x =>
    if !x.out.has i then d
    else
      let bs := (stripeGot x i).take (stripeLen (rstBytes x) (rstK x) i)
      let v := tailCrc bs d.c
      let ok := bs.length == stripeLen (rstBytes x) (rstK x) i && v.1 == beNat rx.frame.payload && v.1 == recField x.record (recFixed + 8 * i) 8
      let d := onCtl (fun _ => let c := v.2
        if ok then onRestore (fun y => { y with out := y.out.del i, good := i :: y.good }) c else stripeLost i c) d
      stripesCheck d

/-- REC_DATA at a restoring device: the first whole record that verifies names the stripes to request (R370). -/
def restoreRecData (rx : Rx) (d : Dev) : Dev :=
  match d.c.snap.restore with
  | none => d
  | some x =>
    if rx.word5 % 2 = 1 then d
    else
      let parts := (x.recs.getD rx.peer []).put rx.word4 rx.frame.payload
      let bs := joinParts 0 parts
      let d := onCtl (onRestore (fun y => { y with recs := y.recs.put rx.peer parts })) d
      if !recComplete false bs then d
      else if !recVerify false bs || recField bs 8 8 != x.step || recField bs 0x10 2 != x.seat then
        onCtl (fun c => setB R.RST_STATUS.REC_BAD true (onRestore (fun y => { y with recs := y.recs.del rx.peer }) c)) d
      else if recField bs 0x14 1 = 1 ∧ !x.go then d
      else
        let y := { x with record := bs, phase := .stripes, out := [], recs := [] }
        let d := onCtl (onRestore (fun _ => y)) d
        stripesCheck (onCtl (fun c => (rstData y).foldl (fun c i => requestStripe i c) c) d)

/-- RESTORE_REQUEST_TIMEOUT: an IMG_REQ past its deadline is repeated, a STRIPE_REQ is given up and its stripe rebuilt; without a commit record the source is left (R370). -/
def restoreTimeout (i : Nat) (d : Dev) : Dev :=
  match d.c.snap.restore with
  | none => d
  | some x =>
    match x.out.look i with
    | none => d
    | some t =>
      if d.c.ticks < t then d
      else match x.phase with
        | .mirror => (match holderDevice d.c with | some dst => onCtl (requestExtent dst i x) d | none => trySource 2 d)
        | .record => trySource 3 d
        | .stripes => stripesCheck (onCtl (stripeLost i) d)
        | .sweep => d
        | .ready => d

/-- DIGEST_SWEEP_DONE: the full sum is the running digest; a restore compares it with the header, and leaves a source whose image differs (R324, R369, R372). -/
def sweepDone (d : Dev) : Dev :=
  if !getB d.c R.CHK_DIG_STATUS.SWEEP || !d.c.slu.held.isEmpty then d
  else
    let dg := sweepDigest d
    let d := onCtl (fun c => setB R.CHK_DIG_STATUS.SWEEP false (setLiveDig dg c)) d
    match d.c.snap.restore with
    | some x =>
      if x.phase != .sweep then d
      else if headerTrimmed d.c d.m || headerDigest d.c d.m 0 == dg then onCtl (onRestore (fun y => { y with phase := .ready })) d
      else
        trySource (getF d.c R.RST_STATUS.SOURCE)
          (onCtl (fun c => raise evMemory 0x0A srcDevice 0 (setB R.RST_STATUS.DIG_BAD true c)) d)
    | none => d

/-! ### The state section applied (R371) -/

/-- A governor record from its 80 words (R97). -/
def recOfWords (w : Nat → Nat) : TRec :=
  let r := { TRec.zero with
    written := w 3 % 2 == 1, nonfin := w 3 / 2 % 2 == 1, sharedWr := w 3 / 4 % 2 == 1, conv := w 4, sat := w 5, van := w 6,
    nf := w 7, amax := w 8, sharedAmax := w 9, totSat := w 10, totVan := w 11, totNf := w 12, lowers := w 13 }
  let r := setRecWord (setRecWord (setRecWord r 0 (w 0)) 1 (w 1)) 2 (w 2)
  forN 64 (fun i r => setRecWord r (16 + i) (w (16 + i))) r

/-- A record as restored: saved values in full, or under R108 from a TRIMMED image. -/
def recRestored (trimmed : Bool) (r : TRec) : TRec :=
  if trimmed then { r with samples := 0, head := 0, cleanRun := 0, cold := r.auto } else r

/-- The list kind that a restored TR_POS shows: a saved TRAIN or PROBATION follows the standing (R163). -/
def restoredKind (c : Ctl) (k : Nat) : Nat :=
  if k = 0 ∨ k = 3 then (if getF c R.FAN_STATUS.STANDING = 1 then 3 else 0) else k

/-- Tile slots after a restore: every slot unused with undefined entries, then the dumps (R371). -/
def applyDumps (rd : Nat → Nat → Nat) (c : Ctl) : Ctl :=
  let g := c.fresh + 1
  let c := drawn c
  let c := forN 2304 (fun k c => setReg (tileStatus (k / 32) (k / 8 % 4) (k % 8)).off 0 { c with accGen := c.accGen.put k g }) c
  let c := { c with acc := [] }
  forN (rd 0x42 2) (fun i c =>
    let o := 0x508000 + i * 0x21000
    match physCore c (rd o 1) with
    | none => c
    | some p =>
      let e := rd (o + 1) 1
      let s := rd (o + 2) 1
      let c := setReg (tileStatus p e s).off (BitVec.ofNat 64 (rd (o + 4) 4)) c
      forN 16384 (fun k c => setAcc p e s (k / 128) (k % 128) (rd (o + 0x1000 + 8 * k) 8) c) c) c

/-- The items of the state section, read by offset and length, written (R371). -/
def applySection (rd : Nat → Nat → Nat) (c : Ctl) : Ctl :=
  let trimmed := rd 0x12 1 == 1
  let n := getF c R.GOV_CFG.RECORDS
  let recs := ((List.range n).drop 1).map (fun i => (i, recRestored trimmed (recOfWords (fun w => rd (0x8000 + 320 * i + 4 * w) 4))))
  let c := { c with gov := { c.gov with recs := recs } }
  let c := setF R.GOV_STATUS.MEAS_LEFT (if trimmed then getF c R.GOV_CFG.MEAS_STEPS else rd 0x44 1) c
  let c := setF R.GOV_SEED.SEED (rd 0x18 8) c
  let c := forN (lcores c.fuses.grade) (fun l c =>
    match physCore c l with
    | none => c
    | some p =>
      let c := forN 32 (fun k c => setF (idxF (coreF R.SEQ_CNT.COUNT p) 4 k) (rd (0x1000 + 128 * l + 4 * k) 4) c) c
      let c := forN 6 (fun t c =>
        let v := rd (0x3000 + 48 * l + 8 * t) 8
        let c := setReg (trF R.TR_POS.WORD p t).off (BitVec.ofNat 64 v) c
        setF (trF R.TR_POS.KIND p t) (restoredKind c (v / 2 ^ 48 % 4)) c) c
      setLocalFlags p (BitVec.ofNat 64 (rd (0x4000 + 8 * l) 8)) c) c
  applyDumps rd { c with chip := BitVec.ofNat 4096 (rd 0x4200 512) }

/-- In a recovery with replay the retain engine begins to restore the stage of step t, if its record is held (R333, R334). -/
def stageDue (t : Nat) (c : Ctl) : Ctl :=
  if (getF c R.REC_STATE.STATE == 1 || getF c R.REC_STATE.STATE == 2) && !c.ret.restart && c.ret.kept.contains t then
    setB R.RET_STATUS.RESTORING true { c with ret := { c.ret with restoring := c.ret.restoring ++ [t] } }
  else c

/-- The consequences of RST_CTRL.GO at its end (R373). The restored image counts as drained (R360), but no IMG_DONE has acknowledged it (R376). -/
def goDone (u : Nat) (c : Ctl) : Ctl :=
  let c := setB R.MIR_STATUS.DONE false (setB R.SLU_STATUS.SNAP_VALID true (setF R.SLU_SNAP_STEP.STEP u c))
  onSnap (fun s => { s with done := some u, whole := some u }) (goSteps u c)

/-- RESTORE_COMPLETE: the state section of STATE_L is applied; another number of logical cores fails with FIT (R360, R371, R373). -/
def restoreComplete (d : Dev) : Dev :=
  match d.c.snap.restore with
  | none => d
  | some x =>
    if x.phase != .ready then d
    else
      let base := stateArea d.c 0
      let rd (o n : Nat) : Nat := leNat (readBytes d.m (base + o) n)
      if rd 0x40 2 ≠ lcores d.c.fuses.grade then onCtl (fun c => restoreFail (setB R.RST_STATUS.FIT true c)) d
      else onCtl (fun c =>
        let c := applySection rd c
        let c := if x.go then goDone x.step c else stageDue (x.step + 1) c
        restoreEnd (onSnap (fun s => { s with good := if s.good.contains x.step then s.good else x.step :: s.good }) c)) d

/-- RST_CTRL.GO: a whole-job restore from the generation at RST_STEP, unless a step has opened and the device is not HALTED (R373, R380). -/
def rstGo (d : Dev) : Dev :=
  if d.c.job.isSome && (getF d.c R.REC_STATE.STATE == 3 || !d.c.step.opened) then
    restoreStart (getF d.c R.RST_STEP.STEP) true d
  else d

/-! ### Frames with two uses, and commands -/

/-- IMG_DATA: to a restore of the own seat, else to the mirror of the seat this device holds (R357, R358, R370). -/
def gotImgData : Handler := fun _ rx d =>
  if restoreHears d.c rx .mirror then restoreData rx d
  else if rx.tag = getF d.c R.PLACE_SELF.MIRRORS ∧ getB d.c R.PLACE_SELF.SERVING then holderData rx d else d

/-- IMG_DONE: BAD to a restore from the mirror leaves the source; else it answers the drain (R358, R360, R370). -/
def gotImgDone : Handler := fun _ rx d =>
  if restoreHears d.c rx .mirror then (if rx.status = 0 then d else trySource 2 d)
  else match d.c.snap.drain with
    | some x => if rx.tag = x.seat then onCtl (drainDone x rx) d else d
    | none => d

/-- STRIPE_DATA: to a restore, else to a target (R363, R370). -/
def gotStripeData : Handler := fun _ rx d => if restoreHears d.c rx .stripes then restoreStripeData rx d else targetData rx d

/-- STRIPE_END: to a restore, else to a target. -/
def gotStripeEnd : Handler := fun _ rx d => if restoreHears d.c rx .stripes then restoreStripeEnd rx d else targetEnd rx d

/-- REC_DATA: to a restore, else to a target. -/
def gotRecData : Handler := fun _ rx d =>
  if restoreHears d.c rx .record then restoreRecData rx d
  else if some rx.tag = mySeat d.c then d else targetRecord rx d

/-- SNAPSHOT_COMPLETE: with every line copied and every slot read out, the capture buffer goes to STATE_L and the job ends; a bad image is not valid (R211, R355, R356, R361). -/
def snapComplete (d : Dev) : Dev :=
  if !snapLinesDone d.c || !d.c.snap.dumps.isEmpty then d
  else
    let d := copyState d
    let bad := d.c.slu.snapBad
    let u := getF d.c R.SLU_SNAP_STEP.STEP
    let d := onCtl (fun c =>
      let c := setB R.SLU_STATUS.SNAP_VALID (!bad) (setB R.SLU_STATUS.SNAP_ACTIVE false c)
      onSnap (fun s => { s with done := if bad then s.done else some u, whole := some u }) c) d
    if bad then d else tailStart u d

/-- SNAPSHOT_COMPLETE. -/
def execSnapshotComplete (s : State) : Host.Outcome State Fault Refusal := runDev snapComplete s

/-- IMG_DATA. -/
def execImgData (rx : Rx) (s : State) : Host.Outcome State Fault Refusal := runDev (arrive 3 0x01 gotImgData rx) s

/-- IMG_DONE. -/
def execImgDone (rx : Rx) (s : State) : Host.Outcome State Fault Refusal := runDev (arrive 3 0x04 gotImgDone rx) s

/-- STRIPE_DATA. -/
def execStripeData (rx : Rx) (s : State) : Host.Outcome State Fault Refusal := runDev (arrive 3 0x11 gotStripeData rx) s

/-- STRIPE_END. -/
def execStripeEnd (rx : Rx) (s : State) : Host.Outcome State Fault Refusal := runDev (arrive 3 0x12 gotStripeEnd rx) s

/-- STRIPE_ACK. -/
def execStripeAck (rx : Rx) (s : State) : Host.Outcome State Fault Refusal := runDev (arrive 3 0x13 gotStripeAck rx) s

/-- STRIPE_SEND. -/
def execStripeSend (s : State) : Host.Outcome State Fault Refusal := runDev stripeSend s

/-- STRIPE_RESEND. -/
def execStripeResend (i : Nat) (s : State) : Host.Outcome State Fault Refusal := runDev (stripeResend i) s

/-- STRIPE_REQ. -/
def execStripeReq (rx : Rx) (s : State) : Host.Outcome State Fault Refusal := runDev (arrive 3 0x14 gotStripeReq rx) s

/-- TAIL_COMMIT_RECORD. -/
def execTailCommitRecord (s : State) : Host.Outcome State Fault Refusal := runCtl tailCommit s

/-- REC_DATA. -/
def execRecData (rx : Rx) (s : State) : Host.Outcome State Fault Refusal := runDev (arrive 3 0x15 gotRecData rx) s

/-- REC_ACK. -/
def execRecAck (rx : Rx) (s : State) : Host.Outcome State Fault Refusal := runDev (arrive 3 0x16 gotRecAck rx) s

/-- REC_REQ. -/
def execRecReq (rx : Rx) (s : State) : Host.Outcome State Fault Refusal := runDev (arrive 3 0x17 gotRecReq rx) s

/-- RST_CTRL_GO. -/
def execRstCtrlGo (s : State) : Host.Outcome State Fault Refusal := runDev (fun d => if mainReady d.c 8 then rstGo d else d) s

/-- RESTORE_REQUEST_TIMEOUT. -/
def execRestoreRequestTimeout (i : Nat) (s : State) : Host.Outcome State Fault Refusal := runDev (restoreTimeout i) s

/-- DIGEST_SWEEP_DONE. -/
def execDigestSweepDone (s : State) : Host.Outcome State Fault Refusal := runDev sweepDone s

/-- RESTORE_COMPLETE. -/
def execRestoreComplete (s : State) : Host.Outcome State Fault Refusal := runDev restoreComplete s

end Sys2Proof.Machine
end

