-- ==== Sys2Proof/Machine/Admit.lean ====
section
/-! DEFINITION. Admission (R251 to R256, R263): handshakes with every roster member, their deadlines, quarantine ended by the host, and the flow contexts of R244. -/

namespace Sys2Proof.Machine

/-- The highest architecture level of this part (R4, R10). -/
def alMax : Nat := 1

/-- A peer changed. -/
def onPeer (n : Nat) (f : Peer → Peer) (c : Ctl) : Ctl := { c with peers := c.peers.adjust n f }

/-- A peer's row, if it is in the roster. -/
def peerOf (c : Ctl) (n : Nat) : Option Peer := c.peers.look n

/-- Admission deadline in beats, 0 acting as 1 (R275). -/
def admitBeats (c : Ctl) : Nat := max 1 (getF c R.SEL_TMO.ADMIT)

/-- The deadline of a message just sent; for an UNREACHABLE peer, whose next retry stands, it only ends this try (R263). -/
def admitWait (n : Nat) (c : Ctl) : Ctl :=
  let t := some (c.ticks + admitBeats c)
  onPeer n (fun p => if p.state = 4 then { p with lapse := t } else { p with deadline := t }) c

/-- The roster digest of the draft in force, as bytes (R417). -/
def rosterDigest (c : Ctl) : List Byte :=
  match c.job with
  | some j => leBytes 64 j.weave.digest.toNat
  | none => zeros 64

/-- The HELLO that starts a handshake, with a fresh nonce (R253). -/
def sendHello (n : Nat) (c : Ctl) : Ctl :=
  let nonce := freeValue c
  let c := onPeer n (fun p => { p with active := true, attempts := p.attempts + 1, nonce := nonce, theirs := none, sentAdmitted := false, gotAdmitted := false })
    (drawn c)
  let pay := leBytes 4 alMax ++ leBytes 4 (getF c R.PLACE_STATUS.ROSTER_VER) ++ rosterDigest c ++ leBytes 32 nonce.toNat
  admitWait n (sendAny (out 0 0x10 n pay) c)

/-- Most handshakes at once (R252). -/
def handshakeMax : Nat := 64

/-- Peers whose handshake has not been started, in the order of R252. -/
def handshakeNext (c : Ctl) : List Nat :=
  sortBy (fun a b => (a + 65536 - myNum c) % 65536 ≤ (b + 65536 - myNum c) % 65536)
    ((c.peers.filter (fun e => e.2.state == 1 && !e.2.active && e.2.attempts == 0)).map (·.1))

/-- Handshakes that may still be started beside those under way (R252). -/
def handshakeRoom (c : Ctl) : Nat := handshakeMax - (c.peers.filter (fun e => e.2.active)).length

/-- Whether a handshake with peer n may be under way: it is already, or fewer than 64 are (R252). -/
def handshakeFree (c : Ctl) (n : Nat) : Bool :=
  decide (0 < handshakeRoom c) || (match c.peers.look n with | some p => p.active | none => false)

/-- Handshakes are started while fewer than 64 are under way (R252). -/
def handshakeFill (c : Ctl) : Ctl := ((handshakeNext c).take (handshakeRoom c)).foldl (fun c n => sendHello n c) c

/-- A peer with nothing known of it. -/
def Peer.pending (beat : Nat) : Peer :=
  { state := 1, level := 0, reason := 0, qport := 0, beat := beat, active := false, attempts := 0, deadline := none, lapse := none, nonce := 0,
    theirs := none, sentAdmitted := false, gotAdmitted := false }

/-- Quarantines and admissions end, and the handshakes start (R252, R422). Flow contexts and frames to peers go with them. -/
def admissionStart (c : Ctl) : Ctl :=
  let b := getF c R.BEAT_NOW.BEAT % 2 ^ 32
  let ns := ((members c).map (·.num)).filter (fun n => some n != c.place.me)
  handshakeFill (setB R.SEL_STATUS.ROSTER true
    { c with peers := ns.foldl (fun t n => t.put n (Peer.pending b)) [], flows := [], waitq := [] })

/-- What a transcript signature covers (R253). -/
def transcript (c : Ctl) (sender receiver : Nat) (rNonce sNonce : BitVec 256) (al : Nat) : List Byte :=
  [0x54, 0x4C, 0x5A, 0x2D, 0x41, 0x44, 0x4D, 0x49, 0x54] ++ leBytes 2 sender ++ leBytes 2 receiver ++ leBytes 32 rNonce.toNat ++
    leBytes 32 sNonce.toNat ++ rosterDigest c ++ leBytes 1 al

/-- The PROVE of this device to peer n, whose nonce is `theirs` (R253). -/
def provePayload (c : Ctl) (n : Nat) (own theirs : BitVec 256) : List Byte :=
  let sig := signMessage (leBytes 32 c.fuses.idSeed.toNat) (transcript c (myNum c) n theirs own alMax)
  identityKey c ++ leBytes 64 c.fuses.certificate.toNat ++ leBytes 8 c.fuses.serial.toNat ++ leBytes 4 (getF c R.PLACE_STATUS.ROSTER_VER) ++
    rosterDigest c ++ leBytes 64 ((c.job.map (·.weave.ownerSig.toNat)).getD 0) ++ zeros 12 ++ sig

/-- A failed check: REJECT with its reason, and quarantine (R253, R256). -/
def admitReject (n reason port : Nat) (c : Ctl) : Ctl :=
  handshakeFill (quarantine n reason port (sendAny (out 0 0x13 n (leBytes 4 reason)) c))

/-- Whether an AL_MAX leaves a common level (R254). -/
def levelOk (al : Nat) : Bool := decide (1 ≤ al ∧ al ≤ 3)

/-- A HELLO outside a handshake, or a further one: an ADMITTED peer is PENDING again, and a new handshake begins, unless 64 are under way; then it waits its turn (R252, R253, R273). -/
def helloAgain (n : Nat) (c : Ctl) : Ctl :=
  let free := handshakeFree c n
  let c := if peerIs c n 2 then setPeerState n 1 c else c
  let c := onPeer n (fun p => { p with attempts := if p.state = 4 then p.attempts else 0 }) c
  if free then sendHello n c else c

/-- The PROVE that answers a HELLO whose nonce and level are `theirs` (R253). -/
def answerHello (n : Nat) (theirs : BitVec 256) (al : Nat) (c : Ctl) : Ctl :=
  let c := onPeer n (fun p => { p with theirs := some (theirs, al) }) c
  match peerOf c n with
  | some p => admitWait n (sendAny (out 0 0x11 n (provePayload c n p.nonce theirs)) c)
  | none => c

/-- HELLO: the peer's nonce is answered with PROVE; the first HELLO of a handshake under way answers this device's own, a further one or one outside a handshake starts a new handshake (R253). -/
def gotHello : Handler := fun _ rx d =>
  onCtl (fun c =>
    let n := rx.peer
    let pay := rx.frame.payload
    let al := leNat (pay.take 4) % 16
    match peerOf c n with
    | none => c
    | some p =>
      if !levelOk al then admitReject n 5 rx.port c
      else
        let free := handshakeFree c n
        let c := if p.active && p.theirs.isNone then c else helloAgain n c
        if free then answerHello n (BitVec.ofNat 256 (leNat ((pay.drop 72).take 32))) al c else c) d

/-- The checks of R254 on a PROVE; the reason of the first that fails. The grade code of the certificate has the four bytes that R364 gives it. DEDUCED (log entry 170): the owner has signed the version that the draft carries, and an advance of the roster makes no new signature, so the signature is checked over the draft's version, and ROSTER_VER is what the version itself is compared with. -/
def proveCheck (c : Ctl) (n : Nat) (p : Peer) (theirs : BitVec 256) (al ver : Nat) (pay : List Byte) : Option Nat :=
  let f (o k : Nat) : List Byte := (pay.drop o).take k
  let key := f 0 32
  match c.job, member c n with
  | some j, some m =>
    let digest := f 108 64
    if leNat (f 104 4) != getF c R.PLACE_STATUS.ROSTER_VER || digest != rosterDigest c then some 3
    else if !verifyMessage (leBytes 32 j.weave.ownerKey.toNat) (leBytes 4 j.weave.ver ++ digest) (f 172 64) then some 3
    else if leNat key != m.key.toNat then some 4
    else if !m.endpoint && !([1, 2].any (fun g => verifyMessage (leBytes 32 Config.certKey.toNat) (f 96 8 ++ key ++ leBytes 4 g) (f 32 64))) then some 1
    else if !verifyMessage key (transcript c n (myNum c) p.nonce theirs al) (f 248 64) then some 2
    else if !levelOk al || !levelOk ver then some 5
    else none
  | _, _ => some 3

/-- A peer both ends have admitted (R253). -/
def admitDone (n : Nat) (c : Ctl) : Ctl :=
  match peerOf c n with
  | some p =>
    if p.sentAdmitted && p.gotAdmitted then
      let level := min alMax ((p.theirs.map (·.2)).getD alMax)
      flushWait (handshakeFill (onPeer n (fun p => { p with level := level, attempts := 0 }) (setPeerState n 2 c)))
    else c
  | none => c

/-- PROVE (R254). One that comes before the peer's HELLO is covered by no transcript and is dropped. -/
def gotProve : Handler := fun _ rx d =>
  onCtl (fun c =>
    let n := rx.peer
    match peerOf c n with
    | some p =>
      match p.active, p.theirs with
      | true, some (theirs, al) =>
        match proveCheck c n p theirs al rx.frame.hdr.ver.toNat rx.frame.payload with
        | some r => admitReject n r rx.port c
        | none =>
          let c := sendAny (out 0 0x12 n (leBytes 4 (min alMax al))) c
          admitDone n (admitWait n (onPeer n (fun p => { p with sentAdmitted := true }) c))
      | _, _ => c
    | none => c) d

/-- ADMITTED (R253). -/
def gotAdmitted : Handler := fun _ rx d =>
  onCtl (fun c =>
    let n := rx.peer
    match peerOf c n with
    | some p => if p.active then admitDone n (onPeer n (fun p => { p with gotAdmitted := true }) c) else c
    | none => c) d

/-- REJECT: as failing that peer's PROVE with the reason it carries (R256). -/
def gotReject : Handler := fun _ rx d =>
  onCtl (fun c => handshakeFill (quarantine rx.peer (leNat (rx.frame.payload.take 4) % 16) rx.port c)) d

/-! ### Deadlines (R263) -/

/-- Whether a peer's deadline has come. -/
def peerDue (c : Ctl) (n st : Nat) : Bool :=
  match peerOf c n with
  | some p => p.state == st && (match p.deadline with | some t => decide (t ≤ c.ticks) | none => false)
  | none => false

/-- ADMISSION_DEADLINE: the handshake is tried again; after three attempts the peer is UNREACHABLE (R263). -/
def admissionDue (n : Nat) (c : Ctl) : Ctl :=
  if !peerDue c n 1 then c
  else match peerOf c n with
    | some p =>
      if p.attempts < 3 then sendHello n c
      else
        let c := onPeer n (fun p => { p with deadline := some (c.ticks + 16 * admitBeats c) }) (setPeerState n 4 c)
        handshakeFill (raiseLinkPeer 0x0C srcSelvedge n 0 c)
    | none => c

/-- An UNREACHABLE peer is tried again, its next retry 16 admission deadlines later (R263). -/
def tryAgain (n : Nat) (c : Ctl) : Ctl := sendHello n (onPeer n (fun p => { p with deadline := some (c.ticks + 16 * admitBeats c) }) c)

/-- ADMISSION_RETRY: an UNREACHABLE peer is tried again, every 16 admission deadlines, as soon as fewer than 64 handshakes are under way (R252, R263). -/
def admissionRetryDue (n : Nat) (c : Ctl) : Ctl :=
  if peerDue c n 4 && handshakeFree c n then tryAgain n c else c

/-- A try of an UNREACHABLE peer that has had no answer in its time is over (R252, R263). -/
def tryLapse (n : Nat) (c : Ctl) : Ctl :=
  onPeer n (fun p => match p.lapse with
    | some t => if p.state = 4 ∧ t ≤ c.ticks then { p with active := false, lapse := none } else p
    | none => p) c

/-- Every admission deadline that has come; a try that is over makes room for handshakes that wait (R252). -/
def admissionsDue (c : Ctl) : Ctl :=
  let ns := c.peers.map (·.1)
  let c := handshakeFill (ns.foldl (fun c n => tryLapse n c) c)
  ns.foldl (fun c n => admissionRetryDue n (admissionDue n c)) c

/-! ### The host's part (R274) -/

/-- The peer that SEL_PEER_SEL names. -/
def selPeer (c : Ctl) : Nat := getF c R.SEL_PEER_SEL.DEVICE

/-- SEL_PEER_CTRL.CLEAR_QUAR: the peer is PENDING, and its handshake starts, or waits its turn behind 64 that are under way (R252, R274). -/
def clearQuar (c : Ctl) : Ctl :=
  let n := selPeer c
  if peerIs c n 3 then
    let c := onPeer n (fun p => { p with attempts := 0, reason := 0 }) (setPeerState n 1 c)
    if handshakeFree c n then sendHello n c else c
  else c

/-- SEL_PEER_CTRL.RETRY: at once, or at the first boundary at which fewer than 64 handshakes are under way (R252, R274). -/
def retryPeer (c : Ctl) : Ctl :=
  let n := selPeer c
  if peerIs c n 4 then
    (if handshakeFree c n then tryAgain n c else onPeer n (fun p => { p with deadline := some c.ticks }) c)
  else c

/-! ### Flow contexts (R244) -/

/-- Whether a flow has an outstanding request. -/
def flowBusy (c : Ctl) (f : Flow) : Bool := f.cls == 2 && c.reqs.any (fun e => e.2.peer == f.peer && e.2.port == f.port)

/-- FLOW_CONTEXT_FREE: a context without outstanding request whose flow has carried no frame for 16 beats (R244); a frame that waits for one may then go. -/
def flowFree (k : Nat) (c : Ctl) : Ctl :=
  match c.flows.look k with
  | some f => if !flowBusy c f && decide (f.last + 16 ≤ c.ticks) then flushWait { c with flows := c.flows.del k } else c
  | none => c

/-- Every context that is due. -/
def flowsDue (c : Ctl) : Ctl :=
  flushWait { c with flows := c.flows.filter (fun e => flowBusy c e.2 || !decide (e.2.last + 16 ≤ c.ticks)) }

/-! ### Commands -/

/-- HELLO. -/
def execHello (rx : Rx) (s : State) : Host.Outcome State Fault Refusal := runDev (arrive 0 0x10 gotHello rx) s

/-- PROVE. -/
def execProve (rx : Rx) (s : State) : Host.Outcome State Fault Refusal := runDev (arrive 0 0x11 gotProve rx) s

/-- ADMITTED. -/
def execAdmitted (rx : Rx) (s : State) : Host.Outcome State Fault Refusal := runDev (arrive 0 0x12 gotAdmitted rx) s

/-- REJECT. -/
def execReject (rx : Rx) (s : State) : Host.Outcome State Fault Refusal := runDev (arrive 0 0x13 gotReject rx) s

/-- ADMISSION_DEADLINE. -/
def execAdmissionDeadline (n : Nat) (s : State) : Host.Outcome State Fault Refusal := runCtl (admissionDue n) s

/-- ADMISSION_RETRY. -/
def execAdmissionRetry (n : Nat) (s : State) : Host.Outcome State Fault Refusal := runCtl (admissionRetryDue n) s

/-- CLEAR_QUAR, while the selvedge is READY. -/
def execClearQuar (s : State) : Host.Outcome State Fault Refusal := runCtl (whenReady 9 clearQuar) s

/-- RETRY, while the selvedge is READY. -/
def execRetry (s : State) : Host.Outcome State Fault Refusal := runCtl (whenReady 9 retryPeer) s

/-- FLOW_CONTEXT_FREE. -/
def execFlowContextFree (k : Nat) (s : State) : Host.Outcome State Fault Refusal := runCtl (flowFree k) s

end Sys2Proof.Machine
end

