-- ==== Sys2Proof/Machine/DraftFmt.lean ====
section
/-! DEFINITION. The bytes of a draft (R413 to R417): header, sections, and the fields of each section type. -/

namespace Sys2Proof.Machine

/-! ### Header (R413) -/

/-- A little-endian field of `n` bytes at offset `o`. -/
def dfld (bs : List Byte) (o n : Nat) : Nat := leNat ((bs.drop o).take n)

def draftMagic : Nat := 0x0000015446415244

/-- LENGTH of the header (R413). -/
def draftLen (bs : List Byte) : Nat := dfld bs 0x10 8

/-- Largest draft, and size of a draft store (R413, R419). -/
def draftMax : Nat := 0x4000000

/-- The draft digest: SHA-512 of bytes 0x000 to 0x0BF (R413). -/
def draftDigest (bs : List Byte) : BitVec 512 := BitVec.ofNat 512 (leNat (sha512 (bs.take 0xC0)))

/-! ### Sections (R414, R415) -/

/-- The section header at offset `o`, with its body; none when its LENGTH breaks R414 or the section overruns. -/
def sectAt (bs : List Byte) (len o : Nat) : Option (Sect × Nat) :=
  let l := dfld bs (o + 4) 4
  if l < 16 ∨ l % 8 ≠ 0 ∨ len < o + l then none
  else
    some ({ type := dfld bs o 2, level := dfld bs (o + 2) 1 % 16, group := dfld bs (o + 8) 1, program := dfld bs (o + 10) 2, off := o,
            body := (bs.drop (o + 16)).take (l - 16) }, o + l)

/-- The sections from offset `o` to the end: the list, and the offset at which the walk failed, if it did. -/
def sectWalk (bs : List Byte) (len : Nat) : Nat → Nat → List Sect × Option Nat
  | 0, o => ([], some o)
  | n + 1, o =>
    if len ≤ o then ([], none)
    else match sectAt bs len o with
      | none => ([], some o)
      | some (s, next) =>
        let r := sectWalk bs len n next
        (s :: r.1, r.2)

/-- All sections of a draft. -/
def draftSects (bs : List Byte) : List Sect × Option Nat := sectWalk bs (draftLen bs) (draftLen bs / 16 + 1) 0x100

/-- Section types (R416). -/
def sCoreGroups : Nat := 0x01
def sBeat : Nat := 0x02
def sWeave : Nat := 0x03
def sMemory : Nat := 0x04
def sSalt : Nat := 0x05
def sPorts : Nat := 0x06
def sCheck : Nat := 0x07
def sSnapshot : Nat := 0x08
def sSparing : Nat := 0x09
def sGovernor : Nat := 0x0A
def sSequence : Nat := 0x0B
def sProgram : Nat := 0x10
def sPatch : Nat := 0x11
def sSample : Nat := 0x12

/-- The body of the section of a type, empty when there is none. -/
def sectBody (l : List Sect) (t : Nat) : List Byte := ((l.find? (fun s => s.type == t)).map (·.body)).getD []

/-- Offset of the header of the section of a type, or 0. -/
def sectOff (l : List Sect) (t : Nat) : Nat := ((l.find? (fun s => s.type == t)).map (·.off)).getD 0

/-- The order of sections (R414). -/
def sectRank (s : Sect) : Nat := (s.type * 65536 + s.program) * 256 + s.group

/-- n elements of k bytes from offset o. -/
def elems (bs : List Byte) (o k n : Nat) : List (List Byte) := (List.range n).map (fun i => (bs.drop (o + k * i)).take k)

/-! ### Bodies (R416) -/

/-- Counts of the weave section: members, groups, shards, shed entries, seat-map entries. -/
def weaveCount (bs : List Byte) (i : Nat) : Nat := dfld bs (112 + 4 * i) 4

/-- Start of the member entries. -/
def weaveHead : Nat := 136

/-- The listed groups from offset o: their seats, and the offset past them (R416). -/
def weaveGroups (bs : List Byte) : Nat → Nat → List (List Nat) × Nat
  | 0, o => ([], o)
  | n + 1, o =>
    let k := dfld bs o 4
    let r := weaveGroups bs n (o + (4 + 2 * k + 7) / 8 * 8)
    (((elems bs (o + 4) 2 k).map leNat) :: r.1, r.2)

/-- A member entry (R300). -/
def memberOf (e : List Byte) : Member :=
  let k := dfld e 2 1
  { num := dfld e 0 2, endpoint := k % 2 == 1, spare := k / 2 % 2 == 1, cap := dfld e 3 1 % 16, fgroup := dfld e 4 2 % 4096,
    key := BitVec.ofNat 256 (dfld e 8 32) }

/-- Whether the counts of a weave section are within their limits (R421, code 0x0A), so that its lists may be read. -/
def weaveCountsOk (bs : List Byte) : Bool :=
  decide (weaveCount bs 0 ≤ 65536) && decide (weaveCount bs 1 ≤ 4095) && decide (weaveCount bs 2 ≤ 65536)

/-- The weave section (R416, R417). -/
def weaveOf (bs : List Byte) : Weave :=
  let nm := weaveCount bs 0
  let entries := (bs.drop weaveHead).take (40 * nm)
  let g := weaveGroups bs (weaveCount bs 1) (weaveHead + 40 * nm)
  let so := g.2
  let ho := so + 16 * weaveCount bs 2
  let mo := ho + 8 * weaveCount bs 3
  { broad := dfld bs 0 1 == 1, ver := dfld bs 4 4, ownerKey := BitVec.ofNat 256 (dfld bs 8 32), ownerSig := BitVec.ofNat 512 (dfld bs 40 64),
    salt := dfld bs 104 8,
    members := (elems bs weaveHead 40 nm).map memberOf,
    groups := g.1,
    shards := (elems bs so 16 (weaveCount bs 2)).map (fun e => ⟨dfld e 0 4, dfld e 4 4, dfld e 8 2, dfld e 10 2⟩),
    sheds := (elems bs ho 8 (weaveCount bs 3)).map (fun e => ⟨dfld e 0 2, dfld e 2 1, dfld e 4 2⟩),
    seatMap := (elems bs mo 8 (weaveCount bs 4)).map (fun e => ⟨dfld e 0 2, dfld e 2 2, dfld e 4 2⟩),
    digest := BitVec.ofNat 512 (leNat (sha512 ((bs.drop 104).take 8 ++ entries))) }

/-- Bytes that a weave section needs. -/
def weaveNeed (bs : List Byte) : Nat :=
  if !weaveCountsOk bs then weaveHead
  else (weaveGroups bs (weaveCount bs 1) (weaveHead + 40 * weaveCount bs 0)).2 + 16 * weaveCount bs 2 + 8 * weaveCount bs 3 + 8 * weaveCount bs 4

/-- The memory section (R416). -/
def memOf (bs : List Byte) : MemSec :=
  { parts := (elems bs 0 4 7).map (fun e => (dfld e 0 2, dfld e 2 2)), regs := (elems bs 32 8 8).map leNat,
    regions := (elems bs 96 4 5).map (fun e => (dfld e 0 2, dfld e 2 2)), hotCfg := dfld bs 120 4 }

/-- A restore target (R328, R416). -/
def targetOfBytes (e : List Byte) : RestoreTarget :=
  { addr := dfld e 0 8, len := dfld e 8 4, off := dfld e 12 4, parity := dfld e 16 1, flags := dfld e 24 8 }

/-- The check section (R416). -/
def checkOf (bs : List Byte) : CheckSec :=
  { n := dfld bs 0 1, d := dfld bs 1 1, kSample := dfld bs 2 1, smpBase := dfld bs 4 4, smpEntries := dfld bs 8 2, probEntries := dfld bs 10 2,
    retSlots := dfld bs 12 1, stageKib := dfld bs 16 4, recCfg := dfld bs 20 4, voteCfg := dfld bs 24 4,
    targets := (elems bs 28 32 4).map targetOfBytes }

/-- The snapshot section (R352, R416). -/
def snapOf (bs : List Byte) : SnapSec :=
  { interval := dfld bs 0 2, stateTiles := dfld bs 2 2, tailSteps := dfld bs 4 4, tailK := dfld bs 8 1, trimmed := dfld bs 9 1 == 1,
    trim := (elems bs 16 8 (min 64 (dfld bs 10 1))).map (fun e => (dfld e 0 4, dfld e 4 4)),
    targets := (elems bs 528 4 (min 4096 (dfld bs 12 4))).map (fun e => ⟨dfld e 0 2, dfld e 2 1 % 2 == 1⟩) }

/-- The governor section (R97, R416): the number of records is bounded before its list is read. -/
def govOf (bs : List Byte) : GovSec :=
  let n := dfld bs 8 2
  { seed := dfld bs 0 8, records := n, measSteps := dfld bs 10 1, th := (elems bs 12 4 5).map leNat,
    recs := (elems bs 32 16 (min 16384 n - 1)).map (fun e => (dfld e 0 4, dfld e 4 4, dfld e 8 4)) }

/-- The chunks of a core from offset o (R416). -/
def chunksFrom (bs : List Byte) : Nat → Nat → List Chunk × Nat
  | 0, o => ([], o)
  | n + 1, o =>
    let l := dfld bs (o + 4) 4
    let r := chunksFrom bs n (o + 8 + (l + 7) / 8 * 8)
    (⟨dfld bs o 4, (bs.drop (o + 8)).take l⟩ :: r.1, r.2)

/-- The parts of a PROGRAM section for the logical cores of its group, from offset o (R416); a count past the section's end reads nothing. -/
def coreProgs (bs : List Byte) : List Nat → Nat → List CoreProg × Nat
  | [], o => ([], o)
  | c :: cs, o =>
    let ni := dfld bs (o + 96) 2
    let nc := dfld bs (o + 100) 4
    let io := o + 104
    let ch := chunksFrom bs (min nc (bs.length / 8 + 1)) (io + 256 * ni)
    let here : CoreProg := { core := c, lists := (elems bs o 4 24).map leNat, first := dfld bs (o + 98) 2,
                             images := elems bs io 256 ni, chunks := ch.1 }
    let r := coreProgs bs cs ch.2
    (here :: r.1, r.2)

/-- Logical cores of a group, ascending (R416). -/
def groupCores (coreGroup : List Nat) (g : Nat) : List Nat := (List.range 64).filter (fun c => coreGroup.getD c 0xFF == g)

/-- A PROGRAM section. -/
def progOf (coreGroup : List Nat) (s : Sect) : ProgSec :=
  { program := s.program, group := s.group, cores := (coreProgs s.body (groupCores coreGroup s.group) 0).1 }

/-- The entries of a PATCH section. -/
def patchesOf (s : Sect) : List PatchEnt :=
  (elems s.body 0 16 (s.body.length / 16)).map (fun e =>
    { set := s.program, group := s.group, core := dfld e 0 1, idx := dfld e 2 2, word := dfld e 4 1, value := dfld e 8 4 })

/-- A signed 16-bit field. -/
def dint16 (bs : List Byte) (o : Nat) : Int := (BitVec.ofNat 16 (dfld bs o 2)).toInt

/-- The entries of a SAMPLE section. -/
def samplesOf (s : Sect) : List SampleEnt :=
  (elems s.body 0 16 (s.body.length / 16)).map (fun e =>
    { kind := dfld e 0 1, core := dfld e 1 1, treadle := dfld e 2 1, j := dfld e 4 4, partner := dint16 e 8, entry := dfld e 10 2 })

/-- The groups of the logical cores (R416). -/
def coreGroupsOf (bs : List Byte) : List Nat := ((bs.drop 8).take 64).map (·.toNat)

/-- Spare ports 36 and 37 (R235, R416). -/
def sparesOf (bs : List Byte) : List (Nat × Bool) := (elems bs 0 2 2).map (fun e => (leNat e % 64, leNat e / 2 ^ 15 == 1))

/-- A draft from its sections at level 1 (R413, R416). -/
def draftOf (bs : List Byte) (l : List Sect) : Draft :=
  let b (t : Nat) := sectBody l t
  let cg := coreGroupsOf (b sCoreGroups)
  { reload := dfld bs 9 1 == 1, group := dfld bs 10 1, signer := BitVec.ofNat 256 (dfld bs 0x20 32), base := BitVec.ofNat 512 (dfld bs 0x40 64),
    digest := draftDigest bs, sects := l, ngroups := dfld (b sCoreGroups) 0 1, coreGroup := cg,
    period := dfld (b sBeat) 0 4, guardPm := dfld (b sBeat) 4 2, weave := weaveOf (b sWeave), mem := memOf (b sMemory), salt := dfld (b sSalt) 0 8,
    spares := sparesOf (b sPorts), selTmo := dfld (b sPorts) 4 4, check := checkOf (b sCheck), snap := snapOf (b sSnapshot),
    fanCfg := dfld (b sSparing) 0 8, fanHeatCfg := dfld (b sSparing) 8 4, hbMiss := dfld (b sSparing) 12 1, gov := govOf (b sGovernor),
    seq := { firstStep := dfld (b sSequence) 0 8, lastStep := dfld (b sSequence) 8 8, bTrain := dfld (b sSequence) 16 2,
             bMeas := dfld (b sSequence) 18 2, bClose := dfld (b sSequence) 20 2 },
    programs := (l.filter (fun s => s.type == sProgram)).map (progOf cg),
    patches := (l.filter (fun s => s.type == sPatch)).flatMap patchesOf,
    samples := (l.filter (fun s => s.type == sSample)).map (fun s => (s.program, samplesOf s)) }

/-- Bytes that a section's body needs (R416). -/
def sectNeed (coreGroup : List Nat) (s : Sect) : Nat :=
  if s.type = sCoreGroups then 72
  else if s.type = sBeat then 8
  else if s.type = sWeave then (if s.body.length < weaveHead then weaveHead else weaveNeed s.body)
  else if s.type = sMemory then 128
  else if s.type = sSalt then 8
  else if s.type = sPorts then 8
  else if s.type = sCheck then 156
  else if s.type = sSnapshot then 528 + 4 * min 4096 (dfld s.body 12 4)
  else if s.type = sSparing then 16
  else if s.type = sGovernor then 32 + 16 * (min 16384 (dfld s.body 8 2) - 1)
  else if s.type = sSequence then 24
  else if s.type = sProgram then (coreProgs s.body (groupCores coreGroup s.group) 0).2
  else 0

/-- Types with one section each, without group or program (R416). -/
def singleTypes : List Nat := [sCoreGroups, sBeat, sWeave, sMemory, sSalt, sPorts, sCheck, sSnapshot, sSparing, sGovernor, sSequence]

/-- Whether R416 has a type. -/
def typeKnown (t : Nat) : Bool := singleTypes.contains t || t == sProgram || t == sPatch || t == sSample

/-- Whether one section obeys R414 to R416, whatever the others: a level that R10 calls invalid, an unknown type, a group or program where the type names none, a body too short. -/
def sectOk (coreGroup : List Nat) (s : Sect) : Bool :=
  if 2 ≤ s.level then true
  else s.level == 1 && typeKnown s.type && (!singleTypes.contains s.type || (s.group == 0xFF && s.program == 0xFFFF)) &&
    (s.type != sSample || s.group == 0xFF) &&
    decide (sectNeed coreGroup s ≤ s.body.length)

/-- The offset of the first section out of order (R414). -/
def sectDisorder : List Sect → Option Nat
  | a :: b :: rest => if sectRank a < sectRank b then sectDisorder (b :: rest) else some b.off
  | _ => none

end Sys2Proof.Machine
end

