-- ==== Sys2Proof/Machine/Lanes.lean ====
section
/-! DEFINITION. Ports, lanes and lasers (R232 to R236, R263, R266 to R268): failures, spare lasers, width changes at the boundary, training, spares. -/

namespace Sys2Proof.Machine

/-- Bit l of eight lanes. -/
def laneBit (l : Nat) : BitVec 8 := 1 <<< l

/-- Lane l of a PORT_LANES field. -/
def lanesF (f : Fld) (p l : Nat) : Fld := { portF f p with lo := f.lo + l, w := 1 }

/-- Whether a port carries frames or will at the next boundary: UP or PAUSED (R266). -/
def portLive (c : Ctl) (p : Nat) : Bool :=
  getF c (portF R.PORT_STATUS.STATE p) == 2 || getF c (portF R.PORT_STATUS.STATE p) == 3

/-- A receive lane is out of service: its receiver stops at once, the port is charged (R232, R233, R384). DESIGN CHOICE (log entry 149): it stays out of service until power-off; training its port again does not bring it back. -/
def rxLaneOut (p l : Nat) (c : Ctl) : Ctl :=
  if (portSt c p).rxOut.getLsbD l then c
  else
    let c := setPortSt p (fun s => { s with rxOut := s.rxOut ||| laneBit l }) c
    chargeUnit kLane (srcPort p) (setF (lanesF R.PORT_LANES.RX_ACTIVE p l) 0 c)

/-- A transmit lane is out of service (R232, R384). -/
def txLaneOut (p l : Nat) (c : Ctl) : Ctl :=
  if (portSt c p).txOut.getLsbD l then c
  else
    let c := setPortSt p (fun s => { s with txOut := s.txOut ||| laneBit l }) c
    chargeUnit kLane (srcPort p) (setF (lanesF R.PORT_LANES.TX_ACTIVE p l) 0 c)

/-- Lasers of lane l of port p that repair records name: the first record is that of the lane's own laser, the second that of its spare (R268, R390, R428). -/
def laserRecords (c : Ctl) (p l : Nat) : Nat := (c.fuses.repairs.filter (· == srcLane p l)).length

/-- A laser of a lane is retired: the repair records then name `n` of them; with the records full it lasts until power-off and raises a MARGIN event (R390, R428). -/
def laserRecord (p l n : Nat) (c : Ctl) : Ctl :=
  if n ≤ laserRecords c p l then c
  else if c.fuses.repairs.length + (n - laserRecords c p l) ≤ repairMax then
    { c with fuses := { c.fuses with repairs := c.fuses.repairs ++ List.replicate (n - laserRecords c p l) (srcLane p l) } }
  else raise evMargin 0 (srcLane p l) 0 c

/-- Both lasers of a lane have failed: the lane is out of service for good, and both are retired (R234, R268, R390, R428). -/
def laserDead (p l : Nat) (c : Ctl) : Ctl :=
  laserRecord p l 2 (txLaneOut p l (setPortSt p (fun s => { s with lighting := s.lighting &&& ~~~ laneBit l, settled := s.settled &&& ~~~ laneBit l })
    (onUnit (srcLane p l) (fun u => { u with retired := true }) (setF (lanesF R.PORT_LANES.LASER_DEAD p l) 1 c))))

/-- The lasers that repair records name, at power-on: one with its spare in service, or both out of service (R268, R428). -/
def laserRepairs (p l : Nat) (c : Ctl) : Ctl :=
  let c := setF (lanesF R.PORT_LANES.SPARE_LASER p l) 1 c
  if laserRecords c p l < 2 then c
  else
    onUnit (srcLane p l) (fun u => { u with retired := true })
      (setPortSt p (fun s => { s with txOut := s.txOut ||| laneBit l }) (setF (lanesF R.PORT_LANES.LASER_DEAD p l) 1 c))

/-- The fantail lights the spare laser of a lane, if the lane does not already run on it or wait for it (R234). -/
def lightSpare (p l : Nat) (c : Ctl) : Ctl :=
  let s := portSt c p
  if getF c (lanesF R.PORT_LANES.LASER_DEAD p l) = 1 ∨ s.lighting.getLsbD l ∨ s.settled.getLsbD l then c
  else if getF c (lanesF R.PORT_LANES.SPARE_LASER p l) = 1 then laserDead p l c
  else setPortSt p (fun s => { s with lighting := s.lighting ||| laneBit l }) c

/-- LASER_FAIL: charged; the spare is lit, and a lane whose old laser no longer works is out of service until the switch (R234, R384). -/
def laserFail (p l : Nat) (dead : Bool) : Ctl → Ctl := inCycle (fun c =>
  let c := chargeUnit kLaser (srcPort p) c
  let onSpare := getF c (lanesF R.PORT_LANES.SPARE_LASER p l) = 1
  let c := lightSpare p l c
  if dead && !onSpare then txLaneOut p l c else c)

/-- SPARE_LASER_SETTLED: the lane is switched at the next boundary; a spare that fails leaves the lane out of service for good (R234). -/
def spareSettled (p l : Nat) (lit : Bool) (c : Ctl) : Ctl :=
  if !(portSt c p).lighting.getLsbD l then c
  else if lit then setPortSt p (fun s => { s with lighting := s.lighting &&& ~~~ laneBit l, settled := s.settled ||| laneBit l }) c
  else laserDead p l (chargeUnit kLaser (srcPort p) c)

/-- A port's widths and lanes as its lanes in service now allow (R232). -/
def setWidths (p : Nat) (c : Ctl) : Ctl :=
  let s := portSt c p
  let c := setF (portF R.PORT_STATUS.TX_WIDTH p) (laneWidth s.txOut) (setF (portF R.PORT_STATUS.RX_WIDTH p) (laneWidth s.rxOut) c)
  setF (portF R.PORT_LANES.TX_ACTIVE p) (laneMask s.txOut) (setF (portF R.PORT_LANES.RX_ACTIVE p) (laneMask s.rxOut) c)

/-- Whether a port's widths or lanes differ from what its lanes in service allow. -/
def widthsStale (c : Ctl) (p : Nat) : Bool :=
  let s := portSt c p
  getF c (portF R.PORT_STATUS.TX_WIDTH p) != laneWidth s.txOut || getF c (portF R.PORT_STATUS.RX_WIDTH p) != laneWidth s.rxOut ||
    getF c (portF R.PORT_LANES.TX_ACTIVE p) != laneMask s.txOut || getF c (portF R.PORT_LANES.RX_ACTIVE p) != laneMask s.rxOut

/-- Lanes switched to their settled spares; the lasers that they leave are retired (R234, R390, R428). -/
def switchLasers (p : Nat) (c : Ctl) : Ctl :=
  let on := (portSt c p).settled
  let c := forN 8 (fun l c => if on.getLsbD l then laserRecord p l 1 (setF (lanesF R.PORT_LANES.SPARE_LASER p l) 1 c) else c) c
  setPortSt p (fun s => { s with settled := 0, txOut := s.txOut &&& ~~~ on }) c

/-- A failed port that its spare replaces is retired: its state, its READY bit, its repair record (R235, R427, R428). DESIGN CHOICE (log entry 165): its DOWN_CAUSE stays what it went down with. -/
def replacePort (p : Nat) (c : Ctl) : Ctl :=
  let c := if portLive c p then portDark p downRetired c else setF (portF R.PORT_STATUS.STATE p) 5 c
  markRetired (srcPort p) (unready (.port p) (setB (portF R.PORT_STATUS.MAPPED p) false c))

/-- Whether a trained spare is needed at a boundary: its plane has no port, or one that is down or retired with any cause but ADMISSION or HOST (R235). -/
def spareNeeded (c : Ctl) (p : Nat) : Bool :=
  match physPort c (getF c (portF R.PORT_SPARE_PLANE.PLANE p)) with
  | some old =>
    let st := getF c (portF R.PORT_STATUS.STATE old)
    let why := getF c (portF R.PORT_STATUS.DOWN_CAUSE old)
    (st == 4 || st == 5) && why != downAdmission && why != downHost
  | none => true

/-- A trained spare takes over the logical port of its plane; the failed port is retired (R235). -/
def mapSpare (p : Nat) (c : Ctl) : Ctl :=
  let q := getF c (portF R.PORT_SPARE_PLANE.PLANE p)
  let c := setPortSt p (fun s => { s with ready := false }) c
  let c := match physPort c q with
    | some old => replacePort old c
    | none => c
  setF (portF R.PORT_STATUS.LOGICAL p) q (setB (portF R.PORT_STATUS.MAPPED p) true c)

/-- A live port at a beat boundary: laser and width changes with their pause, a spare mapped (R233 to R235, R263). `change` says that a lane has been switched to its spare laser. -/
def livePortBoundary (p : Nat) (change : Bool) (c : Ctl) : Ctl :=
    let s := portSt c p
    if laneWidth s.txOut = 0 ∨ laneWidth s.rxOut = 0 then portDown p downLanes c
    else
      let c := if change || widthsStale c p then setF (portF R.PORT_STATUS.STATE p) 3 (setWidths p c) else c
      let c := if s.ready && spareNeeded c p then mapSpare p c else c
      setPortSt p (fun s => { s with fresh := false }) c

/-- A port at a beat boundary: lanes are switched to their settled spares, whatever state the port is in (R13, R234); a port that the host takes down goes down; a live one changes its width (R233, R263, R267). -/
def portBoundary (p : Nat) (c : Ctl) : Ctl :=
  let s := portSt c p
  let live := portLive c p
  let c := switchLasers p c
  if s.takeDown then
    (if live || getF c (portF R.PORT_STATUS.STATE p) == 1 then portDown p downHost c else setPortSt p (fun s => { s with takeDown := false }) c)
  else if live then livePortBoundary p (s.settled != 0) c
  else c

/-- Every port at a beat boundary; frames that wait are tried again. -/
def portsBoundary (c : Ctl) : Ctl := flushWait (forN 38 portBoundary c)

/-- PORT_TRAINING_DONE: the port reads UP from this cycle, and carries frames from the next boundary (R263); a spare is mapped then (R235). No lane locks while the fabric clock is missing (R495). -/
def trainingDone (p : Nat) (c : Ctl) : Ctl :=
  if p < 38 ∧ getF c (portF R.PORT_STATUS.STATE p) = 1 ∧ c.pwr.noFabric = false then
    let s := portSt c p
    if laneWidth s.txOut = 0 ∨ laneWidth s.rxOut = 0 then portDown p downLanes c
    else
      let mapped := getB c (portF R.PORT_STATUS.MAPPED p)
      setF (portF R.PORT_STATUS.STATE p) 2 (setF (portF R.PORT_STATUS.DOWN_CAUSE p) 0 (setWidths p
        (setPortSt p (fun s => { s with fresh := true, ready := !mapped }) c)))
  else c

/-- PORT_TRAINING_TIMEOUT: 50 ms have passed (R263). -/
def trainingTimeout (p : Nat) (c : Ctl) : Ctl :=
  if p < 38 ∧ getF c (portF R.PORT_STATUS.STATE p) = 1 then portDown p downTrain c else c

/-- RESTART: a port that is DOWN, and not in loopback, trains (R267). -/
def portRestart (p : Nat) (c : Ctl) : Ctl :=
  if getF c (portF R.PORT_STATUS.STATE p) == 4 && !portLoop c p then startTraining p c else c

/-- TAKE_DOWN: the port goes down with cause HOST at the next boundary (R267). -/
def portTakeDown (p : Nat) (c : Ctl) : Ctl := setPortSt p (fun s => { s with takeDown := true }) c

/-- PAUSE_END: the port sends again (R233). -/
def pauseEnd (p : Nat) (c : Ctl) : Ctl :=
  if p < 38 ∧ getF c (portF R.PORT_STATUS.STATE p) = 3 then flushWait (setF (portF R.PORT_STATUS.STATE p) 2 c) else c

/-- A port's function is reachable while its READY bit is set (R428, R445). -/
def whenPort (p : Nat) (f : Ctl → Ctl) (c : Ctl) : Ctl := if portReady c p then f c else c

/-- A change that acts on an existing lane of a port whose function is READY. -/
def whenLane (p l : Nat) (f : Ctl → Ctl) (c : Ctl) : Ctl := if l < 8 then whenPort p f c else c

/-- LANE_FAIL. -/
def execLaneFail (p l : Nat) (s : State) : Host.Outcome State Fault Refusal := runCtl (whenLane p l (rxLaneOut p l)) s

/-- LASER_FAIL. -/
def execLaserFail (p l : Nat) (dead : Bool) (s : State) : Host.Outcome State Fault Refusal := runCtl (whenLane p l (laserFail p l dead)) s

/-- SPARE_LASER_SETTLED. -/
def execSpareLaserSettled (p l : Nat) (lit : Bool) (s : State) : Host.Outcome State Fault Refusal := runCtl (whenLane p l (spareSettled p l lit)) s

/-- PORT_TRAINING_DONE. -/
def execPortTrainingDone (p : Nat) (s : State) : Host.Outcome State Fault Refusal := runCtl (trainingDone p) s

/-- PORT_TRAINING_TIMEOUT. -/
def execPortTrainingTimeout (p : Nat) (s : State) : Host.Outcome State Fault Refusal := runCtl (trainingTimeout p) s

/-- RESTART. -/
def execRestart (p : Nat) (s : State) : Host.Outcome State Fault Refusal := runCtl (whenPort p (portRestart p)) s

/-- TAKE_DOWN. -/
def execTakeDown (p : Nat) (s : State) : Host.Outcome State Fault Refusal := runCtl (whenPort p (portTakeDown p)) s

/-- PAUSE_END. -/
def execPauseEnd (p : Nat) (s : State) : Host.Outcome State Fault Refusal := runCtl (pauseEnd p) s

end Sys2Proof.Machine
end

