-- ==== Sys2Proof/Machine/Fantail.lean ====
section
/-! DEFINITION. What the fantail does (spec/12_fantail_health_and_spares.md): margins at the boundary (R382), known-answer picks (R387), derating (R388, R389), retirement and sparing (R390 to R393), standing (R395 to R397), heat and the spill's write-back (R399 to R403), the host's controls (R412). -/

namespace Sys2Proof.Machine

/-! ### Clock steps (R389) -/

/-- COND_STEP and HEAT_STEP of core p as they will stand from the next boundary. -/
def stepsOf (c : Ctl) (p : Nat) : Nat × Nat :=
  c.fan.steps.getD p (getF c (fanCoreF R.FAN_CORE.COND_STEP p), getF c (fanCoreF R.FAN_CORE.HEAT_STEP p))

/-- BUSY_NS of core p: the largest busy time of its last 64 beats (R389). -/
def busyNs (c : Ctl) (p : Nat) : Nat := (c.fan.busy.getD p []).foldl max 0

/-- Guard length in 10 ns units (R14). -/
def guardUnits (c : Ctl) : Nat := getF c R.BEAT_CFG.PERIOD * getF c R.BEAT_CFG.GUARD_PM / 1000

/-- Whether core p may go one clock step lower (R389). -/
def stepAllowed (c : Ctl) (p : Nat) : Bool :=
  let s := stepsOf c p
  let k := s.1 + s.2
  decide (k < 6) && decide (busyNs c p * (38 - k) * 16 ≤ 15 * (37 - k) * ((getF c R.BEAT_CFG.PERIOD - guardUnits c) * 10))

/-- Clock steps of core p staged for the next boundary. -/
def stageSteps (p : Nat) (s : Nat × Nat) (c : Ctl) : Ctl := onFan (fun f => { f with steps := f.steps.put p s }) c

/-- Staged clock steps take effect (R389). -/
def stepsBoundary (c : Ctl) : Ctl :=
  let c := c.fan.steps.foldl (fun c e =>
    setF (fanCoreF R.FAN_CORE.COND_STEP e.1) e.2.1 (setF (fanCoreF R.FAN_CORE.HEAT_STEP e.1) e.2.2 c)) c
  onFan (fun f => { f with steps := [] }) c

/-- UNDERATE at a boundary that opens a step (R412). -/
def underateStep (c : Ctl) : Ctl :=
  if c.fan.underate then
    forN 72 (fun p => setF (fanCoreF R.FAN_CORE.COND_STEP p) 0) (onFan (fun f => { f with underate := false, steps := f.steps.map (fun e => (e.1, (0, e.2.2))) }) c)
  else c

/-! ### Retirement (R390, R391) -/

/-- A core table row changed. -/
def setSlot (p : Nat) (f : CoreSlot → CoreSlot) (c : Ctl) : Ctl := { c with cores := c.cores.put p (f (coreSlot c p)) }

/-- Free spare cores: READY, FREE, not retired (R391, R392). -/
def freeCores (c : Ctl) : List Nat :=
  (List.range 72).filter (fun q => (coreSlot c q).state == 0 && (coreSlot c q).logical.isNone && coreReady c q && !(fanUnit c (srcCore q)).retired &&
    !(match c.coreMove with | some m => m.dst == q | none => false))

/-- The spare for core p: on its die if one is free, else the lowest anywhere (R392). -/
def spareCore (c : Ctl) (p : Nat) : Option Nat :=
  let l := freeCores c
  match l.find? (fun q => q / 18 == p / 18) with
  | some q => some q
  | none => l.head?

/-- Core p has left service: it is retired, and so is the unit whose retirement moved its core out (R390, R392). -/
def coreRetired (k p : Nat) (c : Ctl) : Ctl :=
  markRetired (srcCore p) (if keySource k = srcCore p then c else markRetired (keySource k) c)

/-- A core move whose destination is retired before the switch ends: its core waits again, in front, for the next free spare (R391). -/
def moveAgain (q : Nat) (c : Ctl) : Ctl :=
  match c.coreMove with
  | some m =>
    if m.dst = q && !m.switched then
      setB (fanCoreF R.FAN_CORE.MOVING m.src) false (setB (fanCoreF R.FAN_CORE.MOVING m.dst) false
        (onFan (fun f => { f with waiting := (m.src, m.key) :: f.waiting }) { c with coreMove := none }))
    else c
  | none => c

/-- A core is retired: by a core move when it serves, before use when it is a spare (R390, R391). -/
def retireCore (k p : Nat) (c : Ctl) : Ctl :=
  let s := coreSlot c p
  if s.logical.isSome then
    if c.fan.waiting.any (fun w => w.1 == p) || (match c.coreMove with | some m => m.src == p | none => false) then c
    else if (spareCore c p).isNone then noSpare k c
    else onFan (fun f => { f with waiting := f.waiting ++ [(p, k)] }) c
  else if s.state = 0 then coreRetired k p (unready (.core p) (setSlot p (fun s => { s with state := 2 }) (moveAgain p c)))
  else c

/-- Free extra columns of an engine (R80, R87). -/
def freeExtra (c : Ctl) (p e : Nat) : List Nat :=
  (List.range 4).filter (fun i => getF c (engF R.ENG_CFG.CK_COLS p e) / 2 ^ i % 2 == 1 && !(fanUnit c (columnKey p e (128 + i))).retired)

/-- A column is retired, at the next snapshot boundary: a data column by a repair, and with no extra column left its engine is retired, as a core; a free extra column is retired before use (R390, R391, R393). -/
def retireColumn (k : Nat) (c : Ctl) : Ctl :=
  let i := (k - 0x10000) / 256
  let n := (k - 0x10000) % 256
  let p := i / 4
  let e := i % 4
  let staged := (c.fan.repairs.filter (fun r => r.1 == p && r.2.1 == e && decide (r.2.2 < 128))).length
  if 128 ≤ n then
    (if (freeExtra c p e).contains (n - 128) then onFan (fun f => { f with repairs := f.repairs ++ [(p, e, n)] }) (markRetired k c) else c)
  else if c.fan.repairs.contains (p, e, n) then c
  else if staged < (freeExtra c p e).length then
    onFan (fun f => { f with repairs := f.repairs ++ [(p, e, n)] }) (repairRecord k (onUnit k (fun u => { u with acc := 0, heavy := 0, cond := false }) c))
  else retireCore k p c

/-- A channel is to be retired: one that carries data is evacuated first, by a channel move (R213, R214, R390); the destination of a running move by a further one, after it; a free spare, or a channel that retrains, is retired at once. A channel that nothing can replace stays in service. -/
def retireChannel (k n : Nat) (c : Ctl) : Ctl :=
  let st := getF c (chF R.HBM_CH_MAP.STATE n)
  let l := getF c (chF R.HBM_CH_MAP.LOGICAL n)
  let leaving := onFan (fun f => { f with retiring := if f.retiring.contains n then f.retiring else f.retiring ++ [n] }) c
  if st = 0 then (if c.fan.retiring.contains n then c else chStart l leaving)
  else if st = 1 ∨ st = 4 then stackCounts (n / 32) (setF (chF R.HBM_CH_MAP.STATE n) 5 (markRetired k c))
  else if st = 2 then leaving
  else if st = 3 then chQueue l leaving
  else c

/-- Whether physical engine 6 can still take over: it serves nothing, is not retired, and has not failed its self-test (R238, R428). -/
def lpeSpare (c : Ctl) : Bool :=
  !getB c (portF R.LPE_STATUS.ACTIVE 6) && !getB c (portF R.LPE_STATUS.RETIRED 6) && !(getReg c (R.READY_MAIN.adr + 0x20)).getLsbD 38

/-- A link protocol engine is retired: physical engine 6 takes over at the next boundary (R238, R390). -/
def retireLpe (k e : Nat) (c : Ctl) : Ctl :=
  let free := lpeSpare c && c.fan.lpes.isEmpty
  if !getB c (portF R.LPE_STATUS.ACTIVE e) then
    (if e < 7 then markRetired k (unready (.main (32 + e)) (setB (portF R.LPE_STATUS.RETIRED e) true c)) else c)
  else if free && e != 6 then onFan (fun f => { f with lpes := [e] }) (markRetired k c)
  else noSpare k c

/-- A port is retired: it goes down, and its spare trains (R235, R236, R390). -/
def retirePort (k p : Nat) (c : Ctl) : Ctl :=
  let has := match logPort c p with
    | some q => (spareFor c q).isSome || spareComing c q
    | none => true
  inCycle (fun c => unready (.port p) (portDown p downRetired (markRetired k (if has then c else noSpare k c)))) c

/-- A control processor is retired: the standby takes over at the next boundary; a retired standby is no standby (R390, R394). -/
def retireCp (k i : Nat) (c : Ctl) : Ctl :=
  if i = getF c R.FAN_CP.ACTIVE then
    (if getB c R.FAN_CP.STANDBY_OK then
      markRetired k (onFan (fun f => { f with takeover := true }) c)
     else noSpare k c)
  else markRetired k (unready (.main (1 + i)) (setB R.FAN_CP.STANDBY_OK false c))

/-- A unit is retired under R390. -/
def retireUnit (k : Nat) (c : Ctl) : Ctl :=
  let i := k % 4096
  if 0x10000 ≤ k then retireColumn k c
  else match k / 4096 with
    | 1 => if i < 72 then retireCore k i c else c
    | 2 => if i < 288 then retireCore k (i / 4) c else c
    | 3 => if i < 72 then retireCore k i c else c
    | 4 => if i < 576 then retireCore k (i / 8) c else c
    | 6 => if i < 256 then retireChannel k i c else c
    | 9 => if i < 38 then retirePort k i c else c
    | 10 => if i < 304 then lightSpare (i / 8) (i % 8) c else c
    | 11 => if i < 7 then retireLpe k i c else c
    | 12 => if i < 2 then retireCp k i c else c
    | 0 => c
    | 13 => c
    | 15 => c
    | _ => noSpare k c

/-- The core on which a core, engine or column lies, for derating (R388). -/
def derateCore (k : Nat) : Option Nat :=
  if 0x10000 ≤ k then some ((k - 0x10000) / 1024)
  else match k / 4096 with
    | 1 => some (k % 4096)
    | 2 => some (k % 4096 / 4)
    | _ => none

/-- The findings of R388 begin again. -/
def clearHeavy (k : Nat) (c : Ctl) : Ctl := onUnit k (fun u => { u with heavy := 0, band := none, load := none }) c

/-- AUTO_SPARE: the fantail retires by itself (R390). -/
def autoSpare (c : Ctl) : Bool := fanCfg c R.FAN_CFG.AUTO_SPARE == 1

/-- A conditional core, engine or column is derated if R389 allows it; any other conditional unit, and one that cannot be derated, is retired, which AUTO_SPARE = 0 stops (R388, R390). -/
def actConditional (k : Nat) (c : Ctl) : Ctl :=
  match (derateCore k).filter (stepAllowed c) with
  | some p => let s := stepsOf c p; clearHeavy k (stageSteps p (s.1 + 1, s.2) c)
  | none => if autoSpare c then clearHeavy k (retireUnit k c) else c

/-- One unit that is due: one whose score is at UNIT_RETIRE is retired, unless AUTO_SPARE is 0; else, and where no spare is free and it stays in service, R388 applies if it is conditional (R388, R390). -/
def actOn (k : Nat) (c : Ctl) : Ctl :=
  let full := autoSpare c && decide (fanCfg c R.FAN_CFG.UNIT_RETIRE ≤ unitScore (fanUnit c k))
  let c := if full then retireUnit k c else c
  let u := fanUnit c k
  if isConditional c u && (!full || u.stuck) then actConditional k c else c

/-- Every unit that is due, in order; acting may make further units due. -/
def fanAct : Nat → Ctl → Ctl
  | 0, c => c
  | n + 1, c =>
    match c.fan.due with
    | [] => c
    | k :: rest => fanAct n (actOn k (onFan (fun f => { f with due := rest }) c))

/-! ### Core moves (R392) -/

/-- Lines of 128 bytes of a core's two stores. -/
def moveLines : Nat := 53248

/-- CORE_MOVE_START: the first waiting core and its spare (R391, R392). -/
def moveStart (c : Ctl) : Ctl :=
  match c.coreMove, c.fan.waiting with
  | none, (p, k) :: rest =>
    let c := onFan (fun f => { f with waiting := rest }) c
    match (coreSlot c p).logical, spareCore c p with
    | some l, some q =>
      setB (fanCoreF R.FAN_CORE.MOVING p) true (setB (fanCoreF R.FAN_CORE.MOVING q) true
        { c with coreMove := some { key := k, logical := l, src := p, dst := q, line := 0, carried := false, switched := false } })
    | some _, none => noSpare k c
    | none, _ => c
  | _, _ => c

/-- Home key of line i of core p's stores: the core store, then the pick store. -/
def lineKey (p i : Nat) : Nat := if i < coreLines then coreKey p + 128 * i else pickKey p + 128 * (i - coreLines)

/-- CORE_MOVE_LINE_COPY: the next line behind the watermark (R392). -/
def moveLine (d : Dev) : Dev :=
  match d.c.coreMove with
  | some m =>
    if m.switched || decide (moveLines ≤ m.line) then d
    else
      let bs := readBytes d.m (lineKey m.src m.line) 128
      { c := { d.c with coreMove := some { m with line := m.line + 1 } }, m := writeBytes d.m (lineKey m.dst m.line) bs }
  | none => d

/-- IN_USE of a tile slot by its key. -/
def slotUsed (c : Ctl) (k : Nat) : Bool := getB c { tileStatus (k / 32) (k / 8 % 4) (k % 8) with lo := 8, w := 1 }

/-- Whether the guard can carry the rest of core p's state to q: 96 KiB and a status word for each slot in use, flags, counts, positions and images, at 256 or 128 bytes per cycle and 1,000 cycles more (R392; log entry 17). -/
def guardCarries (c : Ctl) (p q : Nat) : Bool :=
  let n := ((List.range 32).filter (fun k => slotUsed c (32 * p + k))).length
  let bytes := n * (98304 + 4) + 8 + 128 + 6 * (8 + 256)
  decide (bytes / (if p / 18 = q / 18 then 256 else 128) + 1000 ≤ guardUnits c * 19)

/-- The guard of the beat carries the rest of the state of a copied core, if it can (R392). -/
def moveGuard (c : Ctl) : Ctl :=
  match c.coreMove with
  | some m =>
    if decide (moveLines ≤ m.line) && !m.switched && guardCarries c m.src m.dst then { c with coreMove := some { m with carried := true } } else c
  | none => c

/-- One tile slot copied between cores: entries, generation and status where it is in use; else the slot of q is unused, and its flags stay (R76, R392). -/
def copySlot (p q k : Nat) (c : Ctl) : Ctl :=
  let src := 32 * p + k
  let dst := 32 * q + k
  if !slotUsed c src then setB { tileStatus q (k / 8) (k % 8) with lo := 8, w := 1 } false c
  else
    let c := setReg (tileStatus q (k / 8) (k % 8)).off (getReg c (tileStatus p (k / 8) (k % 8)).off) c
    let c := { c with acc := c.acc.filter (fun e => e.1 / 16384 != dst), accGen := c.accGen.put dst (c.accGen.getD src 0) }
    forN 16384 (fun i c =>
      match c.acc.look (src * 16384 + i) with
      | some v => { c with acc := c.acc.put (dst * 16384 + i) v }
      | none => c) c

/-- What the guard carried: slots, local flags, counts, list positions and loaded images, with the core's lists and TR_STATE.PICK, the pick in a treadle's working registers (R162, R392). -/
def carryState (p q : Nat) (c : Ctl) : Ctl :=
  let c := forN 32 (copySlot p q) c
  let c := setLocalFlags q (localFlags c p) c
  let c := forN 32 (fun n c => setF (idxF (coreF R.SEQ_CNT.COUNT q) 4 n) (cntOf c p n) c) c
  let c := setReg (coreF R.SEQ_BEATS.B_TRAIN q).off (getReg c (coreF R.SEQ_BEATS.B_TRAIN p).off) c
  forN 6 (fun t c =>
    let c := forN 4 (fun k c => setReg (R.SEQ_LIST.OFFSET.at (0x10000 * q + 0x10 * t + 4 * k)).off
      (getReg c (R.SEQ_LIST.OFFSET.at (0x10000 * p + 0x10 * t + 4 * k)).off) c) c
    let c := setReg (trF R.TR_POS.WORD q t).off (getReg c (trF R.TR_POS.WORD p t).off) c
    let c := setF (trF R.TR_STATE.PICK q t) (getF c (trF R.TR_STATE.PICK p t)) c
    putTr p t Treadle.idle (putTr q t (trAt c p t) c)) c

/-- The heddle map maps the logical core to its new physical core, at step 3 of R19 (R392). -/
def moveSwitch (c : Ctl) : Ctl :=
  match c.coreMove with
  | some m =>
    if m.carried && !m.switched then
      let c := carryState m.src m.dst c
      let c := setSlot m.dst (fun s => { s with logical := some m.logical, state := 1 }) (setSlot m.src (fun s => { s with logical := none }) c)
      { c with coreMove := some { m with switched := true } }
    else c
  | none => c

/-- CORE_MOVE_DRAIN_DONE: the old core is retired, with the unit that was the reason (R392). -/
def moveDrained (c : Ctl) : Ctl :=
  match c.coreMove with
  | some m =>
    if m.switched then
      setB (fanCoreF R.FAN_CORE.MOVING m.src) false (setB (fanCoreF R.FAN_CORE.MOVING m.dst) false
        (coreRetired m.key m.src (unready (.core m.src) (setSlot m.src (fun s => { s with state := 2 }) { c with coreMove := none }))))
    else c
  | none => c

/-! ### Repairs (R80, R83, R393) -/

/-- Extra column x of an engine is a checksum column no more; with none left the engine's exact checksum is lost (R83, R87). -/
def dropExtra (p e x : Nat) (c : Ctl) : Ctl :=
  let left := getF c (engF R.ENG_CFG.CK_COLS p e) - 2 ^ x
  let c := setF (engF R.ENG_CFG.CK_COLS p e) left c
  if left = 0 then
    raise evArith 0x20 (srcEngine p e) 0 (setB (engF R.ENG_STATUS.CK_LOST p e) true (setB (engF R.ENG_CFG.CK_AVAIL p e) false c))
  else c

/-- One repair at a snapshot boundary: the lowest free extra column serves the logical column; an extra column that served it serves no more. A retired extra column is only dropped. -/
def repairColumn (r : Nat × Nat × Nat) (c : Ctl) : Ctl :=
  let p := r.1
  let e := r.2.1
  let n := r.2.2
  if 128 ≤ n then dropExtra p e (n - 128) c
  else match freeExtra c p e with
  | [] => retireCore (columnKey p e n) p c
  | x :: _ =>
    let map := colMap c p e
    let byte (i : Nat) : Nat := map / 2 ^ (8 * i) % 2 ^ 8
    let old := (List.range 4).find? (fun i => byte i == n + 128)
    let bytes := (List.range 4).map (fun i => if i = x then n + 128 else if old = some i then 0 else byte i)
    let rep := getF c (engF R.ENG_CFG.REP_COLS p e)
    let rep := rep ||| 2 ^ x
    let rep := match old with | some i => rep - 2 ^ i | none => rep
    let c := setReg (R.ENG_COLMAP.adr + 0x10000 * p + 0x1000 * e) (BitVec.ofNat 64 (leNat (bytes.map (BitVec.ofNat 8)))) c
    let c := setF (engF R.ENG_CFG.REP_COLS p e) rep c
    dropExtra p e x (onFan (fun f => { f with proving := f.proving ++ [(4 * p + e, n)] }) c)

/-- The repairs staged, at a snapshot boundary (R393). -/
def repairBoundary (c : Ctl) : Ctl :=
  let l := c.fan.repairs
  l.foldl (fun c r => repairColumn r c) (onFan (fun f => { f with repairs := [] }) c)

/-! ### Known-answer picks (R157, R387) -/

/-- Longest durations (R387). -/
def kapCycles : KnownUnit → Nat
  | .engine _ => 4400
  | .column _ _ => 4400
  | .vector => 2000
  | .shuttle => 3000

/-- The treadle on which a known-answer pick runs. -/
def kapTreadle : KnownUnit → Nat
  | .engine e => e
  | .column e _ => e
  | .vector => 4
  | .shuttle => 5

/-- Whether a known-answer pick may run now on the treadle of a unit of core p: the core is not quiesced, it is a free spare, or serves with the treadle's segment complete before the guard, and none runs there already (R157, R387, R474). -/
def kapFree (c : Ctl) (p t : Nat) : Bool :=
  let s := coreSlot c p
  let x := trAt c p t
  !quiesced c p && (s.state == 0 || (s.state == 1 && x.done && x.runs.isEmpty && x.load.isNone && !c.time.inGuard)) && !c.fan.kapRuns.contains (p, t)

/-- The units of core p by their treadles, in the order of the rotation: those after the unit tested last, then from the first on (R387). -/
def kapOrder (c : Ctl) (p : Nat) : List Nat :=
  let all := (List.range 6).filter (fun t => decide (4 ≤ t) || engPresent c p t)
  match c.fan.kapUnit.look p with
  | some u => all.filter (fun t => decide (u < t)) ++ all.filter (fun t => decide (t ≤ u))
  | none => all

/-- Whether the rotation of R387 and the repair beat of R393 let the pick run. The units of a core follow one another, a unit whose treadle is busy being passed over; after a failure of an engine its next 128 picks are column picks, one per column; a repaired column is tested before anything else of its engine. -/
def kapDue (c : Ctl) (p : Nat) (u : KnownUnit) : Bool :=
  let turn := (kapOrder c p).find? (kapFree c p) == some (kapTreadle u)
  match u with
  | .engine e =>
    turn && decide (e < 4) && c.fan.colPicks.getD (4 * p + e) 0 == 0 && !c.fan.proving.any (fun x => x.1 == 4 * p + e)
  | .column e n =>
    decide (e < 4) && engPresent c p e && decide (n < 128) && kapFree c p e &&
      (match c.fan.proving.find? (fun x => x.1 == 4 * p + e) with
       | some x => x.2 == n
       | none => turn && decide (0 < c.fan.colPicks.getD (4 * p + e) 0) && n + c.fan.colPicks.getD (4 * p + e) 0 == 128)
  | .vector => turn
  | .shuttle => turn

/-- Whether a known-answer pick is the test of a repaired column in its repair beat (R393). -/
def kapProving (c : Ctl) (p : Nat) : KnownUnit → Bool
  | .column e _ => c.fan.proving.any (fun x => x.1 == 4 * p + e)
  | _ => false

/-- The rotation goes on behind a completed pick: to the next unit of the core, to the next pair of formats of the engine, to the next of the 128 column picks (R387, R393). -/
def kapTurned (p : Nat) (u : KnownUnit) (c : Ctl) : Ctl :=
  let proving := kapProving c p u
  onFan (fun f =>
    let f := { f with kapUnit := if proving then f.kapUnit else f.kapUnit.put p (kapTreadle u) }
    match u with
    | .engine e => { f with kapFmt := f.kapFmt.put (4 * p + e) ((f.kapFmt.getD (4 * p + e) 0 + 1) % 5) }
    | .column e n =>
      if proving then { f with proving := f.proving.erase (4 * p + e, n) }
      else { f with colPicks := f.colPicks.put (4 * p + e) (f.colPicks.getD (4 * p + e) 0 - 1) }
    | _ => f) c

/-- A known-answer mismatch is charged to the unit tested; it retires an extra column in its repair beat, and a spare core, unless AUTO_SPARE is 0 (R384, R387, R390, R391, R393). -/
def kapMismatch (p : Nat) (u : KnownUnit) (proving : Bool) : Ctl → Ctl := inCycle (fun c =>
  let c := satF R.FAN_KAP.MISMATCH 1 c
  let c := match u with
    | .engine e => onFan (fun f => { f with colPicks := f.colPicks.put (4 * p + e) 128 }) (chargeUnit kKap (srcEngine p e) c)
    | .column e n => let c := chargeColumn kKap p e n c; if proving && autoSpare c then retireColumn (columnKey p e n) c else c
    | .vector => chargeUnit kKap (srcVector p) c
    | .shuttle => chargeUnit kKap (srcTreadle p 5) c
  if (coreSlot c p).state = 0 ∧ autoSpare c then retireCore (srcCore p) p c else c)

/-- KNOWN_ANSWER_PICK: in a treadle's time between its last completion and the guard, or on a free spare core, when the time left allows it (R157, R387). One that is still running when the guard comes ends there without a result. It works in private scratch and a private tile bank: DESIGN CHOICE (log entry 150): its column passes count in no engine register, neither ENG_PASSES nor ENG_FNF nor FLAGS_SEEN. -/
def knownAnswer (k : KnownAnswer) (c : Ctl) : Ctl :=
  let p := k.core
  let t := kapTreadle k.unit
  if !decide (p < 72) || !coreReady c p || !kapFree c p t || !kapDue c p k.unit || decide (k.left < kapCycles k.unit + 1000) then c
  else if k.late then onFan (fun f => { f with kapRuns := f.kapRuns ++ [(p, t)] }) c
  else
    let proving := kapProving c p k.unit
    let c := kapTurned p k.unit (incF R.FAN_KAP.RUN 1 c)
    if k.mismatch then kapMismatch p k.unit proving c else c

/-- The first cycle of the guard cancels the known-answer picks that still run (R157, R412). -/
def kapGuard (c : Ctl) : Ctl :=
  satF R.FAN_KAP.CANCELLED c.fan.kapRuns.length (onFan (fun f => { f with kapRuns := [] }) c)

/-! ### Standing (R395 to R397) -/

def standService : Nat := 0
def standProbation : Nat := 1
def standNominated : Nat := 2
def standExpelled : Nat := 3

/-- SPARES_FREE: live entries of role SPARE that serve no seat (R395). -/
def sparesFree (c : Ctl) : Nat :=
  ((members c).filter (fun m => m.spare && !c.place.failed.contains m.num && !c.place.serving.any (fun e => e.2 == m.num))).length

/-- The health score (R385). -/
def healthScore (c : Ctl) : Nat := min 1023 (getF c R.FAN_STATUS.ACC / 64)

/-- T_EFF (R395). -/
def effThreshold (c : Ctl) : Nat :=
  min 1023 (fanCfg c R.FAN_CFG.T_BASE + fanCfg c R.FAN_CFG.RAISE * (fanCfg c R.FAN_CFG.FLOOR - sparesFree c))

/-- STANDING_DECISION: in the device's own beat, when the last TIME_DOWN reported nothing lost (R396). -/
def standingDecide (c : Ctl) : Ctl :=
  match c.place.me with
  | none => c
  | some n =>
    let st := getF c R.FAN_STATUS.STANDING
    let lost := (c.time.comb.bind (·.lost)).isSome
    if getF c R.BEAT_NOW.BEAT % 65536 ≠ n ∨ !getB c R.BEAT_STATUS.RUNNING ∨ c.time.inGuard ∨ lost ∨ st = standNominated ∨ st = standExpelled then c
    else
      let t := effThreshold c
      let h := healthScore c
      let base := fanCfg c R.FAN_CFG.T_BASE
      let c := setF R.FAN_STATUS.T_EFF t c
      if t ≤ h then setF R.FAN_STATUS.STANDING standNominated c
      else if base ≤ h then
        (if fanCfg c R.FAN_CFG.PROBATION = 1 then setF R.FAN_STATUS.STANDING standProbation c else setB R.FAN_STATUS.HELD true c)
      else if h + 64 < base ∧ st = standProbation then setF R.FAN_STATUS.STANDING standService c
      else c

/-! ### Heat (R399 to R403) -/

/-- Entry and release temperatures of a stack's levels, in 0.125 degrees (R399). -/
def levelEntry (t : Nat) : Nat := if 840 ≤ t then 3 else if 800 ≤ t then 2 else if 760 ≤ t then 1 else 0
def levelRelease (l : Nat) : Nat := match l with | 1 => 736 | 2 => 776 | _ => 816

/-- The level falls while the temperature lies below its release value. -/
def levelFall (t : Nat) : Nat → Nat
  | 0 => 0
  | l + 1 => if t < levelRelease (l + 1) then levelFall t l else l + 1

/-- The level a stack takes (R399). -/
def nextLevel (cur t : Nat) : Nat := if cur ≤ levelEntry t then levelEntry t else levelFall t cur

/-- FAN_HEAT of stack s. -/
def heatF (f : Fld) (s : Nat) : Fld := idxF f 8 s

/-- Lowest F (R411). -/
def fMin (c : Ctl) : Nat := max 1 (getF c R.FAN_HEAT_CFG.F_MIN)

/-- F of a stack in the beat that opens, within F_MIN and 7: `old` and `t` are the temperatures at the boundary before and at this one (R400). -/
def nextF (c : Ctl) (s was now old t : Nat) : Nat :=
  if now = 3 then fMin c
  else if now = 2 then
    if was < 2 then 7
    else
      let f := getF c (heatF R.FAN_HEAT.F s)
      max (fMin c) (min 7 (if old < t then f - 1 else if t < old then f + 1 else f))
  else 7

/-- The host's request of a number is over. -/
def portDone (n : Nat) (c : Ctl) : Ctl := { c with host := { c.host with ops := c.host.ops.filter (fun o => o.num != n) } }

/-- Whom a held write completes when it is performed, once no other part of its access is held (R401). -/
def heldDone (w : HeldFor) (c : Ctl) : Ctl :=
  if c.slu.held.any (fun h => h.who == w) then c
  else match w with
  | .remote peer tag status => if peerIs c peer 2 then respond peer 0x05 tag status 0 [] c else c
  | .porthole n => portDone n c
  | .pick p t => waitDone p t c
  | .piece p _ => waitDone p 5 c
  | .nobody => c

/-- A held write leaves the queue of its stack: performed where its granule now lies, or held by that stack, behind what it holds of the granule (R190, R402). -/
def performOne (w : HeldWrite) (d : Dev) : Dev :=
  let d := onCtl (onSlu (fun x => { x with held := x.held.erase w })) d
  let r := hbmNow (hbmStack d.c w.addr) w.addr w.data w.add w.who d
  if r.2 = .held then r.1 else onCtl (heldDone w.who) r.1

/-- The writes held by a stack are performed in queue order (R402). -/
def performHeld (s : Nat) (d : Dev) : Dev := (d.c.slu.held.filter (fun h => h.stack == s)).foldl (fun d h => performOne h d) d

/-- A stack at a boundary: its level, F, events, the stretch it asks for, and the end of WRITE_STOP (R399 to R402). `old` is its temperature at the boundary before. -/
def stackBoundary (s old : Nat) (d : Dev) : Dev :=
  if !mainReady d.c (16 + s) then d
  else
    let t := sensorT d.c (96 + s)
    let was := getF d.c (heatF R.FAN_HEAT.LEVEL s)
    let now := nextLevel was t
    let d := onCtl (fun c =>
      let c := setF (heatF R.FAN_HEAT.F s) (nextF c s was now old t) (setF (heatF R.FAN_HEAT.LEVEL s) now c)
      let c := if was < now then
          (if now = 3 then chargeUnit kHeat (srcStack s) c
           else raise evThermal kHeat (srcStack s) (kHeat + unitBand c (srcStack s) * 2 ^ 12 + unitLoad c (srcStack s) * 2 ^ 15 + getF c R.BEAT_NOW.BEAT % 2 ^ 24 * 2 ^ 24) c)
        else c
      let c := if now = 3 then setB (heatF R.FAN_HEAT.WRITEBACK s) false (satF (heatF R.FAN_HEAT.STOP_BEATS s) 1 c) else c
      if 2 ≤ now then { c with time := { c.time with ask := max c.time.ask (min 16 (getF c R.FAN_HEAT_CFG.STRETCH)) } } else c) d
    if was = 3 ∧ now ≠ 3 then
      onCtl (fun c => setB (heatF R.FAN_HEAT.WRITEBACK s) (decide (0 < getF c (heatF R.FAN_HEAT.SPILLED s))) c) (performHeld s d)
    else d

/-- SPILL_WRITEBACK: the oldest spilled granule of a stack out of WRITE_STOP is written back to where it lies by now, if that stack too is out of WRITE_STOP (R402). DESIGN CHOICE (log entry 145): the write is charged to no partition. -/
def spillBack (d : Dev) : Dev :=
  match d.c.slu.spill.find? (fun e => !writeStop d.c e.stack && !writeStop d.c (hbmStack d.c (256 * e.granule))) with
  | none => d
  | some e =>
    let a := 256 * e.granule
    let s := e.stack
    let r := hbmRoute d.c a
    let home := chRoute d.c r.1 r.2
    let d := (copyGranule e.home (granuleKey a r.2 home) (onCtl (fun c => readErrors a e.home 256 (serveGranule r.1 home c)) d)).1
    onCtl (fun c =>
      let n := getF c (heatF R.FAN_HEAT.SPILLED s) - 1
      let c := setF (heatF R.FAN_HEAT.SPILLED s) n (onSlu (fun x => { x with spill := x.spill.erase e }) c)
      if n = 0 then setB (heatF R.FAN_HEAT.SPILL s) false (setB (heatF R.FAN_HEAT.WRITEBACK s) false c) else c) d

/-- A core's sensor at a boundary (R403). -/
def coreHeat (p old : Nat) (c : Ctl) : Ctl :=
  let t := sensorT c p
  let c := if 880 ≤ t ∧ old < 880 then chargeUnit kHeat (srcCore p) c else c
  let c := onFan (fun f => { f with cool := f.cool.put p (if t < 720 then f.cool.getD p 0 + 1 else 0) }) c
  if 800 ≤ t ∧ stepAllowed c p then let s := stepsOf c p; stageSteps p (s.1, s.2 + 1) c else c

/-- HEAT_STEP_DOWN: 4,000 consecutive beats below 90 degrees (R403). -/
def heatStepDown (p : Nat) (c : Ctl) : Ctl :=
  if p < 72 ∧ 4000 ≤ c.fan.cool.getD p 0 then
    let s := stepsOf c p
    stageSteps p (s.1, s.2 - 1) (onFan (fun f => { f with cool := f.cool.put p 0 }) c)
  else c

/-! ### Margins (R382) -/

/-- Whether temperature sensor i is there: units that are absent under R3 are not measured (R382, R410). -/
def sensorPresent (c : Ctl) (i : Nat) : Bool :=
  if i < 72 then (coreSlot c i).state != 3 else decide (i < 96 + stackCount c.fuses.grade)

/-- A temperature reading (R410); 110 degrees sets MOD_STATUS.HOT (R498). -/
def takeTemp (r : Reading) (c : Ctl) : Ctl :=
  let t := r.value % 2048
  if !sensorPresent c r.idx then c
  else
  let c := if 880 ≤ t then { c with pwr := { c.pwr with modStatus := c.pwr.modStatus ||| 8 } } else c
  onFan (fun f => { f with temps := f.temps.put r.idx (t, max t (f.temps.getD r.idx (0, 0)).2) }) c

/-- A core's readings: FAN_CORE at the boundary, and its margins against their limits (R382, R383, R389, R408). -/
def takeCore (r : CoreReading) (c : Ctl) : Ctl :=
  let p := r.core
  if !decide (p < 72) || !coreReady c p then c
  else
    let c := onFan (fun f => { f with busy := f.busy.put p ((r.busyNs :: f.busy.getD p []).take 64) }) c
    let c := setF (fanCoreF R.FAN_CORE.TMARGIN p) (min 255 r.tmargin.toNat) (setF (fanCoreF R.FAN_CORE.DROOP p) (min 255 r.droop.toNat) c)
    let c := setF (fanCoreF R.FAN_CORE.BUSY p) (min 0xFFFF (busyNs c p / 16)) c
    let c := setF (fanCoreF R.FAN_CORE.TEMP p) (min 255 (sensorT c p / 8)) c
    setF (fanCoreF R.FAN_CORE.BAND p) (unitBand c (srcCore p)) (setF (fanCoreF R.FAN_CORE.LOAD p) (loadPattern r.act) c)

/-- A core's margins against their limits (R382). -/
def checkCore (r : CoreReading) (c : Ctl) : Ctl :=
  let p := r.core
  if !decide (p < 72) || !coreReady c p then c
  else
    let c := (limitCheck 1 (srcCore p) (decide (r.tmargin.toNat < 20)) (decide (r.tmargin.toNat < 8)) c).1
    (limitCheck 2 (srcCore p) (decide (60 < r.droop.toNat)) (decide (90 < r.droop.toNat)) c).1

/-- A lane's optics: PORT_OPT, and the limits with their actions (R270, R382). -/
def takeLane (r : LaneReading) (c : Ctl) : Ctl :=
  let p := r.port
  let l := r.lane
  if !decide (l < 8) || !portReady c p then c
  else
    let src := srcLane p l
    let c := setReg (R.PORT_OPT.TX_PWR.at (0x10000 * p + 8 * l)).off
      (BitVec.ofNat 64 (r.txPwr.toNat + r.rxPwr.toNat * 2 ^ 16 + r.bias.toNat * 2 ^ 32 + r.prefec.toNat * 2 ^ 48)) c
    let a := limitCheck 3 src (decide (r.txPwr.toInt < -150)) (decide (r.txPwr.toInt < -250)) c
    let b := limitCheck 4 src (decide (5 * r.biasMfr.toNat < 4 * r.bias.toNat)) (decide (3 * r.biasMfr.toNat < 2 * r.bias.toNat)) a.1
    let c := if a.2 || b.2 then lightSpare p l b.1 else b.1
    let a := limitCheck 5 src (decide (r.rxPwr.toInt < -450)) (decide (r.rxPwr.toInt < -550)) c
    let b := limitCheck 6 src (decide (4096 < r.prefec.toNat)) (r.prefec == 0xFFFF) a.1
    if a.2 || b.2 then rxLaneOut p l b.1 else b.1

/-- An eye as its register shows it (R409). -/
def showEye (width height : Fld) (i : Nat) (e : Eye) (c : Ctl) : Ctl :=
  setF (idxF width 4 i) (min 255 e.width) (setF (idxF height 4 i) (min 255 e.height) c)

/-- An LPDDR5X eye, every 4,096 beats (R382, R409). -/
def takeMpEye (e : EyeReading) (c : Ctl) : Ctl :=
  if !decide (e.idx < 32) || !mainReady c (24 + e.idx / 4) || getF c R.BEAT_NOW.BEAT % 4096 != 0 then c
  else (limitCheck 7 (srcMpChannel e.idx) (decide (e.eye.width * 100 < 8960)) (decide (e.eye.width * 100 < 6400))
    (showEye R.FAN_MP_EYE.WIDTH R.FAN_MP_EYE.HEIGHT e.idx e.eye c)).1

/-- Retraining of a physical channel whose eye has failed: one that carries data is moved out first, and so is the destination of a running move, after it; a free spare is out of the data path already (R213, R382, R391). -/
def retrainStart (n : Nat) (c : Ctl) : Ctl :=
  match getF c (chF R.HBM_CH_MAP.STATE n) with
  | 0 => chStart (getF c (chF R.HBM_CH_MAP.LOGICAL n)) c
  | 1 => stackCounts (n / 32) (setF (chF R.HBM_CH_MAP.STATE n) 4 c)
  | 3 => chQueue (getF c (chF R.HBM_CH_MAP.LOGICAL n)) c
  | _ => c

/-- CALIBRATION of a physical channel, at most once in a beat: counted, its eye against the limits; below the fail limit it is retrained (R212, R213, R225, R382). -/
def calibrate (n : Nat) (e : Eye) (c : Ctl) : Ctl :=
  if !decide (n < 256) || !mainReady c (16 + n / 32) || c.slu.calib.contains n then c
  else
    let c := incF (chErrF R.HBM_CH_ERR.CAL n) 1 (onSlu (fun s => { s with calib := n :: s.calib }) c)
    let r := limitCheck 8 (srcChannel n) (decide (e.width * 100 < 7680)) (decide (e.width * 100 < 5120))
      (showEye R.FAN_HBM_EYE.WIDTH R.FAN_HBM_EYE.HEIGHT n e c)
    if r.2 then retrainStart n r.1 else r.1

/-- An evacuated channel that is to be retired is (R390). -/
def channelRetired (n : Nat) (c : Ctl) : Ctl :=
  retrainChannel n false (markRetired (srcChannel n) (onFan (fun f => { f with retiring := f.retiring.filter (· != n) }) c))

/-- RETRAIN: a channel that the fantail is retiring is not brought back (R213, R390). -/
def retrain (n : Nat) (pass : Bool) (c : Ctl) : Ctl :=
  if c.fan.retiring.contains n && getF c (chF R.HBM_CH_MAP.STATE n) == 4 then channelRetired n c else retrainChannel n pass c

/-- Physical engine 6 takes over from physical engine e; the frames inside e are lost, which their receivers find by the ALIVE numbers (R233, R238, R245). -/
def lpeSwitch (e : Nat) (c : Ctl) : Ctl :=
  let g := getF c (portF R.LPE_STATUS.LOGICAL e)
  let inside (w : WaitFrame) : Bool := decide (6 * g ≤ w.logical) && decide (w.logical < 6 * g + 6)
  let c := (c.waitq.filter inside).foldl frameLost { c with waitq := c.waitq.filter (fun w => !inside w) }
  let c := unready (.main (32 + e)) (setB (portF R.LPE_STATUS.RETIRED e) true (setB (portF R.LPE_STATUS.ACTIVE e) false c))
  setB (portF R.LPE_STATUS.ACTIVE 6) true (setF (portF R.LPE_STATUS.LOGICAL 6) g c)

/-- A link protocol engine is replaced at a boundary, once physical engine 6 has passed its self-test; if that failed there is no spare (R238, R390, R428). -/
def lpeBoundary (c : Ctl) : Ctl :=
  match c.fan.lpes with
  | [] => c
  | e :: _ =>
    if mainReady c 38 then lpeSwitch e (onFan (fun f => { f with lpes := [] }) c)
    else if lpeSpare c then c
    else noSpare (srcLpe e) (onFan (fun f => { f with lpes := [] }) c)

/-- Channels to be retired that have been evacuated are retired (R390). -/
def channelsRetire (c : Ctl) : Ctl :=
  c.fan.retiring.foldl (fun c n => if getF c (chF R.HBM_CH_MAP.STATE n) == 4 then channelRetired n c else c) c

/-- A channel move that waits is started when none runs (R213, R391). -/
def channelsNext (c : Ctl) : Ctl :=
  match c.slu.chWait with
  | l :: _ => if c.slu.chLive then c else chStart l c
  | [] => c

/-- Whether core p has failed its self-test (R428). -/
def coreFailedTest (c : Ctl) (p : Nat) : Bool :=
  if p < 64 then (getReg c (R.READY_CORE0.adr + 0x20)).getLsbD p else (getReg c (R.READY_CORE1.adr + 0x20)).getLsbD (p - 64)

/-- The spare onto which the logical core of core p is mapped when p fails its self-test: one of its die, else the lowest anywhere (R390, R392, R428). -/
def bringUpSpare (c : Ctl) (p : Nat) : Option Nat :=
  let l := (List.range 72).filter (fun q => q != p && (coreSlot c q).state == 0 && (coreSlot c q).logical.isNone && !coreFailedTest c q && !(fanUnit c (srcCore q)).retired)
  (l.find? (fun q => q / 18 == p / 18)) <|> l.head?

/-- A core that failed its self-test is left out of service, its logical core mapped onto a spare (R390, R428). -/
def coreFailed (p : Nat) (c : Ctl) : Ctl :=
  match (coreSlot c p).logical with
  | none => markRetired (srcCore p) (setSlot p (fun s => { s with state := 2 }) c)
  | some l =>
    match bringUpSpare c p with
    | some q => markRetired (srcCore p) (setSlot q (fun s => { s with logical := some l, state := 1 }) (setSlot p (fun s => { s with logical := none, state := 2 }) c))
    | none => noSpare (srcCore p) c

/-- The logical cores of cores that failed their self-test are mapped onto spares (R13, R428). -/
def remapBoundary (c : Ctl) : Ctl :=
  let l := c.fan.remap
  l.foldl (fun c p => coreFailed p c) (onFan (fun f => { f with remap := [] }) c)

/-- The heddle-map changes staged by the fantail take effect, at step 3 of R19 (R391). -/
def fanHeddle (c : Ctl) : Ctl :=
  stepsBoundary (lpeBoundary (channelsNext (channelsRetire (chBoundary (moveSwitch (remapBoundary c))))))

/-- What the ports and packages have counted in the ending beat: codewords not corrected, and link ECC corrections (R227, R269). -/
def takeCounts (r : Readings) (c : Ctl) : Ctl :=
  let c := r.fec.foldl (fun c x => if x.idx < 38 ∧ portReady c x.idx then satF (portF R.PORT_ERR0.FEC_UNCORR x.idx) x.value c else c) c
  r.links.foldl (fun c x => if x.idx < 8 ∧ mainReady c (24 + x.idx) then incF (idxF R.MP_ERR.LINK 8 x.idx) x.value c else c) c

/-- What a core has measured, and what each lane has, against their limits: findings of the ending beat (R382, R383, R386). -/
def takeMargins (ending step : Nat) (r : Readings) (c : Ctl) : Ctl :=
  inBeat ending step (fun c => r.lanes.foldl (fun c x => takeLane x c) (r.cores.foldl (fun c x => checkCore x c) c)) c

/-- The fantail at a beat boundary, with what was measured in the ending beat (R382, R399, R403). -/
def fanBoundary (ending step : Nat) (r : Readings) (d : Dev) : Dev :=
  if !mainReady d.c 7 then d
  else
    let before := d.c.fan.temps
    let old (i : Nat) : Nat := (before.getD i (0, 0)).1
    let d := onCtl (fun c => r.temps.foldl (fun c x => takeTemp x c) c) d
    let d := onCtl (fun c => onFan (fun f => { f with load := loadPattern r.act }) (r.cores.foldl (fun c x => takeCore x c) c)) d
    let d := onCtl (takeMargins ending step r) d
    let d := onCtl (fun c => r.mpEyes.foldl (fun c x => takeMpEye x c) c) d
    let d := onCtl (forN 72 (fun p c => if coreReady c p then coreHeat p (old p) c else c)) d
    let d := onCtl (forN 24 (fun i c =>
      let j := 72 + i
      if 880 ≤ sensorT c j ∧ old j < 880 then chargeDevice kHeat (srcSensor j) c else c)) d
    let d := forN (stackCount d.c.fuses.grade) (fun s => stackBoundary s (old (96 + s))) d
    onCtl (fanAct 512) d

/-! ### Commands -/

/-- A command of the fantail acts while it is READY (R444). -/
def whenFan (f : Ctl → Ctl) : Ctl → Ctl := whenReady 7 f

/-- KNOWN_ANSWER_PICK. -/
def execKnownAnswerPick (k : KnownAnswer) (s : State) : Host.Outcome State Fault Refusal := runCtl (whenFan (knownAnswer k)) s

/-- RETRAIN. -/
def execRetrain (n : Nat) (pass : Bool) (s : State) : Host.Outcome State Fault Refusal := runCtl (whenFan (retrain n pass)) s

/-- CALIBRATION. -/
def execCalibration (n : Nat) (eye : Eye) (s : State) : Host.Outcome State Fault Refusal := runCtl (whenFan (calibrate n eye)) s

/-- CORE_MOVE_START. -/
def execCoreMoveStart (s : State) : Host.Outcome State Fault Refusal := runCtl (whenFan moveStart) s

/-- CORE_MOVE_LINE_COPY. -/
def execCoreMoveLineCopy (s : State) : Host.Outcome State Fault Refusal := runDev moveLine s

/-- CORE_MOVE_DRAIN_DONE. -/
def execCoreMoveDrainDone (s : State) : Host.Outcome State Fault Refusal := runCtl moveDrained s

/-- STANDING_DECISION. -/
def execStandingDecision (s : State) : Host.Outcome State Fault Refusal := runCtl (whenFan standingDecide) s

/-- SPILL_WRITEBACK. -/
def execSpillWriteback (s : State) : Host.Outcome State Fault Refusal := runDev spillBack s

/-- HEAT_STEP_DOWN. -/
def execHeatStepDown (p : Nat) (s : State) : Host.Outcome State Fault Refusal := runCtl (whenFan (heatStepDown p)) s

/-- FAN_CTRL.UNDERATE (R412). -/
def fanUnderate (c : Ctl) : Ctl := onFan (fun f => { f with underate := true }) c

/-- FAN_CTRL.RETIRE (R412). -/
def fanRetire (c : Ctl) : Ctl := retireUnit (getF c R.FAN_UNIT_SEL.SOURCE) c

/-- FAN_CTRL.CLEAR: every accumulator cleared, if the device is EXPELLED or holds no draft (R412). -/
def fanClear (c : Ctl) : Ctl :=
  if getF c R.FAN_STATUS.STANDING = standExpelled ∨ c.job.isNone then
    setF R.FAN_STATUS.ACC 0 (onFan (fun f => { f with units := f.units.map (fun e => (e.1, { e.2 with acc := 0, heavy := 0, band := none, load := none })) }) c)
  else c

/-- UNDERATE. -/
def execUnderate (s : State) : Host.Outcome State Fault Refusal := runCtl (whenFan fanUnderate) s

/-- FAN_RETIRE. -/
def execFanRetire (s : State) : Host.Outcome State Fault Refusal := runCtl (whenFan fanRetire) s

/-- FAN_CLEAR. -/
def execFanClear (s : State) : Host.Outcome State Fault Refusal := runCtl (whenFan fanClear) s

end Sys2Proof.Machine
end

