-- ==== Sys2Proof/Machine/Draft.lean ====
section
/-! DEFINITION. The draft loader (R413 to R426): what a verified draft loads, the checks in the order of R421, applying a FULL draft, loading programs, reloading one core group. -/

namespace Sys2Proof.Machine

/-! ### What the sections load (R416, R422 step 2) -/

/-- A register word loaded from a section, its reserved bits zero. -/
def loadWord (off mask v : Nat) (c : Ctl) : Ctl := setReg off (BitVec.ofNat 64 (v &&& mask)) c

/-- Memory, millpond and salt (R203, R204, R207). -/
def loadMemory (j : Draft) (c : Ctl) : Ctl :=
  let c := forN 7 (fun p c =>
    let x := j.mem.parts.getD p (0, 0)
    setF (idxF R.MEM_PART.SIZE 8 p) x.2 (setF (idxF R.MEM_PART.BASE 8 p) x.1 c)) c
  let c := forN 8 (fun p c => loadWord (R.MEM_REG.adr + 8 * p) 0x1FFFFFFFF (j.mem.regs.getD p 0) c) c
  let c := forN 5 (fun x c =>
    let r := j.mem.regions.getD x (0, 0)
    setF (idxF R.MP_REGION.SIZE 8 x) r.2 (setF (idxF R.MP_REGION.BASE 8 x) r.1 c)) c
  let c := loadWord R.MEM_HOT_CFG.adr 0xFFFFFFFF j.mem.hotCfg c
  setF R.SLU_SALT.SALT j.salt c

/-- Beats, ports, checks, snapshots, sparing (R14, R235, R275, R314, R328, R342, R374, R404). -/
def loadPolicy (j : Draft) (c : Ctl) : Ctl :=
  let c := setF R.BEAT_CFG.WINDOW_N (j.check.n - 1) (setB R.BEAT_CFG.WEAVE j.weave.broad (setF R.BEAT_CFG.GUARD_PM j.guardPm (setF R.BEAT_CFG.PERIOD j.period c)))
  let c := forN 2 (fun i c =>
    let x := j.spares.getD i (0, false)
    setB (portF R.PORT_SPARE_PLANE.CABLED (36 + i)) x.2 (setF (portF R.PORT_SPARE_PLANE.PLANE (36 + i)) x.1 c)) c
  let c := loadWord R.SEL_TMO.adr 0xFFFFFF j.selTmo c
  let k := j.check
  let c := setF R.STEP_CHECK_CFG.SMP_ENTRIES k.smpEntries (setF R.STEP_CHECK_CFG.K_SAMPLE k.kSample
    (setF R.STEP_CHECK_CFG.D_M1 (k.d - 1) (setF R.STEP_CHECK_CFG.N_M1 (k.n - 1) c)))
  let c := setF R.RET_STAGE.BASE (regionBase c 3 / 65536) (setF R.RET_CFG.STAGE_KIB k.stageKib (setF R.RET_CFG.SLOTS k.retSlots c))
  let c := loadWord R.VOTE_CFG.adr 0xFFFF003F k.voteCfg (loadWord R.REC_CFG.adr 0xFFFFFF07 k.recCfg c)
  let s := j.snap
  let c := setF R.IMG_CFG.TAIL_STEPS s.tailSteps (setB R.IMG_CFG.TAIL_CLASS s.trimmed (setF R.IMG_CFG.TAIL_K s.tailK (setF R.IMG_CFG.STATE_TILES s.stateTiles c)))
  let c := loadWord R.FAN_HEAT_CFG.adr 0x71F j.fanHeatCfg (fanCfgTake (loadWord R.FAN_CFG.adr 0x03FF03FF03FFFFFF j.fanCfg c))
  setF R.FAN_CP.HB_MISS j.hbMiss c

/-- A governor record as the defaults give it (R108). -/
def recDefault (w0 w1 : Nat) : TRec :=
  let r := setRecWord (setRecWord TRec.zero 0 w0) 1 w1
  { r with readScale := r.scale, samples := 0, head := 0, cold := r.auto }

/-- The governor's defaults (R96, R108, R109). -/
def loadGovernor (j : Draft) (c : Ctl) : Ctl :=
  let g := j.gov
  let c := setF R.GOV_SEED.SEED g.seed (setF R.GOV_CFG.MEAS_STEPS g.measSteps (setF R.GOV_CFG.RECORDS g.records c))
  let c := setB R.GOV_STATUS.NONFIN_STEP false (setB R.GOV_STATUS.MEASURING false (setF R.GOV_STATUS.MEAS_LEFT g.measSteps c))
  let th (i : Nat) : Nat := g.th.getD i 0
  let c := setF R.GOV_TH_MINCONV.MIN (th 2) (setF R.GOV_TH_VAN.SHARE (th 1) (setF R.GOV_TH_SAT.SHARE (th 0) c))
  let c := setF R.GOV_TH_RATIO_LO.RATIO (th 4) (setF R.GOV_TH_RATIO_HI.RATIO (th 3) c)
  let recs := ((List.range g.recs.length).zip g.recs).map (fun x => (x.1 + 1, recDefault x.2.1 x.2.2.1))
  { c with gov := { recs := recs, layers := [], tel := [] } }

/-- The sequence of every core that is not fused off (R142, R160). -/
def loadSequence (j : Draft) (c : Ctl) : Ctl :=
  forN 72 (fun p c =>
    if (coreSlot c p).state = 3 then c
    else
      let c := setF (coreF R.SEQ_BEATS.B_CLOSE p) j.seq.bClose (setF (coreF R.SEQ_BEATS.B_MEAS p) j.seq.bMeas (setF (coreF R.SEQ_BEATS.B_TRAIN p) j.seq.bTrain c))
      setF (coreF R.SEQ_LAST_STEP.STEP p) j.seq.lastStep c) c

/-- The registers that the sections load. -/
def loadRegisters (j : Draft) (c : Ctl) : Ctl := loadSequence j (loadGovernor j (loadPolicy j (loadMemory j c)))

/-! ### The checks of R421 -/

/-- A failed check: its code and the offset of the section header (R420). -/
abbrev Failed := Option (Nat × Nat)

/-- The first failure of two. -/
def orFail (a b : Failed) : Failed :=
  match a with
  | some x => some x
  | none => b

/-- Fail with a code unless a condition holds. -/
def demand (ok : Bool) (code off : Nat) : Failed := if ok then none else some (code, off)

/-- Codes 0x01 to 0x06: header, lengths, digest, signature. -/
def checkHeader (c : Ctl) (bs : List Byte) : Failed :=
  let len := draftLen bs
  let lo := dfld bs 8 1 % 16
  let hi := dfld bs 8 1 / 16
  orFail (demand (dfld bs 0 8 == draftMagic && decide (dfld bs 9 1 ≤ 1)) 0x01 0)
  (orFail (demand (lo == 1 && decide (lo ≤ hi) && decide (hi ≤ 3)) 0x02 0)
  (orFail (demand (dfld bs 0xB 1 / 2 ^ (gradeCode c.fuses.grade - 1) % 2 == 1) 0x03 0)
  (orFail (demand (decide (0x110 ≤ len) && decide (len ≤ draftMax) && len % 8 == 0 && bs.length == len) 0x04 0)
  (orFail (demand ((bs.drop 0x80).take 64 == sha512 (bs.drop 0x100)) 0x05 0)
  (demand (verifyMessage ((bs.drop 0x20).take 32) (bs.take 0xC0) ((bs.drop 0xC0).take 64)) 0x06 0)))))

/-- The pinned signer key (R441). -/
def draftPin (c : Ctl) : Nat := leNat ((List.range 4).flatMap (fun i => leBytes 8 (getReg c (R.DRAFT_PIN.adr + 8 * i)).toNat))

/-- Code 0x07: the signer against the job owner, of the draft itself or, for a RELOAD, of the draft in force, and against the pin. -/
def checkOwner (c : Ctl) (bs : List Byte) (l : List Sect) : Failed :=
  let signer := dfld bs 0x20 32
  let owner : Option Nat :=
    if dfld bs 9 1 = 1 then c.job.map (·.weave.ownerKey.toNat)
    else (l.find? (fun s => s.type == sWeave && s.level == 1)).map (fun s => dfld s.body 8 32)
  let off := if dfld bs 9 1 = 1 then 0 else sectOff l sWeave
  orFail (demand (match owner with | some k => k == signer | none => true) 0x07 off)
    (demand (!getB c R.DRAFT_PIN_CTRL.SET || signer == draftPin c) 0x07 0)

/-- The sections that count: those at level 1 (R415). -/
def liveSects (l : List Sect) : List Sect := l.filter (fun s => decide (s.level < 2))

/-- Core groups as the sections are to be read with: the draft's own, or those in force for a RELOAD. -/
def readGroups (c : Ctl) (bs : List Byte) (l : List Sect) : List Nat :=
  if dfld bs 9 1 = 1 then (c.job.map (·.coreGroup)).getD [] else coreGroupsOf (sectBody l sCoreGroups)

/-- Code 0x08: the sections (R414, R415, R424). -/
def checkSections (c : Ctl) (bs : List Byte) (w : List Sect × Option Nat) : Failed :=
  let l := liveSects w.1
  let reload := dfld bs 9 1 == 1
  let cg := readGroups c bs l
  orFail (w.2.map (fun o => (0x08, o)))
  (orFail ((sectDisorder w.1).map (fun o => (0x08, o)))
  (orFail ((w.1.find? (fun s => !sectOk cg s)).map (fun s => (0x08, s.off)))
  (orFail (demand (dfld bs 0xC 4 == w.1.length) 0x08 0)
  (if reload then
     (l.find? (fun s => !((s.type == sProgram || s.type == sPatch) && s.group == dfld bs 0xA 1))).map (fun s => (0x08, s.off))
   else
     orFail (demand (singleTypes.all (fun t => (l.filter (fun s => s.type == t)).length == 1)) 0x08 0)
       (demand (let n := dfld (sectBody l sCoreGroups) 0 1; decide (1 ≤ n ∧ n ≤ 64)) 0x08 (sectOff l sCoreGroups))))))

/-- Code 0x09: beats (R14, R259). -/
def checkBeat (j : Draft) (off : Nat) : Failed :=
  let guard := j.period * j.guardPm / 1000
  demand (decide (1000 ≤ j.period ∧ j.period ≤ 1000000) && decide (10 ≤ j.guardPm ∧ j.guardPm ≤ 250) &&
    decide (200 * treeDepth j.weave.members.length + 25 ≤ guard)) 0x09 off

/-- Whether a list names no value twice. -/
def distinct : List Nat → Bool
  | [] => true
  | x :: xs => !xs.contains x && distinct xs

/-- Code 0x0A: the weave section (R26, R284, R286, R300, R417). -/
def checkWeave (c : Ctl) (j : Draft) (body : List Byte) (off : Nat) : Failed :=
  let w := j.weave
  let n := w.members.length
  let ss := (workers w).map (·.num)
  demand (weaveCountsOk body &&
    (if w.broad then decide (1025 ≤ n ∧ n ≤ 65536) else decide (2 ≤ n ∧ n ≤ 1024)) &&
    distinct (w.members.map (·.num)) && distinct (w.members.map (·.key.toNat)) && w.members.all (fun m => m.endpoint || decide (1 ≤ m.cap)) &&
    decide (2 ≤ ss.length) &&
    w.groups.all (fun g => decide (2 ≤ g.length) && decide (g.length ≤ 65536) && distinct g && g.all ss.contains) &&
    w.sheds.all (fun s => decide ((w.sheds.filter (fun x => x.seat == s.seat)).length ≤ 32)) &&
    verifyMessage (leBytes 32 w.ownerKey.toNat) (leBytes 4 w.ver ++ leBytes 64 w.digest.toNat) (leBytes 64 w.ownerSig.toNat) &&
    w.members.any (fun m => m.key.toNat == leNat (identityKey c))) 0x0A off

/-- Whether ranges of (base, size) are free of overlap and end at or below a bound. -/
def rangesOk (l : List (Nat × Nat)) (top : Nat) : Bool :=
  l.all (fun x => x.2 == 0 || decide (x.1 + x.2 ≤ top)) &&
    (List.range l.length).all (fun i => (List.range i).all (fun k =>
      let a := l.getD i (0, 0)
      let b := l.getD k (0, 0)
      a.2 == 0 || b.2 == 0 || decide (a.1 + a.2 ≤ b.1) || decide (b.1 + b.2 ≤ a.1)))

/-- Bytes of the state section of a draft, and S (R351). -/
def draftStateBytes (j : Draft) : Nat := 0x508000 + j.snap.stateTiles * 0x21000
def draftS (j : Draft) : Nat := (draftStateBytes j + 0xFFFFF) / 0x100000 * 0x100000

/-- Bytes of a retain slot (R328). -/
def retSlotBytes (stageKib : Nat) : Nat := (32768 + stageKib * 1024 + 65535) / 65536 * 65536

/-- Code 0x0B: partitions, regions and COLL by the MEMORY section (R203, R207, R208, R401), the size conditions of the CHECK section (R328) and of the SNAPSHOT section (R351). -/
def checkMemory (c : Ctl) (j : Draft) (l : List Sect) : Failed :=
  let m := j.mem
  let size (p : Nat) : Nat := (m.parts.getD p (0, 0)).2
  let reg (x : Nat) : Nat := (m.regions.getD x (0, 0)).2
  let p := size 0 + size 1
  orFail (demand (rangesOk m.parts (hbmEnd c.fuses.grade / gib) && rangesOk (m.regions ++ [(496, 16)]) 512 && decide (p ≤ 160) &&
    decide (p ≤ reg 0 ∧ p ≤ reg 1 ∧ p ≤ reg 2) &&
    decide (size 4 ≤ match c.fuses.grade with | .a64 => 8 | .b48 => 6)) 0x0B (sectOff l sMemory))
  (orFail (demand (decide (j.check.n + j.snap.interval + 1 ≤ j.check.retSlots) &&
    decide (j.check.stageKib * 1024 + j.check.retSlots * retSlotBytes j.check.stageKib + 3 * draftS j ≤ reg 3 * gib)) 0x0B (sectOff l sCheck))
  (demand (decide (draftStateBytes j ≤ size 5 * gib)) 0x0B (sectOff l sSnapshot)))

/-- Code 0x0C: placement (R303, R304). -/
def checkPlacement (j : Draft) (off : Nat) : Failed :=
  let w := j.weave
  let homes := shardHomes w
  let ss := (workers w).map (·.num)
  let size (p : Nat) : Nat := (j.mem.parts.getD p (0, 0)).2 * gib
  demand (ss.all (fun s =>
      let mine := homes.filter (fun x => x.1 == s)
      let wl := mine.foldl (fun n x => n + x.2.wLines) 0 * lineBytes
      let ol := mine.foldl (fun n x => n + x.2.oLines) 0 * lineBytes
      decide (wl ≤ size 0 ∧ ol ≤ size 1 ∧ wl + ol ≤ 160 * gib)) &&
    (w.broad || homes.all (fun x => ss.contains x.1 && x.1 != 0xFFFF)) &&
    decide (2 * mirrorM w ≤ ss.length)) 0x0C off

/-- The sample table of a program. -/
def samplesFor (j : Draft) (program : Nat) : List SampleEnt := ((j.samples.find? (fun x => x.1 == program)).map (·.2)).getD []

/-- Whether a CHECKER entry of a table and its partner there are drains of the same logical core of the same device, whatever seat that serves (R323, R417). -/
def samplePaired (j : Draft) (table : List SampleEnt) (e : SampleEnt) : Bool :=
  e.kind == 2 && decide (e.partner % (workers j.weave).length = 0) &&
    (match table[e.entry]? with
     | some o => o.core == e.core
     | none => false)

/-- The offset of the first section of a type that breaks a condition. -/
def firstBad (l : List Sect) (t code : Nat) (ok : Sect → Bool) : Failed := (l.find? (fun s => s.type == t && !ok s)).map (fun s => (code, s.off))

/-- Code 0x0D: checks (R314, R328, R398), and the pairs of the sample tables (R323). -/
def checkChecks (j : Draft) (l : List Sect) : Failed :=
  let k := j.check
  orFail (demand (decide (1 ≤ k.n ∧ k.n ≤ 16) && decide (1 ≤ k.d ∧ k.d ≤ k.n) && decide (k.kSample ≤ 10) && k.smpBase % 64 == 0 &&
    decide (k.smpEntries ≤ 4096) && decide (k.smpEntries + k.probEntries ≤ 4096) &&
    decide (k.smpBase + 64 * (k.smpEntries + k.probEntries) ≤ 0x4000000) &&
    k.targets.all (fun t => t.len == 0 || decide (t.parity ≤ 2))) 0x0D (sectOff l sCheck))
  (firstBad l sSample 0x0D (fun s => (samplesOf s).all (fun e => !samplePaired j (samplesOf s) e)))

/-- Code 0x0E: snapshots and the tailrace (R211, R351, R361, R362, R366); `t` is the device as the draft would set it, `trims` and `n` the numbers of trim entries and targets in the section. With TAIL_STEPS 0 neither table is used. -/
def checkTail (t : Ctl) (j : Draft) (trims n off : Nat) : Failed :=
  let s := j.snap
  let ss := (workers j.weave).map (·.num)
  let group := s.targets
  demand (decide (1 ≤ s.interval ∧ s.interval ≤ 64) && decide (s.stateTiles ≤ 2048) && s.tailSteps % s.interval == 0 &&
    (s.tailSteps == 0 ||
      (decide (4 ≤ s.tailK ∧ s.tailK ≤ 16) && decide (trims ≤ 64) && decide (2 ≤ n ∧ n ≤ 4096) &&
       group.all (fun g => if g.endpoint then j.weave.members.any (fun m => m.num == g.num && m.endpoint) else ss.contains g.num) &&
       ss.all (fun x => decide (s.tailK + 1 ≤ (tailTargets t x).length)) &&
       group.all (fun g => g.endpoint ||
         (let bytes := genLen t (tailTrim t)
          let mine (x : Nat) : Nat := ((List.range (stripeCount bytes s.tailK)).filter (fun i => stripeTarget t x i == some g)).foldl
            (fun n i => n + stripeLen bytes s.tailK i) 0
          decide (2 * ss.foldl (fun n x => n + mine x) 0 + 65536 * ss.length ≤ (j.mem.regions.getD 4 (0, 0)).2 * gib)))))) 0x0E off

/-- The PROGRAM sections of a seat's program. -/
def seatPrograms (j : Draft) (e : SeatEnt) : List CoreProg := (j.programs.filter (fun p => p.program == e.program)).flatMap (·.cores)

/-- Whether a patch names a word of an image, and an image that the program of each seat with its patch set holds (R421). -/
def patchOk (j : Draft) (x : PatchEnt) : Bool :=
  decide (x.word ≤ 63) && (j.weave.seatMap.filter (fun e => e.patch == x.set)).all (fun e =>
    (seatPrograms j e).any (fun p => p.core == x.core && decide (p.first ≤ x.idx) && decide (x.idx < p.first + p.images.length)))

/-- Whether a core's part of a program keeps to the cores, images, chunks and list offsets there are (R142, R421). -/
def coreProgOk (n : Nat) (x : CoreProg) : Bool :=
  decide (x.core < n) && decide (x.first + x.images.length ≤ 0x800) &&
    x.chunks.all (fun k => decide (k.off + k.bytes.length ≤ 0x600000)) && x.lists.all (fun o => o % 4 == 0 && decide (o < 0x600000))

/-- Code 0x0F: a program for every seat, programs, patches, the governor's defaults (R96, R98, R109, R142); `l` are the sections received. -/
def checkPrograms (c : Ctl) (j : Draft) (l : List Sect) : Failed :=
  let g := j.gov
  orFail (demand (((workers j.weave).map (·.num)).all (fun s =>
      match j.weave.seatMap.find? (fun e => e.seat == s) with
      | none => false
      | some e => j.programs.any (fun p => p.program == e.program))) 0x0F (sectOff l sWeave))
  (orFail (firstBad l sProgram 0x0F (fun s => (progOf j.coreGroup s).cores.all (coreProgOk (lcores c.fuses.grade))))
  (orFail (firstBad l sPatch 0x0F (fun s => (patchesOf s).all (patchOk j)))
  (demand (decide (1 ≤ g.records ∧ g.records ≤ 16384) && decide (g.measSteps ≤ 64) && g.recs.all (fun r => decide (r.1 % 16 ≤ 4))) 0x0F (sectOff l sGovernor))))

/-- The draft digest in force (R426, R441). -/
def digestNow (c : Ctl) : Nat := leNat ((List.range 8).flatMap (fun i => leBytes 8 (getReg c (R.DRAFT_DIGEST.adr + 8 * i)).toNat))

/-- Whether the job has ended: step SEQ_LAST_STEP + N has sealed (R142). -/
def jobEnded (c : Ctl) : Bool :=
  match c.job with
  | some j => c.step.hasSealed && decide (j.seq.lastStep + j.check.n ≤ getF c R.STEP_SEALED.STEP)
  | none => false

/-- Whether a FULL draft is accepted (R422). -/
def fullAccepted (c : Ctl) : Bool := !stepOpen c && c.draft.reload.isNone && (c.job.isNone || getF c R.REC_STATE.STATE == 3 || jobEnded c)

/-- Whether a RELOAD is accepted: none is pending, and step t has not passed (R425, R426). -/
def reloadAccepted (c : Ctl) : Bool :=
  let t := getF c R.DRAFT_APPLY.STEP
  c.draft.reload.isNone && (if c.step.opened then decide (getF c R.STEP_NOW.STEP < t)
    else match c.job with | some j => decide (j.seq.firstStep ≤ t) | none => false)

/-- A RELOAD over the draft in force: the PROGRAM and PATCH sections of its group replaced (R424). -/
def reloadOver (j r : Draft) : Draft :=
  { j with programs := j.programs.filter (fun p => p.group != r.group) ++ r.programs,
           patches := j.patches.filter (fun p => p.group != r.group) ++ r.patches }

/-- The draft as read: a RELOAD's sections are read with the core groups in force. -/
def draftRead (c : Ctl) (bs : List Byte) : Draft :=
  let l := liveSects (draftSects bs).1
  let j := draftOf bs l
  if j.reload then
    let cg := readGroups c bs l
    { j with programs := (l.filter (fun s => s.type == sProgram)).map (progOf cg) }
  else j

/-- A RELOAD's own part of the PROGRAM check: its patches name cores of its group only (R424). -/
def checkReload (c : Ctl) (r : Draft) (l : List Sect) : Failed :=
  match c.job with
  | none => none
  | some j =>
    orFail (firstBad l sPatch 0x0F (fun s => (patchesOf s).all (fun x => j.coreGroup.getD x.core 0xFF == r.group))) (checkPrograms c (reloadOver j r) l)

/-- The checks of a FULL draft's contents, codes 0x09 to 0x0F. -/
def checkFull (c : Ctl) (j : Draft) (l : List Sect) : Failed :=
  let o (t : Nat) := sectOff l t
  let me := ((j.weave.members.find? (fun m => m.key.toNat == leNat (identityKey c))).map (·.num)).getD 0
  let t := placeLoad j.weave me (loadRegisters j { c with job := some j })
  orFail (checkBeat j (o sBeat)) (orFail (checkWeave c j (sectBody l sWeave) (o sWeave)) (orFail (checkMemory c j l)
    (orFail (checkPlacement j (o sWeave)) (orFail (checkChecks j l)
      (orFail (checkTail t j (dfld (sectBody l sSnapshot) 10 1) (dfld (sectBody l sSnapshot) 12 4) (o sSnapshot)) (checkPrograms c j l))))))

/-- The verification of a received draft, in the order of R421: the first failure. -/
def verifyDraft (c : Ctl) (bs : List Byte) : Failed :=
  let w := draftSects bs
  orFail (checkHeader c bs) (orFail (checkOwner c bs (liveSects w.1)) (orFail (checkSections c bs w)
    (let j := draftRead c bs
     if j.reload then
       orFail (checkReload c j (liveSects w.1)) (orFail (demand (c.job.isSome && j.base.toNat == digestNow c) 0x10 0) (demand (reloadAccepted c) 0x11 0))
     else orFail (checkFull c j (liveSects w.1)) (demand (fullAccepted c) 0x11 0))))

/-! ### Loading a program (R418) -/

/-- The patches of a seat's patch set for a core, in draft order. -/
def patchesFor (j : Draft) (e : SeatEnt) (l : Nat) : List PatchEnt := j.patches.filter (fun x => x.set == e.patch && x.core == l)

/-- A core's part of a program, on physical core p: chunks, images, patches, list offsets. -/
def loadCore (j : Draft) (e : SeatEnt) (x : CoreProg) (p : Nat) (d : Dev) : Dev :=
  let m := x.chunks.foldl (fun m k => writeCore d.c p k.off k.bytes m) d.m
  let m := ((List.range x.images.length).zip x.images).foldl (fun m i => writePick d.c p (256 * (x.first + i.1)) i.2 m) m
  let m := (patchesFor j e x.core).foldl (fun m k => writePick d.c p (256 * k.idx + 4 * k.word) (leBytes 4 k.value) m) m
  let c := forN 6 (fun t c => forN 3 (fun k c =>
    setF (R.SEQ_LIST.OFFSET.at (0x10000 * p + 0x10 * t + 4 * k)) (x.lists.getD (4 * t + k) 0 / 4) c) c) d.c
  let c := forN 6 (fun t c => { c with probLists := c.probLists.put (6 * x.core + t) (x.lists.getD (4 * t + 3) 0) }) c
  { c := { c with progCores := if c.progCores.contains x.core then c.progCores else c.progCores ++ [x.core] }, m := m }

/-- The parts of a program that `which` selects, by logical core. -/
def loadParts (j : Draft) (which : CoreProg → Bool) (d : Dev) : Dev :=
  match (mySeat d.c).bind (fun s => j.weave.seatMap.find? (fun e => e.seat == s)) with
  | none => d
  | some e =>
    ((seatPrograms j e).filter which).foldl (fun d x =>
      match physCore d.c x.core with
      | some p => loadCore j e x p d
      | none => d) d

/-- The program of the device's seat (R418); a device that serves no seat keeps none. -/
def loadProgram (j : Draft) (d : Dev) : Dev := loadParts j (fun _ => true) (onCtl (fun c => { c with progCores := [], probLists := [] }) d)

/-- The part of one core group (R425), and the cores whose copy is not complete. A core of the group that the program does not cover has no lists any more (R418). -/
def loadGroup (j : Draft) (g : Nat) (d : Dev) : Dev :=
  let cores := (groupCores j.coreGroup g).filterMap (physCore d.c)
  loadParts j (fun x => j.coreGroup.getD x.core 0xFF == g)
    (onCtl (fun c => { c with copying := cores, progCores := c.progCores.filter (fun l => j.coreGroup.getD l 0xFF != g) }) d)

/-! ### Applying a FULL draft (R422) -/

/-- Whether the sections that decide KEEP are byte for byte those in force (R422). -/
def keeps (old new : Draft) : Bool :=
  [sMemory, sSalt, sWeave, sCheck, sSnapshot].all (fun t => sectBody old.sects t == sectBody new.sects t)

/-- DRAFT_STATUS.STATE changes, the cause of vector 14 (R457). -/
def setDraftState (n : Nat) (c : Ctl) : Ctl :=
  if getF c R.DRAFT_STATUS.STATE = n then c else cause 14 (setF R.DRAFT_STATUS.STATE n c)

/-- Step 1: beats stop, and tension is disarmed (R422, R465). -/
def stopBeats (c : Ctl) : Ctl :=
  let c := { c with time := { TimeSt.reset with adj := c.time.adj }, ten := none, tenKey := false }
  let c := setB R.TEN_STATUS.ARMED false (setB R.TEN_STATUS.STAGE false (setB R.TEN_STATUS.IN_FORCE false c))
  idleTreadles (setB R.BEAT_STATUS.ALIGNED false (setB R.BEAT_STATUS.RUNNING false (setB R.BEAT_STRETCH.NEXT_VALID false c)))

/-- What a load that keeps nothing discards: images, generation slots, retained inputs, the rollback point, the step registers (R422). -/
def dropSteps (c : Ctl) : Ctl :=
  let c := snapAbort c
  let c := if getF c R.REC_STATE.STATE = 0 ∧ getF c R.REC_STATE.ATTEMPT = 0 then c else cause 13 c
  let c := { c with snap := SnapSt.reset, ret := Retain.reset, step := StepSt.reset, coll := CollSt.reset }
  let c := [R.STEP_NOW.adr, R.STEP_SEALED.adr, R.STEP_CHECKED.adr, R.STEP_ROLLBACK.adr, R.STEP_BAD.adr, R.STEP_STATUS.adr, R.REC_STATE.adr,
    R.REC_FAULT_STEP.adr, R.REC_RESUME_STEP.adr, R.CHK_FIRST0.adr, R.CHK_PREV0.adr, R.TAIL_J.adr, R.TAIL_STATUS.adr, R.MIR_IMG0.adr, R.MIR_IMG1.adr,
    R.MIR_STATUS.adr, R.RST_STATUS.adr].foldl (fun c a => resetReg a c) c
  setB R.RET_STATUS.RESTORING false (setB R.VOTE_STATE.HALTED false (setB R.VOTE_STATE.VOTE_VALID false (setB R.SLU_STATUS.SNAP_VALID false c)))

/-- HBM and millpond after a load that changes the salt: contents undefined (R422). -/
def scramble (d : Dev) : Dev :=
  let kept (k g : Nat) : Bool := decide (0x18000000000 ≤ k * g)
  { c := { d.c with poison := d.c.poison.filter (kept 256), bad := d.c.bad.filter (kept 32), soft := d.c.soft.filter (fun k => kept 32 (k / 32)) },
    m := { gen := d.m.gen + 1, cells := d.m.cells.filter (fun x => decide (0x18000000000 ≤ x.1)) } }

/-- A digest written into the DRAFT_DIGEST registers. -/
def setDigest (n : Nat) (c : Ctl) : Ctl := forN 8 (fun i c => setReg (R.DRAFT_DIGEST.adr + 8 * i) (BitVec.ofNat 64 (n / 2 ^ (64 * i))) c) c

/-- The ports that went down, or were retired, before the draft named the cabling of the spares are replaced now (R235). -/
def sparesStart : Ctl → Ctl := inCycle (forN 38 (fun p c =>
  let st := getF c (portF R.PORT_STATUS.STATE p)
  if st = 4 ∨ st = 5 then portReplace p (getF c (portF R.PORT_STATUS.DOWN_CAUSE p)) c else c))

/-- A device that its job had expelled may take part again (R397). -/
def standingStart (c : Ctl) : Ctl := if getF c R.FAN_STATUS.STANDING = standExpelled then setF R.FAN_STATUS.STANDING standService c else c

/-- A FULL draft is applied, in the order of R422. -/
def applyFull (j : Draft) (d : Dev) : Dev :=
  let keep := match d.c.job with | some o => keeps o j | none => false
  let salted := getF d.c R.SLU_SALT.SALT != j.salt
  let me := ((j.weave.members.find? (fun m => m.key.toNat == leNat (identityKey d.c))).map (·.num)).getD 0
  let d := onCtl stopBeats d
  let d := onCtl (fun c => if keep then { c with step := { c.step with opened := false } } else dropSteps c) d
  let d := onCtl (fun c => { c with job := some j, slu := { c.slu with rkLive := false, rkDone := false, rkHeld := false } }) d
  let d := onCtl (fun c => standingStart (sparesStart (placeSelf (placeLoad j.weave me (loadRegisters j c))))) d
  let d := if salted then scramble d else d
  let d := onCtl admissionStart d
  let d := loadProgram j d
  onCtl (fun c =>
    let c := setDigest j.digest.toNat { c with draft := { recv := [], reload := none, startDone := false }, copying := [] }
    setB R.DRAFT_STATUS.KEEP keep (setB R.DRAFT_STATUS.LOADED true (setDraftState 3 (setF R.DRAFT_COUNT.BYTES 0 c)))) d

/-! ### Reloads (R424 to R426) -/

/-- At the boundary that opens step s: the new program of a pending RELOAD for step s (R425). -/
def reloadOpen (s : Nat) (d : Dev) : Dev :=
  match d.c.draft.reload with
  | some r => if r.step = s then loadGroup r.job r.group d else d
  | none => d

/-- At a restore whose first replayed step is s: the old program below t, the new one from t on (R426). -/
def reloadRestore (s : Nat) (d : Dev) : Dev :=
  match d.c.draft.reload, d.c.job with
  | some r, some j => onCtl (fun c => { c with copying := [] }) (loadGroup (if s < r.step then j else r.job) r.group d)
  | _, _ => d

/-- When the rollback point reaches t: the previous draft is discarded and the digests are combined (R426). -/
def reloadSettle (c : Ctl) : Ctl :=
  match c.draft.reload with
  | some r =>
    if c.step.hasRollback && decide (r.step ≤ getF c R.STEP_ROLLBACK.STEP) then
      let dg := leNat (sha512 (leBytes 64 (digestNow c) ++ leBytes 64 r.digest.toNat))
      setDraftState 3 (setDigest dg { c with job := some r.job, draft := { c.draft with reload := none } })
    else c
  | none => c

/-- RELOAD_COPY_DONE: the copy into a core is complete (R425). -/
def copyDone (p : Nat) (c : Ctl) : Ctl := { c with copying := c.copying.filter (· != p) }

/-! ### The receiving store (R419, R420) -/

def stIdle : Nat := 0
def stReceiving : Nat := 1
def stVerifying : Nat := 2
def stLoaded : Nat := 3
def stPending : Nat := 4
def stFailed : Nat := 5

/-- The loader works while Ahnaskip runs (R419, R434). -/
def loaderOn (c : Ctl) : Bool := mainReady c 3 && !c.fw.dead

/-- STATE with nothing being received: PENDING and LOADED stand. -/
def draftRest (c : Ctl) : Nat := if c.draft.reload.isSome then stPending else if getB c R.DRAFT_STATUS.LOADED then stLoaded else stIdle

/-- The receiving store replaced. -/
def setRecv (bs : List Byte) (c : Ctl) : Ctl := setF R.DRAFT_COUNT.BYTES bs.length { c with draft := { c.draft with recv := bs } }

/-- DRAFT_CTRL.BEGIN. -/
def draftBegin (c : Ctl) : Ctl := if loaderOn c then setDraftState stReceiving (setRecv [] c) else c

/-- DRAFT_CTRL.ABORT. -/
def draftAbort (c : Ctl) : Ctl := if loaderOn c then setDraftState (draftRest c) (setRecv [] c) else c

/-- Bytes are appended; verification starts when their number reaches LENGTH (R420). -/
def draftAppend (bs : List Byte) (c : Ctl) : Ctl :=
  let l := (c.draft.recv ++ bs).take draftMax
  let c := setRecv l c
  if 0x18 ≤ l.length ∧ draftLen l ≤ l.length then setDraftState stVerifying c else c

/-- DRAFT_DATA: a word of a register load; ignored, with an event, while verifying (R419). -/
def draftWord (v : Word) (c : Ctl) : Ctl :=
  if !loaderOn c then c
  else if getF c R.DRAFT_STATUS.STATE = stVerifying then raise evProgram 0x15 srcDevice 0 c
  else if getF c R.DRAFT_STATUS.STATE = stReceiving then draftAppend (leBytes 4 v.toNat) c
  else c

/-- DRAFT_CTRL.PULL: DRAFT_PULL_LEN bytes are copied from DRAFT_SRC into the emptied store, in every state (R438). -/
def draftPull (d : Dev) : Dev :=
  if !loaderOn d.c then d
  else
    let r := readLong (getF d.c R.DRAFT_SRC.ADDR * 8) (min draftMax (getF d.c R.DRAFT_PULL_LEN.BYTES)) d
    onCtl (fun c => draftAppend r.1 (setDraftState stReceiving (setRecv [] c))) r.2

/-- Whether a unit's self-test has concluded, or it is absent or was left out of service by a repair record (R3, R427, R428). -/
def tested (c : Ctl) (readyOff lo : Nat) : Bool := (getReg c readyOff).getLsbD lo || (getReg c (readyOff + 0x20)).getLsbD lo

/-- Whether a unit has been left out of service by a repair record, or retired since power-on (R427, R428). -/
def leftOut (c : Ctl) (src : Nat) : Bool := c.fuses.repairs.contains src || (fanUnit c src).retired

/-- Whether every self-test has concluded that a draft needs, and no logical core waits for the boundary that maps it onto a spare (R13, R427). -/
def testsDone (c : Ctl) : Bool :=
  let off := R.READY_MAIN.HOST.off
  c.fan.remap.isEmpty &&
  [4, 5, 6, 7, 8, 9].all (tested c off) && ((List.range (stackCount c.fuses.grade)).map (16 + ·)).all (tested c off) &&
    ((List.range 8).map (24 + ·)).all (tested c off) && ((List.range 7).map (32 + ·)).all (fun b => tested c off b || leftOut c (srcLpe (b - 32))) &&
    (List.range 38).all (fun p => tested c R.READY_PORT.PORTS.off p || leftOut c (srcPort p)) &&
    (List.range 72).all (fun p => (coreSlot c p).state == 3 || leftOut c (srcCore p) ||
      (if p < 64 then tested c R.READY_CORE0.CORES.off p else tested c R.READY_CORE1.CORES.off (p - 64)))

/-- A failed load (R420). -/
def draftFail (code off : Nat) (c : Ctl) : Ctl :=
  let c := setDraftState stFailed (setF R.DRAFT_STATUS.ERR_OFFSET off (setF R.DRAFT_STATUS.ERROR code c))
  raise evProgram 0x12 srcDevice (code + off % 2 ^ 32 * 2 ^ 8) c

/-- DRAFT_VERIFY_DONE: verification concludes; a FULL draft is applied once every self-test it needs has concluded, a RELOAD waits for its step (R420 to R427). -/
def verifyDone (d : Dev) : Dev :=
  if !loaderOn d.c || getF d.c R.DRAFT_STATUS.STATE != stVerifying then d
  else
    let bs := d.c.draft.recv
    match verifyDraft d.c bs with
    | some (code, off) => onCtl (draftFail code off) d
    | none =>
      let j := draftRead d.c bs
      if j.reload then
        match d.c.job with
        | some old =>
          let r : Reload := { job := reloadOver old j, digest := j.digest, group := j.group, step := getF d.c R.DRAFT_APPLY.STEP }
          onCtl (fun c => setDraftState stPending (setRecv [] { c with draft := { c.draft with reload := some r } })) d
        | none => d
      else if testsDone d.c then applyFull j d
      else d

/-- DRAFT_PIN_CTRL written: both bits, while LOCK is 0 (R441). -/
def pinWrite (v : Word) (c : Ctl) : Ctl :=
  if getB c R.DRAFT_PIN_CTRL.LOCK then c else setF R.DRAFT_PIN_CTRL.LOCK (v.toNat / 2 % 2) (setF R.DRAFT_PIN_CTRL.SET (v.toNat % 2) c)

/-- The DRAFT block works from the cycle in which a control processor is READY (R428). -/
def whenDraft (f : Ctl → Ctl) (c : Ctl) : Ctl := if mainReady c 1 || mainReady c 2 then f c else c

/-! ### Commands -/

/-- DRAFT_BEGIN. -/
def execDraftBegin (s : State) : Host.Outcome State Fault Refusal := runCtl draftBegin s

/-- DRAFT_DATA. -/
def execDraftData (v : Word) (s : State) : Host.Outcome State Fault Refusal := runCtl (draftWord v) s

/-- DRAFT_PULL. -/
def execDraftPull (s : State) : Host.Outcome State Fault Refusal := runDev draftPull s

/-- DRAFT_ABORT. -/
def execDraftAbort (s : State) : Host.Outcome State Fault Refusal := runCtl draftAbort s

/-- DRAFT_VERIFY_DONE. -/
def execDraftVerifyDone (s : State) : Host.Outcome State Fault Refusal := runDev verifyDone s

/-- DRAFT_PIN_CTRL_WRITE. -/
def execDraftPinCtrlWrite (v : Word) (s : State) : Host.Outcome State Fault Refusal := runCtl (whenDraft (pinWrite v)) s

/-- RELOAD_COPY_DONE. -/
def execReloadCopyDone (p : Nat) (s : State) : Host.Outcome State Fault Refusal := runCtl (copyDone p) s

end Sys2Proof.Machine
end

