-- ==== Sys2Proof/Machine/Firmware.lean ====
section
/-! DEFINITION. The control processors' side: firmware images and updates (R430 to R434), heartbeats and takeover (R394), attestation (R435 to R437), self-tests at bring-up (R427 to R429). -/

namespace Sys2Proof.Machine

/-- Firmware state changed. -/
def onFw (f : FwSt → FwSt) (c : Ctl) : Ctl := { c with fw := f c.fw }

/-! ### Images (R430, R431) -/

def fwMagic : Nat := 0x50494B53414E4841

/-- Bytes of a flash slot (R430). -/
def fwSlotBytes : Nat := 0x1000000

/-- Bytes of an image's header. -/
def fwHeader : Nat := 0x100

/-- Whether an image is authenticated (R431). -/
def fwAuthentic (c : Ctl) (bs : List Byte) : Bool :=
  let len := dfld bs 0x18 8
  let key := dfld bs 0x10 4
  let body := (bs.drop fwHeader).take len
  dfld bs 0 8 == fwMagic && decide (len ≤ fwSlotBytes - fwHeader) && decide (fwHeader + len ≤ bs.length) &&
    (bs.drop 0x20).take 64 == sha512 body && decide (key ≤ 3) &&
    verifyMessage (leBytes 32 (Config.fwKey key).toNat) (bs.take 0x60) ((bs.drop 0x60).take 64) &&
    c.fuses.keyRevoked / 2 ^ key % 2 == 0 && decide (c.fuses.minSecver ≤ dfld bs 0xC 4)

/-- The image as a processor runs it; its digest is the SHA-512 of the whole image (R430). -/
def fwImage (bs : List Byte) : FwImage :=
  { version := dfld bs 8 4, secver := dfld bs 0xC 4, digest := BitVec.ofNat 512 (leNat (sha512 (bs.take (fwHeader + dfld bs 0x18 8)))) }

/-- The bytes of a slot: 0 is A, 1 is B. -/
def flashSlot (c : Ctl) (s : Nat) : List Byte := if s = 0 then c.flash.slotA else c.flash.slotB

/-- Whether a slot holds an image that may run. -/
def slotRuns (c : Ctl) (s : Nat) : Bool := !(if s = 0 then c.flash.badA else c.flash.badB) && fwAuthentic c (flashSlot c s)

/-- A slot written, or marked. -/
def setFlash (s : Nat) (bs : List Byte) (bad : Bool) (c : Ctl) : Ctl :=
  { c with flash := if s = 0 then { c.flash with slotA := bs, badA := bad } else { c.flash with slotB := bs, badB := bad } }

/-- The slot that is not in use (R433). -/
def fwOther (c : Ctl) : Nat := 1 - getF c R.FW_STATUS.ACTIVE_SLOT

/-- Whether control processor i is READY. -/
def cpReady (c : Ctl) (i : Nat) : Bool := mainReady c (1 + i)

/-- Every READY control processor runs an image: the lower one is active, the other standby (R431). -/
def fwStart (bs : List Byte) (c : Ctl) : Ctl :=
  let act := if cpReady c 0 then 0 else 1
  let c := setB R.FAN_CP.STANDBY_OK (cpReady c 0 && cpReady c 1) (setF R.FAN_CP.ACTIVE act c)
  let c := onFw (fun f => { f with cps := ((List.range 2).filter (cpReady c)).map (fun i => (i, fwImage bs)), dead := false }) c
  setF R.FW_STATUS.ACTIVE_VERSION (fwImage bs).version (setB R.READY_MAIN.FW_AUTH true c)

/-- An image failed R431. -/
def fwFailed (c : Ctl) : Ctl := setB R.FW_STATUS.AUTH_FAIL true c

/-- The boot ROM at power-on: the preferred slot, then the other (R431). The second result says whether an image runs. -/
def fwBootSlots (c : Ctl) : Ctl × Bool :=
  let pref := if c.flash.prefB then 1 else 0
  if slotRuns c pref then (setF R.FW_STATUS.ACTIVE_SLOT pref (fwStart (flashSlot c pref) c), true)
  else
    let c := fwFailed c
    if slotRuns c (1 - pref) then (setF R.FW_STATUS.ACTIVE_SLOT (1 - pref) (fwStart (flashSlot c (1 - pref)) c), true) else (c, false)

/-- A control processor that becomes READY while firmware runs boots from flash by itself, the preferred slot first, and is the standby (R431; log entry 157). -/
def fwJoin (i : Nat) (c : Ctl) : Ctl :=
  let pref := if c.flash.prefB then 1 else 0
  let join (s : Nat) (c : Ctl) : Ctl :=
    setB R.FAN_CP.STANDBY_OK (cpReady c (1 - i)) (onFw (fun f => { f with cps := f.cps.put i (fwImage (flashSlot c s)) }) c)
  if !mainReady c 3 || c.fw.dead then c
  else if slotRuns c pref then join pref c
  else if slotRuns c (1 - pref) then join (1 - pref) (fwFailed c)
  else fwFailed c

/-- Firmware acts while a control processor is active (R434). -/
def whenAlive (f : Ctl → Ctl) (c : Ctl) : Ctl := if c.fw.dead then c else f c

/-- The DRAFT block answers while a control processor is READY; firmware commands need an active one (R428, R434). -/
def whenFw (f : Ctl → Ctl) (c : Ctl) : Ctl := whenAlive (whenDraft f) c

def phIdle : Nat := 0
def phReceiving : Nat := 1
def phStaged : Nat := 2
def phLoading : Nat := 3
def phSyncing : Nat := 4
def phFailed : Nat := 5

/-- FW_STATUS.PHASE. -/
def fwPhase (c : Ctl) : Nat := getF c R.FW_STATUS.PHASE

/-- PHASE changed, the cause of vector 15 (R457). -/
def setPhase (n : Nat) (c : Ctl) : Ctl := if fwPhase c = n then c else cause 15 (setF R.FW_STATUS.PHASE n c)

/-- FW_CTRL.BEGIN: not while an update loads or synchronises. -/
def fwBegin (c : Ctl) : Ctl :=
  if fwPhase c = phLoading ∨ fwPhase c = phSyncing then c else setPhase phReceiving (onFw (fun f => { f with recv := [], staging := false }) c)

/-- FW_DATA: the next word of the image (R442). -/
def fwWord (v : Word) (c : Ctl) : Ctl :=
  if fwPhase c = phReceiving ∧ !c.fw.staging then onFw (fun f => { f with recv := (f.recv ++ leBytes 4 v.toNat).take fwSlotBytes }) c else c

/-- FW_CTRL.STAGE: the image goes to the slot not in use (R433). -/
def fwStage (c : Ctl) : Ctl :=
  if fwPhase c = phReceiving ∧ mainReady c 3 then onFw (fun f => { f with staging := true }) (setFlash (fwOther c) c.fw.recv false c) else c

/-- FW_STAGE_DONE: the staged image is authenticated, or its slot is marked invalid (R433). -/
def fwStageDone (c : Ctl) : Ctl :=
  if !c.fw.staging then c
  else
    let c := onFw (fun f => { f with staging := false }) c
    if fwAuthentic c (flashSlot c (fwOther c)) then setPhase phStaged c
    else fwFailed (setPhase phFailed (setFlash (fwOther c) (flashSlot c (fwOther c)) true c))

/-- FW_CTRL.UPDATE: ignored unless STAGED (R442); the standby, if there is one, loads the image. -/
def fwUpdate (c : Ctl) : Ctl :=
  if fwPhase c = phStaged ∧ getB c R.FAN_CP.STANDBY_OK then setPhase phLoading c else c

/-- The processor that is not active. -/
def standbyCp (c : Ctl) : Nat := 1 - getF c R.FAN_CP.ACTIVE

/-- FW_SYNC_START: the standby has authenticated the image in a second area and starts it; it is no standby while it synchronises (R433, R434). -/
def fwSyncStart (c : Ctl) : Ctl :=
  if fwPhase c = phLoading ∧ getB c R.FAN_CP.STANDBY_OK then
    let bs := flashSlot c (fwOther c)
    if fwAuthentic c bs then
      setPhase phSyncing (setB R.FAN_CP.STANDBY_OK false (onFw (fun f => { f with cps := f.cps.put (standbyCp c) (fwImage bs), synced := false }) c))
    else fwFailed (setPhase phFailed c)
  else c

/-- The new image becomes active; the old active restarts from the same slot as standby, and the slot becomes preferred (R433). -/
def fwSwitch (c : Ctl) : Ctl :=
  if fwPhase c = phSyncing ∧ c.fw.synced then
    let act := standbyCp c
    let old := getF c R.FAN_CP.ACTIVE
    let slot := fwOther c
    let img := fwImage (flashSlot c slot)
    let c := setB R.FAN_CP.STANDBY_OK (cpReady c old) (setF R.FAN_CP.ACTIVE act c)
    let c := onFw (fun f => { f with synced := false, cps := (f.cps.put act img).put old img }) c
    let c := { c with flash := { c.flash with prefB := slot == 1 } }
    setPhase phIdle (setF R.FW_STATUS.ACTIVE_VERSION img.version (setF R.FW_STATUS.ACTIVE_SLOT slot c))
  else c

/-- FW_SYNC_DONE: it switches at the next boundary, or at once when no beats run (R433). -/
def fwSyncDone (c : Ctl) : Ctl :=
  if fwPhase c = phSyncing then
    let c := onFw (fun f => { f with synced := true }) c
    if getB c R.BEAT_STATUS.RUNNING then c else fwSwitch c
  else c

/-- FW_CTRL.BOOT: only while FW_AUTH is 0; the received image runs without the flash being written (R431, R442). -/
def fwBoot (c : Ctl) : Ctl :=
  if mainReady c 3 then c
  else if fwAuthentic c c.fw.recv then setPhase phIdle (fwStart c.fw.recv c)
  else fwFailed c

/-- FW_CTRL.COMMIT_SECVER: the fused minimum rises to the active image's SECVER (R432). -/
def fwCommit (c : Ctl) : Ctl :=
  match c.fw.cps.look (getF c R.FAN_CP.ACTIVE) with
  | some x => { c with fuses := { c.fuses with minSecver := max c.fuses.minSecver x.secver } }
  | none => c

/-! ### Heartbeats (R394) -/

/-- HEARTBEAT of the active processor. -/
def heartbeat (c : Ctl) : Ctl := if c.fw.dead then c else onFan (fun f => { f with beatSeen := true }) c

/-- Whether HB_MISS beats have passed without a heartbeat; 0 acts as 1. -/
def heartbeatDue (c : Ctl) : Bool := decide (max 1 (getF c R.FAN_CP.HB_MISS) ≤ c.fan.missed) && !c.fan.takeover && !c.fw.dead && mainReady c 3

/-- HEARTBEAT_MISS: the active processor is charged and retired, and the standby takes over at the next boundary; during SYNCING there is no standby, and no processor stays active (R394, R434). -/
def heartbeatMiss (c : Ctl) : Ctl :=
  if !heartbeatDue c then c
  else
    let active := getF c R.FAN_CP.ACTIVE
    let syncing := fwPhase c == phSyncing
    let c := onFan (fun f => { f with missed := 0 }) c
    let c := if getB c R.FAN_CP.STANDBY_OK || syncing then chargeUnit kCp (srcCp active) c else c
    if syncing then
      unready (.main (1 + active)) (setPhase phFailed (onFw (fun f => { f with dead := true, synced := false }) (markRetired (srcCp active) c)))
    else retireCp (srcCp active) active c

/-- The control processors at a boundary: a takeover that is due, an update that has synchronised, the count of beats without a heartbeat (R394, R433). A takeover during LOADING leaves the image staged. -/
def cpBoundary (c : Ctl) : Ctl :=
  let c := heartbeatMiss c
  let c :=
    if c.fan.takeover then
      let old := getF c R.FAN_CP.ACTIVE
      let c := onFan (fun f => { f with takeover := false, missed := 0, beatSeen := true }) c
      let c := unready (.main (1 + old)) (setB R.FAN_CP.STANDBY_OK false (setB R.FAN_CP.TAKEOVER true (setF R.FAN_CP.ACTIVE (1 - old) c)))
      let c := if fwPhase c = phLoading then setPhase phStaged c else c
      match c.fw.cps.look (1 - old) with
      | some x => setF R.FW_STATUS.ACTIVE_VERSION x.version c
      | none => c
    else c
  let c := fwSwitch c
  if !mainReady c 3 || c.fw.dead then c
  else onFan (fun f => { f with missed := if f.beatSeen then 0 else f.missed + 1, beatSeen := false }) c

/-! ### Attestation (R435 to R437) -/

/-- A count in one byte. -/
def byteCount {α : Type} (l : List α) : List Byte := leBytes 1 l.length

/-- The lanes for which `f` holds. -/
def lanesWhere (f : Nat → Nat → Bool) : List (Nat × Nat) :=
  (List.range 38).flatMap (fun p => ((List.range 8).filter (f p)).map (fun l => (p, l)))

/-- The spare inventory (R437). -/
def spareInventory (c : Ctl) : List Byte :=
  let cores := (List.range 4).flatMap (fun d => byteCount ((freeCores c).filter (fun p => p / 18 == d)))
  let chans := (List.range 8).flatMap (fun s => byteCount (spareChannels c s))
  let ports := (List.range 2).filter (fun i => !getB c (portF R.PORT_STATUS.MAPPED (36 + i)) && getF c (portF R.PORT_STATUS.STATE (36 + i)) == 0 &&
    portReady c (36 + i) && getB c (portF R.PORT_SPARE_PLANE.CABLED (36 + i)))
  let lpes := (List.range 7).filter (fun e => mainReady c (32 + e) && !getB c (portF R.LPE_STATUS.ACTIVE e) && !getB c (portF R.LPE_STATUS.RETIRED e))
  let spareLanes := lanesWhere (fun p l => (getReg c (R.PORT_LANES.adr + 0x10000 * p)).getLsbD (16 + l))
  let deadLanes := lanesWhere (fun p l => (getReg c (R.PORT_LANES.adr + 0x10000 * p)).getLsbD (24 + l))
  let extra := ((servingCores c).flatMap (fun p => (List.range 4).filter (engPresent c p) |>.flatMap (fun e => freeExtra c p e))).length
  cores ++ chans ++ byteCount (emptySlots c) ++ byteCount ports ++ byteCount lpes ++ leBytes 1 (getF c R.FAN_CP.STANDBY_OK) ++
    leBytes 2 spareLanes.length ++ leBytes 2 deadLanes.length ++ leBytes 2 extra ++ zeros 42

/-- The grade fuses word (R435). -/
def gradeWord (c : Ctl) : Nat :=
  let off := match c.fuses.grade with | .a64 => 0 | .b48 => 0xC0
  gradeCode c.fuses.grade + off * 2 ^ 8 + c.fuses.keyRevoked % 16 * 2 ^ 16 + c.fuses.minSecver % 256 * 2 ^ 24 + c.fuses.repairs.length % 512 * 2 ^ 32

/-- Firmware digest of a control processor's image, zero when it runs none. -/
def fwDigest (c : Ctl) (i : Nat) : List Byte :=
  match c.fw.cps.look i with
  | some x => leBytes 64 x.digest.toNat
  | none => zeros 64

/-- The report but for its signature (R435). -/
def attBody (c : Ctl) : List Byte :=
  let nonce := (List.range 4).flatMap (fun i => leBytes 8 (getReg c (R.ATT_NONCE.adr + 8 * i)).toNat)
  let beat := if getB c R.BEAT_STATUS.RUNNING then getF c R.BEAT_NOW.BEAT else 0
  let standby := if getB c R.FAN_CP.STANDBY_OK then fwDigest c (standbyCp c) else zeros 64
  leBytes 8 0x0001545345545441 ++ leBytes 4 0x4040 ++ leBytes 1 1 ++ zeros 3 ++ nonce ++ leBytes 8 c.fuses.serial.toNat ++ leBytes 8 beat ++ identityKey c ++
    leBytes 64 c.fuses.certificate.toNat ++ fwDigest c (getF c R.FAN_CP.ACTIVE) ++ standby ++ leBytes 64 (digestNow c) ++
    leBytes 32 ((c.job.map (·.signer.toNat)).getD 0) ++ leBytes 8 (gradeWord c) ++ spareInventory c ++ zeros 3640 ++ heddleMap c

/-- ATT_CTRL.GO: a report is begun, unless one is under way (R435). -/
def attGo (c : Ctl) : Ctl :=
  if c.att.next.isSome || !mainReady c 3 then c
  else setB R.ATT_CTRL.DONE false { c with att := { c.att with next := some (attBody c) } }

/-- ATT_DONE: the report is signed and complete (R435). -/
def attDone (c : Ctl) : Ctl :=
  match c.att.next with
  | some bs =>
    cause 16 <| setB R.ATT_CTRL.DONE true { c with att := { next := none, report := bs ++ signMessage (leBytes 32 c.fuses.idSeed.toNat) bs } }
  | none => c

/-! ### Bring-up (R427 to R429) -/

/-- READY register offset and bit of a function. -/
def funcBit : Func → Nat × Nat
  | .main b => (R.READY_MAIN.HOST.off, b)
  | .port p => (R.READY_PORT.PORTS.off, p)
  | .core p => if p < 64 then (R.READY_CORE0.CORES.off, p) else (R.READY_CORE1.CORES.off, p - 64)

/-- Whether a function exists on this part (R3, R444, R445). -/
def funcExists (c : Ctl) : Func → Bool
  | .main b => decide (b < 10) || (decide (16 ≤ b) && decide (b < 16 + stackCount c.fuses.grade)) || (decide (24 ≤ b) && decide (b < 39)) || (decide (48 ≤ b) && decide (b < 64))
  | .port p => decide (p < 38)
  | .core p => decide (p < 72) && (coreSlot c p).state != 3

/-- Physical source of a function's unit (R454). -/
def funcSource : Func → Nat
  | .main b =>
    if b = 0 then srcHost else if b = 1 ∨ b = 2 then srcCp (b - 1) else if b = 4 then srcTimebase else if b = 5 then srcCommons
    else if b = 6 then srcGovernor else if b = 7 then srcFantail else if b = 8 then srcSluice else if b = 9 then srcSelvedge
    else if 16 ≤ b ∧ b < 24 then srcStack (b - 16) else if 24 ≤ b ∧ b < 32 then srcPackage (b - 24) else if 32 ≤ b ∧ b < 39 then srcLpe (b - 32)
    else if 48 ≤ b then srcShared (16 + (b - 48)) else srcDevice
  | .port p => srcPort p
  | .core p => srcCore p

/-- Whether a function's self-test may conclude now: it has not, its unit is not left out by a repair record or retired, and it does not wait for FW_AUTH or CP0 (R427 to R429). -/
def testOpen (c : Ctl) (f : Func) : Bool :=
  let b := funcBit f
  funcExists c f && !tested c b.1 b.2 && !leftOut c (funcSource f) &&
    (match f with
     | .port _ => mainReady c 3
     | .main n => n != 3 || cpReady c 0 || cpReady c 1
     | .core _ => true)

/-- A core fails its self-test: a serving one is replaced at the next boundary, or at once before a draft is loaded, when no beat runs; a spare is left out (R13, R14, R390, R428). -/
def coreTestFailed (p : Nat) (c : Ctl) : Ctl :=
  if (coreSlot c p).logical.isNone || c.job.isNone then coreFailed p c
  else if (bringUpSpare c p).isNone then noSpare (srcCore p) c
  else onFan (fun f => { f with remap := f.remap ++ [p] }) c

/-- A control processor fails its self-test: the other one runs alone; with none left there is no spare (R390, R428). -/
def cpTestFailed (i : Nat) (c : Ctl) : Ctl :=
  if (getReg c (R.READY_MAIN.adr + 0x20)).getLsbD (2 - i) || (fanUnit c (srcCp (1 - i))).retired then noSpare (srcCp i) c else markRetired (srcCp i) c

/-- A unit that failed its self-test is spared, or charged NOSPARE where nothing can replace it (R390, R428). FW_AUTH is no unit. -/
def testFailed (f : Func) (c : Ctl) : Ctl :=
  match f with
  | .core p => coreTestFailed p c
  | .port p => retirePort (srcPort p) p c
  | .main b =>
    if 32 ≤ b ∧ b < 39 then retireLpe (srcLpe (b - 32)) (b - 32) c
    else if b = 1 ∨ b = 2 then cpTestFailed (b - 1) c
    else if b = 3 then c
    else noSpare (funcSource f) c

/-- READY set. -/
def setReady (f : Func) (c : Ctl) : Ctl :=
  let b := funcBit f
  setReg b.1 (getReg c b.1 ||| (1 <<< b.2)) c

/-- FAIL set (R428, R429). -/
def setFail (f : Func) (c : Ctl) : Ctl :=
  let b := funcBit f
  setReg (b.1 + 0x20) (getReg c (b.1 + 0x20) ||| (1 <<< b.2)) c

/-- A function fails, or does not conclude in its time (R428, R429). -/
def funcFails (f : Func) (c : Ctl) : Ctl := if testOpen c f then inCycle (testFailed f) (setFail f c) else c

/-- A self-test concludes (R427). FW_AUTH is READY once an image is authenticated (R431); a port starts to train to its plane (R263, R429), a spare stays dark (R235). -/
def selfTestDone (f : Func) (r : TestResult) (c : Ctl) : Ctl :=
  match r with
  | .fail => funcFails f c
  | .pass =>
    if !testOpen c f then c
    else match f with
      | .main b =>
        if b = 3 then (fwBootSlots c).1
        else if b = 1 ∨ b = 2 then fwJoin (b - 1) (setReady f c)
        else setReady f c
      | .port p =>
        let c := setReady f c
        if getB c (portF R.PORT_STATUS.MAPPED p) && getF c (portF R.PORT_STATUS.STATE p) == 0 then startTraining p c else c
      | .core _ => setReady f c

/-- The units that repair records name are left out of service at power-on (R428). -/
def applyRepairs (c : Ctl) : Ctl :=
  let l := c.fuses.repairs
  l.foldl (fun c k =>
    let i := k % 4096
    if 0x10000 ≤ k then
      let e := (k - 0x10000) / 256
      let n := (k - 0x10000) % 256
      if n < 128 && (freeExtra c (e / 4) (e % 4)).isEmpty then coreFailed (e / 4) c
      else onFan (fun f => { f with proving := [] }) (repairColumn (e / 4, e % 4, n) (if n < 128 then c else onUnit k (fun u => { u with retired := true }) c))
    else match k / 4096 with
      | 1 => if i < 72 then coreFailed i c else c
      | 2 => if i < 288 then coreFailed (i / 4) c else c
      | 3 => if i < 72 then coreFailed i c else c
      | 4 => if i < 576 then coreFailed (i / 8) c else c
      | 6 =>
        if i < 256 then
          let s := i / 32
          let log := getF c (chF R.HBM_CH_MAP.LOGICAL i)
          let serves := getF c (chF R.HBM_CH_MAP.STATE i) == 0
          let c' := onUnit k (fun u => { u with retired := true }) (setF (chF R.HBM_CH_MAP.STATE i) 5 c)
          if !serves then stackCounts s c'
          else match (spareChannels c s).head?, (emptySlots c).head? with
            | some n, _ => stackCounts s (setF (chF R.HBM_CH_MAP.LOGICAL n) log (setF (chF R.HBM_CH_MAP.STATE n) 0 c'))
            | none, some f => stackCounts s (setF (idxF R.MP_FB_SLOT.LOGICAL 4 f) log (setB (idxF R.MP_FB_SLOT.USED 4 f) true c'))
            | none, none => c
        else c
      | 9 => if i < 38 then onUnit k (fun u => { u with retired := true }) (setF (portF R.PORT_STATUS.DOWN_CAUSE i) downRetired (setF (portF R.PORT_STATUS.STATE i) 5 c)) else c
      | 10 => if i < 304 then laserRepairs (i / 8) (i % 8) c else c
      | 11 =>
        let c' := setB (portF R.LPE_STATUS.RETIRED i) true (onUnit k (fun u => { u with retired := true }) c)
        if i < 7 then (if getB c (portF R.LPE_STATUS.ACTIVE i) && !getB c (portF R.LPE_STATUS.RETIRED 6) then lpeSwitch i c' else c') else c
      | 12 => onUnit k (fun u => { u with retired := true }) c
      | _ => c) c

/-! ### Commands -/

/-- HEARTBEAT. -/
def execHeartbeat (s : State) : Host.Outcome State Fault Refusal := runCtl (whenFan heartbeat) s

/-- HEARTBEAT_MISS. -/
def execHeartbeatMiss (s : State) : Host.Outcome State Fault Refusal := runCtl (whenFan heartbeatMiss) s

/-- FW_BEGIN. -/
def execFwBegin (s : State) : Host.Outcome State Fault Refusal := runCtl (whenFw fwBegin) s

/-- FW_DATA. -/
def execFwData (v : Word) (s : State) : Host.Outcome State Fault Refusal := runCtl (whenFw (fwWord v)) s

/-- FW_STAGE. -/
def execFwStage (s : State) : Host.Outcome State Fault Refusal := runCtl (whenFw fwStage) s

/-- FW_STAGE_DONE. -/
def execFwStageDone (s : State) : Host.Outcome State Fault Refusal := runCtl (whenFw fwStageDone) s

/-- FW_UPDATE. -/
def execFwUpdate (s : State) : Host.Outcome State Fault Refusal := runCtl (whenFw fwUpdate) s

/-- FW_SYNC_START. -/
def execFwSyncStart (s : State) : Host.Outcome State Fault Refusal := runCtl (whenFw fwSyncStart) s

/-- FW_SYNC_DONE. -/
def execFwSyncDone (s : State) : Host.Outcome State Fault Refusal := runCtl (whenFw fwSyncDone) s

/-- FW_BOOT. -/
def execFwBoot (s : State) : Host.Outcome State Fault Refusal := runCtl (whenFw fwBoot) s

/-- FW_COMMIT_SECVER. -/
def execFwCommitSecver (s : State) : Host.Outcome State Fault Refusal := runCtl (whenFw fwCommit) s

/-- ATT_GO. -/
def execAttGo (s : State) : Host.Outcome State Fault Refusal := runCtl (whenFw attGo) s

/-- ATT_DONE. -/
def execAttDone (s : State) : Host.Outcome State Fault Refusal := runCtl (whenFw attDone) s

/-- SELF_TEST_DONE. -/
def execSelfTestDone (f : Func) (r : TestResult) (s : State) : Host.Outcome State Fault Refusal := runCtl (selfTestDone f r) s

/-- SELF_TEST_TIMEOUT. -/
def execSelfTestTimeout (f : Func) (s : State) : Host.Outcome State Fault Refusal := runCtl (funcFails f) s

end Sys2Proof.Machine
end

