-- ==== Sys2Proof/Machine/HostPort.lean ====
section
/-! DEFINITION. The host port (R446 to R458): resets, power states, interrupts, the event queue as the host takes it. -/

namespace Sys2Proof.Machine

/-- The host port changed. -/
def onHost (f : HostPort → HostPort) (c : Ctl) : Ctl := { c with host := f c.host }

/-- The host link carries requests: trained, and not in the Loopback state (R446, R473). -/
def hostLink (c : Ctl) : Bool := c.host.linkUp && !c.host.loopback

/-- Requests reach the function: the HOST block works, and the link carries them (R428, R446). -/
def hostReaches (c : Ctl) : Bool := mainReady c 0 && hostLink c

/-- Requests to BAR0 and BAR2 are served: they reach the function, which is in D0 (R428, R448). -/
def hostServes (c : Ctl) : Bool := hostReaches c && !c.host.d3

/-- Data of a completed read go to the host. -/
def hostAnswer (v : Dword) (c : Ctl) : Ctl := onHost (fun h => { h with rsp := h.rsp ++ [.data v] }) c

/-- The bits of the standard's registers that concern an Unsupported Request: its bit in the uncorrectable registers, and that of an advisory error in the correctable ones. -/
def urError : Word := 0x100000
def advisoryError : Word := 0x2000

/-- An Unsupported Request in the registers of AER, with the error message that it sends (R446, R447). PRESUMED (log entry 4): the rules of the PCI Express standard. A read whose error is not fatal is an advisory one, since the host sees its answer. -/
def cfgUnsupported (isRead : Bool) (g : Cfg) : Cfg × Option ErrMsg :=
  let reports (b : Nat) : Bool := g.deviceControl.getLsbD 3 && g.deviceControl.getLsbD b
  let fatal := g.uncSeverity &&& urError != 0
  if isRead && !fatal then
    let g1 := { g with deviceStatus := g.deviceStatus ||| 0x9, corStatus := g.corStatus ||| advisoryError }
    if g.corMask &&& advisoryError != 0 then (g1, none)
    else ({ g1 with uncStatus := g.uncStatus ||| urError }, if reports 0 then some .correctable else none)
  else
    let g1 := { g with deviceStatus := g.deviceStatus ||| (if fatal then 0xC else 0xA), uncStatus := g.uncStatus ||| urError }
    let sends := g.uncMask &&& urError == 0 && (g.command.getLsbD 8 || reports (if fatal then 2 else 1))
    (g1, if sends then some (if fatal then .fatal else .nonFatal) else none)

/-- A request to BAR0 or BAR2 in D3hot is an Unsupported Request, which AER records and reports upstream (R447, R448). -/
def hostUnsupported (isRead : Bool) (c : Ctl) : Ctl :=
  let r := cfgUnsupported isRead c.host.cfg
  onHost (fun h => { h with cfg := r.1, errs := h.errs ++ r.2.toList }) c

/-- A field of PORTHOLE_STATUS is set, which is a cause of vector 19 (R457). -/
def portholeFlag (f : Fld) (c : Ctl) : Ctl := cause 19 (setB f true c)

/-! ### Configuration space (R446, R447) -/

/-- Device ID. -/
def cfgDeviceId : Nat := 0xD101

/-- Class code: processing accelerator. -/
def cfgClassCode : Nat := 0x120000

/-- Vendor ID and revision ID, fused. -/
def cfgVendorId (c : Ctl) : Nat := c.fuses.vendor.toNat
def cfgRevision (c : Ctl) : Nat := c.fuses.stepping.toNat

/-- Bytes of a base address register, both 64-bit and non-prefetchable: BAR0/1 the register space, BAR2/3 the porthole; no other exists. -/
def barBytes (bar : Nat) : Nat := if bar = 0 then 2 ^ 26 else if bar = 2 then 2 ^ 30 else 0

/-- The low word of a base address register as it reads: the base, and the bits that say 64 bits wide, non-prefetchable. -/
def barLow (base : Dword) : Word := base.setWidth 32 ||| 4

/-- What a configuration read finds in the header at byte offset `off`, as far as R446 gives it. -/
def cfgHeader (c : Ctl) (off : Nat) : Word :=
  let g := c.host.cfg
  match off with
  | 0x00 => BitVec.ofNat 32 (cfgVendorId c + cfgDeviceId * 2 ^ 16)
  | 0x04 => BitVec.ofNat 32 (g.command.toNat + 2 ^ 20)
  | 0x08 => BitVec.ofNat 32 (cfgRevision c + cfgClassCode * 2 ^ 8)
  | 0x10 => barLow g.bar0
  | 0x14 => (g.bar0 >>> 32).setWidth 32
  | 0x18 => barLow g.bar2
  | 0x1C => (g.bar2 >>> 32).setWidth 32
  | _ => 0

/-- The capabilities of the function, and no others (R446). -/
inductive Capability where
  | pciExpress
  | powerManagement
  /-- with the number of its vectors -/
  | msix (vectors : Nat)
  | aer
  | flitLogging
  | deviceSerialNumber (serial : Dword)
  deriving DecidableEq, Repr

/-- What the capability list of the function holds. -/
def capabilities (c : Ctl) : List Capability :=
  [.pciExpress, .powerManagement, .msix 64, .aer, .flitLogging, .deviceSerialNumber c.fuses.serial]

/-- A base address register written: word `i` of a 64-bit base of which the low `bytes` are zero. -/
def barWrite (bytes i : Nat) (v : Word) (base : Dword) : Dword :=
  let w := if i = 0 then (base &&& 0xFFFFFFFF00000000) ||| v.setWidth 64 else (base &&& 0xFFFFFFFF) ||| (v.setWidth 64 <<< 32)
  w &&& ~~~ BitVec.ofNat 64 (bytes - 1)

/-- A configuration write (R446, R447). PRESUMED (log entry 4): which bits the standard makes writable, and which are cleared by writing 1. -/
def cfgWrite (w : CfgWrite) (g : Cfg) : Cfg :=
  match w with
  | .command v => { g with command := v &&& 0x0546 }
  | .bar 0 v => { g with bar0 := barWrite (barBytes 0) 0 v g.bar0 }
  | .bar 1 v => { g with bar0 := barWrite (barBytes 0) 1 v g.bar0 }
  | .bar 2 v => { g with bar2 := barWrite (barBytes 2) 0 v g.bar2 }
  | .bar 3 v => { g with bar2 := barWrite (barBytes 2) 1 v g.bar2 }
  | .bar _ _ => g
  | .deviceControl v => { g with deviceControl := v &&& 0x7FFF }
  | .deviceStatus v => { g with deviceStatus := g.deviceStatus &&& ~~~ v }
  | .msix e m => { g with msixEn := e, funcMask := m }
  | .uncStatus v => { g with uncStatus := g.uncStatus &&& ~~~ v }
  | .uncMask v => { g with uncMask := v }
  | .uncSeverity v => { g with uncSeverity := v }
  | .corStatus v => { g with corStatus := g.corStatus &&& ~~~ v }
  | .corMask v => { g with corMask := v }

/-- Configuration space after a reset of the port: the registers of AER are sticky, and only `power`, a fundamental reset, returns them to their reset values (R452; PRESUMED, log entry 4). -/
def cfgReset (power : Bool) (g : Cfg) : Cfg :=
  if power then Cfg.reset
  else { Cfg.reset with uncStatus := g.uncStatus, uncMask := g.uncMask, uncSeverity := g.uncSeverity, corStatus := g.corStatus, corMask := g.corMask }

/-- Most non-posted and posted requests that the port has accepted at once (R450). -/
def readMax : Nat := 32
def writeMax : Nat := 64

/-- The porthole reads under way belong to nobody any more: what they bring is dropped. -/
def dropPortReads (t : Tab Req) : Tab Req :=
  t.map (fun x => match x.2.cont with
    | .portRead _ => (x.1, { x.2 with cont := .none })
    | _ => x)

/-- A reset of the host port alone (R452): configuration space, MSI-X table and pending bits, HOST block registers, event queue; accepted posted writes stay to be performed, reads outstanding are dropped, and so is what the link's credits still hold back (R450). `down` says that the link goes down, `counted` that HOST_LINK.RESETS counts it, which it does of every reset but PERST. -/
def hostReset (down counted : Bool) (c : Ctl) : Ctl :=
  let n := getF c R.HOST_LINK.RESETS
  let c := { c with regs := c.regs.filter (fun x => decide (0x10000 ≤ x.1)) }
  let c := setF R.HOST_LINK.RESETS (if counted then min 0xFFFF (n + 1) else n) c
  let c := { c with reqs := dropPortReads c.reqs }
  onHost (fun h =>
    { h with evq := [], gather := none, cfg := cfgReset (!counted) h.cfg, d3 := false, loopback := h.loopback && !down, linkUp := h.linkUp && !down,
             ops := h.ops.filter (fun o => !o.isRead), backlog := [] }) c

/-- EVT_POP: the oldest record is removed; nothing on an empty queue (R456). -/
def evtPop (c : Ctl) : Ctl := onHost (fun h => { h with evq := h.evq.drop 1 }) c

/-- The oldest record has waited EVT_IRQ.AGE beats: vector 0 (R457, R461). -/
def evtAge (c : Ctl) : Ctl :=
  let age := getF c R.EVT_IRQ.AGE
  match c.host.evq with
  | e :: _ => if 0 < age ∧ e.entered + age ≤ c.ticks then cause 0 c else c
  | [] => c

/-- IRQ_ENABLE written: a vector that it enables and whose status bit is 1 sends one message (R458). -/
def irqEnable (v : Dword) (c : Ctl) : Ctl :=
  let old := getReg c R.IRQ_ENABLE.adr
  let c := maskWrite R.IRQ_ENABLE.adr v c
  let go := getReg c R.IRQ_ENABLE.adr &&& ~~~ old &&& getReg c R.IRQ_STATUS.adr
  forN 20 (fun i c => if go.getLsbD i then msixSend i c else c) c

/-- D3hot entered (R448). -/
def enterD3 (c : Ctl) : Ctl := if hostLink c then onHost (fun h => { h with d3 := true }) c else c

/-- The port returns to D0, and pending messages may be sent. -/
def returnD0 (c : Ctl) : Ctl := if hostLink c then msixRetry (onHost (fun h => { h with d3 := false }) c) else c

/-- A configuration write, after which pending vectors send if they may (R446, R447, R458). -/
def cfgCommand (w : CfgWrite) (c : Ctl) : Ctl := if hostLink c then msixRetry (onHost (fun h => { h with cfg := cfgWrite w h.cfg }) c) else c

/-- The Loopback state entered or left (R473). -/
def hostLoopback (b : Bool) (c : Ctl) : Ctl := if c.host.linkUp then msixRetry (onHost (fun h => { h with loopback := b }) c) else c

/-- The link has trained at a rate and width (R446, R459). -/
def linkTrained (rate width : Nat) (flit : Bool) (c : Ctl) : Ctl :=
  if c.pwr.noPcie then c
  else
    msixRetry (onHost (fun h => { h with linkUp := true })
      (setF R.HOST_LINK.RATE rate (setF R.HOST_LINK.WIDTH width (setB R.HOST_LINK.FLIT flit c))))

/-- D3HOT. -/
def execD3hot (s : State) : Host.Outcome State Fault Refusal := runCtl enterD3 s

/-- RETURN_TO_D0. -/
def execReturnToD0 (s : State) : Host.Outcome State Fault Refusal := runCtl returnD0 s

/-- BUS_MASTER_ENABLE: the table's configuration write, to whichever register of configuration space (R446, R447; log entry 4). -/
def execBusMasterEnable (w : CfgWrite) (s : State) : Host.Outcome State Fault Refusal := runCtl (cfgCommand w) s

/-- PCIE_LOOPBACK. -/
def execPcieLoopback (b : Bool) (s : State) : Host.Outcome State Fault Refusal := runCtl (hostLoopback b) s

/-- HOST_LINK_TRAINED. -/
def execHostLinkTrained (rate width : Nat) (flit : Bool) (s : State) : Host.Outcome State Fault Refusal := runCtl (linkTrained rate width flit) s

/-- EVT_AGE_EXPIRY. -/
def execEvtAgeExpiry (s : State) : Host.Outcome State Fault Refusal := runCtl evtAge s

end Sys2Proof.Machine
end

