-- ==== Sys2Proof/Machine/Tension.lean ====
section
/-! DEFINITION. Tension registers, loopback tester, debug mode, accumulator window, pick trace (R464 to R484). -/

namespace Sys2Proof.Machine

/-! ### Arming (R465, R466) -/

/-- Offsets of the perturbation registers. -/
def tenOffsets : List Nat :=
  (List.range 38).map (fun p => R.TEN_PORT_DELAY.adr + 4 * p) ++
    [R.TEN_CORE_MASK0.adr, R.TEN_CORE_MASK1.adr, R.TEN_SHUTTLE.adr, R.TEN_FLAG.adr, R.TEN_HBM.adr, R.TEN_JITTER.adr, R.TEN_COINCIDE.adr,
      R.TEN_CRC.adr, R.TEN_NAN.adr]

/-- Arming and the perturbation registers take effect (R466); a jitter setting that does so seeds the shift register (R468, R479). -/
def tenTake (c : Ctl) : Ctl :=
  if getB c R.TEN_STATUS.ARMED then
    let t := tenOffsets.foldl (fun t o => Tab.put t o (getReg c o)) ([] : Tab Dword)
    let old := c.ten.bind (fun t => t.look R.TEN_JITTER.adr)
    let seed := getF c R.TEN_JITTER.SEED
    let l := if old == some (getReg c R.TEN_JITTER.adr) then c.lfsr else if seed = 0 then 0xACE1 else seed
    setB R.TEN_STATUS.IN_FORCE true { c with ten := some t, lfsr := l }
  else setB R.TEN_STATUS.IN_FORCE false { c with ten := none }

/-- While RUNNING is 0 a change takes effect at once (R466). -/
def tenAtOnce (c : Ctl) : Ctl := if getB c R.BEAT_STATUS.RUNNING then c else tenTake c

/-- TEN_ARM written (R465). -/
def tenArmWrite (v : Word) (c : Ctl) : Ctl :=
  tenAtOnce
    (if v = 0x54454E31 then { setB R.TEN_STATUS.STAGE true c with tenKey := true }
    else if v = 0x41524D32 ∧ c.tenKey then { setB R.TEN_STATUS.ARMED true c with tenKey := false }
    else { setB R.TEN_STATUS.ARMED false (setB R.TEN_STATUS.STAGE false c) with tenKey := false })

/-- A write to another TENSION register ends a half-done arming (R465). -/
def tenOther (c : Ctl) : Ctl :=
  let c := { c with tenKey := false }
  if getB c R.TEN_STATUS.ARMED then c else setB R.TEN_STATUS.STAGE false c

/-- Whether an offset is a perturbation register. -/
def isPerturbation (off : Nat) : Bool := tenOffsets.contains off

/-- A perturbation register written (R465, R466). -/
def tenRegWrite (off : Nat) (v : Dword) (c : Ctl) : Ctl := tenAtOnce (tenOther (maskWrite off v c))

/-! ### Loopback (R217, R472, R481) -/

/-- Whether the unit that TEN_LB_CTRL selects is in loopback. -/
def loopSelected (c : Ctl) : Bool :=
  let i := getF c R.TEN_LB_CTRL.INDEX
  match getF c R.TEN_LB_CTRL.TYPE with
  | 1 => decide (i < 8) && packageLoop c i
  | 2 => decide (i < 38) && portLoop c i
  | _ => decide (i < stackCount c.fuses.grade) && stackLoop c i

/-- START: a run begins, with nothing counted. -/
def loopStart (c : Ctl) : Ctl :=
  let c := tenOther c
  if loopSelected c then
    forN 8 (fun l c => setF (idxF R.TEN_LB_ERR.ERRORS 8 l) 0 c)
      (setB R.TEN_LB_STATUS.RUNNING true (setB R.TEN_LB_STATUS.LOCKED false (setF R.TEN_LB_STATUS.BITS 0 c)))
  else c

/-- What the checkers found: whether they locked, and the errors of each lane, are free values (log entry 6). -/
def loopFound (c : Ctl) : Ctl :=
  let c := drawn (setB R.TEN_LB_STATUS.LOCKED ((freeValue c).getLsbD 0) (setB R.TEN_LB_STATUS.RUNNING false c))
  forN 8 (fun l c => drawn (setF (idxF R.TEN_LB_ERR.ERRORS 8 l) (freeValue c).toNat c)) c

/-- A run of LENGTH × 2^20 bits for each lane ends; one without a length ends by STOP only (R472). -/
def loopEnd (c : Ctl) : Ctl :=
  let n := getF c R.TEN_LB_CTRL.LENGTH
  if getB c R.TEN_LB_STATUS.RUNNING && decide (0 < n) then loopFound (setF R.TEN_LB_STATUS.BITS (n * 2 ^ 20) c) else c

/-- STOP: the run ends at once; how many bits it checked is a free value. -/
def loopStop (c : Ctl) : Ctl :=
  let c := tenOther c
  if getB c R.TEN_LB_STATUS.RUNNING then loopFound (drawn (setF R.TEN_LB_STATUS.BITS (freeValue c).toNat c)) else c

/-- HBM_TEST written; the setting is ignored while the stack is in service (R217, R224). -/
def hbmTestWrite (s : Nat) (v : Word) (c : Ctl) : Ctl :=
  if stackCount c.fuses.grade ≤ s then c else setF (hbmF R.HBM_TEST.LOOP s) (v.toNat % 4) c

/-- MP_TEST written; the setting of a package in service is ignored (R217, R227). -/
def mpTestWrite (v : Word) (c : Ctl) : Ctl := setF R.MP_TEST.LOOP (v.toNat % 2 ^ 16) c

/-! ### Debug mode (R474, R475) -/

/-- The quiesce bit of physical core p. -/
def quiesceBit (p : Nat) : Fld :=
  if p < 64 then { R.DBG_QUIESCE0.CORES with lo := p, w := 1 } else { R.DBG_QUIESCE1.CORES with lo := p - 64, w := 1 }

/-- Whether no step will open: halted, job ended, or no draft. -/
def noStepComes (c : Ctl) : Bool := getB c R.VOTE_STATE.HALTED || jobEnded c || c.job.isNone

/-- Whether a request to quiesce physical core p is accepted (R474). -/
def quiesceAccepted (c : Ctl) (p : Nat) : Bool := (coreSlot c p).logical.isNone || (!stepOpen c && noStepComes c)

/-- Cores are quiesced and released as their bits say: at a boundary, or at once while RUNNING is 0. -/
def quiesceBoundary (c : Ctl) : Ctl :=
  forN 72 (fun p c =>
    if getB c (quiesceBit p) != quiesced c p then forN 4 (fun e c => setB (engF R.ENG_STATUS.QUIESCED p e) (getB c (quiesceBit p)) c) c else c) c

/-- DBG_QUIESCE0 or, `hi`, DBG_QUIESCE1 written (R474). -/
def quiesceWrite (hi : Bool) (v : Dword) (c : Ctl) : Ctl :=
  let c := forN (if hi then 8 else 64) (fun i c =>
    let p := if hi then 64 + i else i
    if !v.getLsbD i then setB (quiesceBit p) false c
    else if getB c (quiesceBit p) || quiesceAccepted c p then setB (quiesceBit p) true c
    else setB R.DBG_STATUS.QREFUSED true c) c
  if getB c R.BEAT_STATUS.RUNNING then c else quiesceBoundary c

/-- Entries of an engine's accumulators, and double-words of the window (R85). -/
def accEntries : Nat := 131072

/-- Core, engine and index that the window selects. -/
def accSelected (c : Ctl) : Nat × Nat × Nat := (getF c R.DBG_ACC_SEL.CORE, getF c R.DBG_ACC_SEL.ENGINE, getF c R.DBG_ACC_IDX.INDEX)

/-- Whether an access to the window is served (R475). -/
def accOpen (c : Ctl) : Bool :=
  let (p, e, i) := accSelected c
  getB c R.DBG_CTRL.MODE && decide (p < 72) && quiesced c p && engPresent c p e && decide (i < accEntries + 8)

/-- DBG_ACC_DATA as it reads: the entry, or the status word (R85, R475). -/
def accWindow (c : Ctl) : Dword :=
  let (p, e, i) := accSelected c
  if !accOpen c then 0
  else if i < accEntries then BitVec.ofNat 64 (accAt c p e (i / 16384) (i / 128 % 128) (i % 128))
  else BitVec.ofNat 64 (getF c (tileStatus p e (i - accEntries)))

/-- What follows an access to the window: a refusal shows in DBG_STATUS, and INDEX advances with AUTOINC. -/
def accAfter (served : Bool) (c : Ctl) : Ctl :=
  let c := if served then c else setB R.DBG_STATUS.WIN_REFUSED true c
  if getB c R.DBG_ACC_SEL.AUTOINC then incF R.DBG_ACC_IDX.INDEX 1 c else c

/-- DBG_ACC_DATA written: DATA[47:0] to an entry, DATA[8:0] without the reserved bits to a status word (R475). DESIGN CHOICE (log entry 171): flags of a status word that is written as a whole are not ORed into ENG_STATUS.FLAGS_SEEN. -/
def accWrite (v : Dword) (c : Ctl) : Ctl :=
  let (p, e, i) := accSelected c
  accAfter (accOpen c)
    (if !accOpen c then c
    else if i < accEntries then setAcc p e (i / 16384) (i / 128 % 128) (i % 128) (v.toNat % 2 ^ 48) c
    else setF (tileStatus p e (i - accEntries)) (v &&& 0x13F).toNat c)

/-! ### The pick trace (R476, R484) -/

/-- The oldest buffered entry goes to the ring, or is dropped and counted when it would overtake TAIL. -/
def traceWrite (d : Dev) : Dev :=
  match d.c.trace with
  | [] => d
  | e :: es =>
    let size := getF d.c R.DBG_TRACE_SIZE.ENTRIES
    let head := getF d.c R.DBG_TRACE_HEAD.HEAD
    let d := onCtl (fun c => { c with trace := es }) d
    if size == 0 || ringFree size head (getF d.c R.DBG_TRACE_TAIL.TAIL) == 0 then onCtl (satF R.DBG_TRACE_DROPS.COUNT 1) d
    else
      let d := (writeUnit (getF d.c R.DBG_TRACE_BASE.BASE * 16 + 16 * head) (leBytes 8 e.dw0.toNat ++ leBytes 8 e.dw1.toNat) .nobody d).1
      onCtl (setF R.DBG_TRACE_HEAD.HEAD ((head + 1) % size)) d

/-- DBG_TRACE_SIZE written: the ring size, and HEAD 0. -/
def traceSizeWrite (v : Word) (c : Ctl) : Ctl := setF R.DBG_TRACE_HEAD.HEAD 0 (setF R.DBG_TRACE_SIZE.ENTRIES v.toNat c)

/-! ### The commands -/

/-- TEN_ARM. -/
def execTenArm (v : Word) (s : State) : Host.Outcome State Fault Refusal := runCtl (tenArmWrite v) s

/-- TENSION_REG_WRITE, with the test of R9; an offset that is no perturbation register is left alone. -/
def execTensionRegWrite (off width : Nat) (v : Dword) (s : State) : Host.Outcome State Fault Refusal :=
  runCtl (fun c => if !regTest off width then regTestFailed off c else if isPerturbation off then tenRegWrite off v c else c) s

/-- TEN_LB_START. -/
def execTenLbStart (s : State) : Host.Outcome State Fault Refusal := runCtl loopStart s

/-- TEN_LB_STOP. -/
def execTenLbStop (s : State) : Host.Outcome State Fault Refusal := runCtl loopStop s

/-- LOOPBACK_RUN_END. -/
def execLoopbackRunEnd (s : State) : Host.Outcome State Fault Refusal := runCtl loopEnd s

/-- DBG_QUIESCE_WRITE. -/
def execDbgQuiesceWrite (hi : Bool) (v : Dword) (s : State) : Host.Outcome State Fault Refusal := runCtl (quiesceWrite hi v) s

/-- DBG_ACC_WRITE. -/
def execDbgAccWrite (v : Dword) (s : State) : Host.Outcome State Fault Refusal := runCtl (accWrite v) s

/-- DBG_TRACE_WRITE. -/
def execDbgTraceWrite (s : State) : Host.Outcome State Fault Refusal := runDev traceWrite s

/-- DBG_TRACE_SIZE_WRITE. -/
def execDbgTraceSizeWrite (v : Word) (s : State) : Host.Outcome State Fault Refusal := runCtl (traceSizeWrite v) s

end Sys2Proof.Machine
end

