-- ==== Sys2Proof/Machine/RegSpace.lean ====
section
/-! DEFINITION. The register space (R463): its blocks, what every register reads as, and what a write to any of them does (R3, R9, R428). -/

namespace Sys2Proof.Machine

/-! ### Blocks -/

/-- The blocks of the register space. -/
inductive Block where
  | host | draft | ready | beat | step | fantail | governor | tension | check
  | sluice | core (p : Nat) | hbm (s : Nat) | millpond | port (p : Nat) | lpe (e : Nat) | selvedge | debug
  deriving DecidableEq, Repr

/-- The block in which an offset lies; none outside every block (R463). -/
def blockAt (off : Nat) : Option Block :=
  if off < 0x10000 then some .host
  else if off < 0x20000 then some .draft
  else if off < 0x30000 then some .ready
  else if off < 0x40000 then some .beat
  else if off < 0x50000 then some .step
  else if off < 0x60000 then some .fantail
  else if off < 0x70000 then some .governor
  else if off < 0x80000 then some .tension
  else if off < 0x90000 then some .check
  else if 0x100000 ≤ off ∧ off < 0x110000 then some .sluice
  else if 0x1000000 ≤ off ∧ off < 0x1480000 then some (.core ((off - 0x1000000) / 0x10000))
  else if 0x2000000 ≤ off ∧ off < 0x2200000 then some (.hbm ((off - 0x2000000) / 0x40000))
  else if 0x2400000 ≤ off ∧ off < 0x2410000 then some .millpond
  else if 0x2800000 ≤ off ∧ off < 0x2A60000 then some (.port ((off - 0x2800000) / 0x10000))
  else if 0x2C00000 ≤ off ∧ off < 0x2C70000 then some (.lpe ((off - 0x2C00000) / 0x10000))
  else if 0x3000000 ≤ off ∧ off < 0x3010000 then some .selvedge
  else if 0x3800000 ≤ off ∧ off < 0x3810000 then some .debug
  else none

/-- The general check-value unit whose registers an offset of the CHECK block belongs to. -/
def cvUnitAt (off : Nat) : Option Nat :=
  if 0x88000 ≤ off ∧ off < 0x89000 then some ((off - 0x88000) / 0x100) else none

/-- Whether a write reaches the block of an offset: the function's READY bit is 1, or it has none (R3, R428); the registers of an engine, that it is in service (R152). HBM_TEST is reached while its stack is out of service, which is when it may be written (R217). -/
def writesReach (c : Ctl) (off : Nat) : Block → Bool
  | .host | .ready => mainReady c 0
  | .draft => mainReady c 1 || mainReady c 2
  | .beat => mainReady c 4
  | .fantail => mainReady c 7
  | .governor => mainReady c 6
  | .sluice => mainReady c 8
  | .core p =>
    let r := off % 0x10000
    coreReady c p && (!(decide (0x8000 ≤ r) && decide (r < 0xC000)) || engPresent c p ((r - 0x8000) / 0x1000))
  | .hbm s => mainReady c (16 + s) || (off % 0x40000 == 8 && decide (s < stackCount c.fuses.grade))
  | .port p => portReady c p
  | .lpe e => mainReady c (32 + e)
  | .selvedge => mainReady c 9
  | .check => match cvUnitAt off with
    | some u => mainReady c (48 + u)
    | none => true
  | .step | .tension | .millpond | .debug => true

/-- Whether a block answers reads: as for writes. The block of a retired unit reads as zero (R3, R152, R428), but for the register of a port or link protocol engine that says that it is retired (R390; log entry 121). -/
def readsReach (c : Ctl) (off : Nat) (b : Block) : Bool :=
  writesReach c off b || match b with
    | .port p => getF c (portF R.PORT_STATUS.STATE p) == 5 && off % 0x10000 == 0
    | .lpe e => getB c (portF R.LPE_STATUS.RETIRED e) && off == (portF R.LPE_STATUS.RETIRED e).off
    | .hbm s => stackLoop c s && (off % 0x40000 == 0 || off % 0x40000 == 8)
    | _ => false

/-! ### What registers read as -/

/-- The oldest event record, or zero (R456). -/
def evtOldest (c : Ctl) (f : Event → Dword) : Dword := match c.host.evq with
  | e :: _ => f e
  | [] => 0

/-- HOST_ID (R459). -/
def hostId (c : Ctl) : Nat :=
  cfgVendorId c + cfgDeviceId * 2 ^ 16 + gradeCode c.fuses.grade * 2 ^ 32 + 2 ^ 36 + cfgRevision c * 2 ^ 40

/-- PORTHOLE_STATUS with BUSY and POSTED (R196). -/
def portholeStatus (c : Ctl) : Dword :=
  fldPut (fldPut (getReg c R.PORTHOLE_STATUS.adr) R.PORTHOLE_STATUS.BUSY (bit (c.host.ops.any (fun o => !o.bar0)))) R.PORTHOLE_STATUS.POSTED
    (min 63 (c.host.ops.filter (fun o => !o.bar0 && !o.isRead)).length)

/-- SEL_STATUS (R272). -/
def selStatus (c : Ctl) : Nat :=
  (c.peers.filter (fun x => x.2.state == 2)).length + bit (c.peers.any (fun x => x.2.active)) * 2 ^ 24 + bit c.job.isSome * 2 ^ 25

/-- SEL_PEER of the peer selected (R273). -/
def selPeerWord (c : Ctl) : Nat :=
  let n := selPeer c
  if c.place.me = some n then 5 + c.place.selfBeat % 2 ^ 32 * 2 ^ 32
  else match c.peers.look n with
    | some p => p.state + (if p.state = 2 then p.level * 2 ^ 3 else 0) + (if p.state = 3 then p.reason * 2 ^ 7 + p.qport * 2 ^ 16 else 0) + p.beat % 2 ^ 32 * 2 ^ 32
    | none => 0

/-- PLACE_SEAT of the seat selected (R311). -/
def placeSeat (c : Ctl) : Nat :=
  let s := getF c R.PLACE_SEAT_SEL.SEAT
  match c.job with
  | some j =>
    if !isSeat c s then 0
    else
      let held := holderOf j.weave s * 2 ^ 32
      match c.place.serving.look s with
      | some d => d + 2 ^ 16 + servingGroup c s % 2 ^ 12 * 2 ^ 20 + held
      | none => held
  | none => 0

/-- PLACE_SHARD of the shard selected (R312). -/
def placeShard (c : Ctl) : Nat :=
  let k := getF c R.PLACE_SHARD_SEL.SHARD
  match c.job with
  | some j => match (shardHomes j.weave)[k]? with
    | some x => x.1 + (shardOffsets j.weave k).1 % 2 ^ 22 * 2 ^ 16 + (shardOffsets j.weave k).2 % 2 ^ 22 * 2 ^ 38
    | none => 0
  | none => 0

/-- GROUP_INFO of the group selected (R313). -/
def groupInfo (c : Ctl) : Nat :=
  match groupSeats c (getF c R.GROUP_SEL.GROUP) with
  | some l => l.length + (match (mySeat c).bind (rankOf l) with
    | some r => 2 ^ 17 + r * 2 ^ 18
    | none => 0)
  | none => 0

/-- TB_TREE (R278). -/
def tbTree (c : Ctl) : Nat :=
  match myPos c with
  | some i =>
    (treeParent c).getD 0 + bit (isRoot c) * 2 ^ 16 + posDepth i % 4 * 2 ^ 17 + treeDepth (liveMembers c).length % 4 * 2 ^ 19 +
      (treeChildren c).length % 128 * 2 ^ 24
  | none => 0

/-- The accumulators of an engine's columns, by its source, together; 0 for any other unit (R454). -/
def columnsAcc (c : Ctl) (src : Nat) : Nat :=
  if src / 4096 = 2 then ((c.fan.units.filter (fun e => decide (0x10000 ≤ e.1) && keySource e.1 == src)).map (·.2.acc)).sum else 0

/-- FAN_UNIT of the source selected: an engine's accumulator with those of its columns added, and the score that this gives (R385, R407, R454). -/
def fanUnitWord (c : Ctl) : Nat :=
  let k := getF c R.FAN_UNIT_SEL.SOURCE
  let u0 := fanUnit c k
  let u := { u0 with acc := min 0xFFFF (u0.acc + columnsAcc c k) }
  u.acc % 2 ^ 16 + unitScore u % 2 ^ 8 * 2 ^ 16 + bit u.retired * 2 ^ 24 + bit u.cond * 2 ^ 25 + u.condBand % 8 * 2 ^ 26 + u.condLoad % 8 * 2 ^ 29 +
    u.findings % 2 ^ 32 * 2 ^ 32

/-- SEQ_CFG of physical core p (R159). -/
def seqCfg (c : Ctl) (p : Nat) : Nat :=
  let s := coreSlot c p
  s.logical.getD 0 + bit s.logical.isSome * 2 ^ 6 + s.engines.toNat * 2 ^ 8 +
    ((List.range 72).filter (fun q => (coreSlot c q).logical.isSome)).length * 2 ^ 16

/-- The attestation report's double-word selected (R443). -/
def attData (c : Ctl) : Nat := leNat ((c.att.report.drop (8 * getF c R.ATT_SEL.INDEX)).take 8)

/-- Whether HBM stack s serves logical channels (R224). -/
def stackServes (c : Ctl) (s : Nat) : Bool := (List.range 32).any (fun i => getF c (chF R.HBM_CH_MAP.STATE (32 * s + i)) == 0)

/-- A pick runs on engine e of physical core p, a known-answer pick among them (R89, R387). -/
def engBusy (c : Ctl) (p e : Nat) : Bool := !(trAt c p e).runs.isEmpty || c.fan.kapRuns.contains (p, e)

/-- A register of a core block as it reads: SEQ_CFG, TR_STATE.FAILED and ENG_STATUS.BUSY are made as they are read. -/
def readCore (c : Ctl) (p r off : Nat) : Dword :=
  let w := getReg c off
  if r = 0 then BitVec.ofNat 64 (seqCfg c p)
  else if 0x100 ≤ r ∧ r < 0x280 ∧ r % 0x40 = 0 then fldPut w R.TR_STATE.FAILED (bit c.step.failed)
  else if 0x8000 ≤ r ∧ r < 0xC000 ∧ r % 0x1000 = 0x10 then fldPut w R.ENG_STATUS.BUSY (bit (engBusy c p ((r - 0x8000) / 0x1000)))
  else w

/-- A register that exists and answers, as it reads. -/
def readWord (c : Ctl) (off : Nat) : Block → Dword
  | .host =>
    if off = R.HOST_ID.adr then BitVec.ofNat 64 (hostId c)
    else if off = R.HOST_SERIAL.adr then c.fuses.serial
    else if off = R.EVT_REC0.adr then evtOldest c (·.dw0)
    else if off = R.EVT_REC1.adr then evtOldest c (·.dw1)
    else if off = R.EVT_STATUS.adr then fldPut (getReg c off) R.EVT_STATUS.COUNT c.host.evq.length
    else if off = R.PORTHOLE_STATUS.adr then portholeStatus c
    else getReg c off
  | .draft =>
    if off = R.FW_STATUS.adr then fldPut (fldPut (getReg c off) R.FW_STATUS.MIN_SECVER c.fuses.minSecver) R.FW_STATUS.KEY_REVOKED c.fuses.keyRevoked
    else if off = R.ATT_DATA.adr then BitVec.ofNat 64 (attData c)
    else getReg c off
  | .beat => if off = R.TB_TREE.adr then BitVec.ofNat 64 (tbTree c) else getReg c off
  | .step =>
    if off = R.VOTE_STATE.adr then fldPut (getReg c off) R.VOTE_STATE.STEP_TRAILER (stepTrailer c).toNat
    else if off = R.PLACE_SEAT.adr then BitVec.ofNat 64 (placeSeat c)
    else if off = R.PLACE_SHARD.adr then BitVec.ofNat 64 (placeShard c)
    else if off = R.GROUP_INFO.adr then BitVec.ofNat 64 (groupInfo c)
    else getReg c off
  | .fantail =>
    if off = R.FAN_STATUS.adr then
      fldPut (fldPut (getReg c off) R.FAN_STATUS.SCORE (healthScore c)) R.FAN_STATUS.SPARES_FREE (min 255 (sparesFree c))
    else if off = R.FAN_LOG.adr then BitVec.ofNat 64 (c.fan.log.getD (getF c R.FAN_LOG_SEL.ENTRY) 0)
    else if off = R.FAN_UNIT.adr then BitVec.ofNat 64 (fanUnitWord c)
    else getReg c off
  | .governor =>
    if off = R.GOV_STATUS.adr then fldPut (getReg c off) R.GOV_STATUS.COLD_COUNT (coldCount c)
    else if off = R.GOV_REC_DATA.adr then BitVec.ofNat 64 (recSelected c)
    else getReg c off
  | .check => match cvUnitAt off with
    | some u => if off % 0x100 = 0x28 then BitVec.ofNat 64 (cvResult c u) else getReg c off
    | none => getReg c off
  | .core p => readCore c p (off % 0x10000) off
  | .hbm s =>
    if off % 0x40000 = 0 then
      fldPut (fldPut (getReg c off) R.HBM_STATUS.IN_SERVICE (bit (mainReady c (16 + s) && stackServes c s))) R.HBM_STATUS.LOOPBACK (bit (stackLoop c s))
    else getReg c off
  | .port p => if off % 0x10000 = 0 ∧ portLoop c p then fldPut (getReg c off) R.PORT_STATUS.STATE 6 else getReg c off
  | .selvedge =>
    if off = R.SEL_STATUS.adr then BitVec.ofNat 64 (selStatus c)
    else if off = R.SEL_PEER.adr then BitVec.ofNat 64 (selPeerWord c)
    else if off = R.SEL_FLOWS.adr then fldPut (getReg c off) R.SEL_FLOWS.IN_USE c.flows.length
    else getReg c off
  | .debug => if off = R.DBG_ACC_DATA.adr then accWindow c else getReg c off
  | .ready | .tension | .sluice | .millpond | .lpe _ => getReg c off

/-- Whether an offset names a register. -/
def namesRegister (off : Nat) : Bool := msixArea off || regCovered off

/-- Whether an access of a width goes to a FAN_TEMP register: one of 4 bytes in its range, but for FAN_HEAT_CFG, whose offset FAN_TEMP_64 shares (R410, R411; log entry 119). -/
def isFanTemp (off width : Nat) : Bool :=
  width == 4 && decide (R.FAN_TEMP.adr ≤ off) && decide (off < R.FAN_TEMP.adr + 416) && off != R.FAN_HEAT_CFG.adr

/-- FAN_TEMP_i (R410). -/
def fanTempWord (c : Ctl) (off : Nat) : Dword :=
  let t := c.fan.temps.getD ((off - R.FAN_TEMP.adr) / 4) (0, 0)
  fldPut (fldPut 0 R.FAN_TEMP.TEMP t.1) R.FAN_TEMP.MAX t.2

/-- A read of `width` bytes in the register space, with whether the offset lies in a block (R9, R171, R463). -/
def readReg (c : Ctl) (off width : Nat) : Dword × Bool :=
  if !regTest off width then (0, true)
  else match blockAt off with
    | none => (0, false)
    | some b =>
      if readsReach c off b && namesRegister off then
        if msixArea off && width == 8 && decide (off < 0x2000) then ((getReg c off &&& 0xFFFFFFFF) ||| (getReg c (off + 4) <<< 32), true)
        else if msixArea off && width == 4 && decide (0x2000 ≤ off) then ((getReg c 0x2000 >>> (8 * (off - 0x2000))) &&& 0xFFFFFFFF, true)
        else if isFanTemp off width then (fanTempWord c off, true)
        else (readWord c off b, true)
      else (0, true)

/-- What a read that reaches its register leaves behind: the two windows advance with AUTOINC, and a refused access to the accumulator window shows (R122, R475, R483). No other read has a side effect (R451; log entry 12). -/
def readEffect (off : Nat) (c : Ctl) : Ctl :=
  if off = R.GOV_REC_DATA.adr then recAdvance c
  else if off = R.DBG_ACC_DATA.adr then accAfter (accOpen c) c
  else c

/-- A read as an access of a master: what it reads, whether it lies in a block, and what it leaves behind. -/
def readAccess (off width : Nat) (c : Ctl) : Dword × Bool × Ctl :=
  let r := readReg c off width
  let reached := regTest off width && ((blockAt off).any (readsReach c off))
  (r.1, r.2, if reached then readEffect off c else c)

/-! ### What writes do -/

/-- `f` if bit b of a value is 1. -/
def onBit (v : Dword) (b : Nat) (f : Dev → Dev) (d : Dev) : Dev := if v.getLsbD b then f d else d

/-- A word of the MSI-X table written; unmasking sends what is pending (R458). The pending bits are read only. -/
def msixWrite (off width : Nat) (v : Dword) (c : Ctl) : Ctl :=
  if 0x2000 ≤ off then c
  else
    let c := setReg off (v &&& 0xFFFFFFFF) c
    msixRetry (if width = 8 then setReg (off + 4) (v >>> 32) c else c)

/-- A register of a core block written. -/
def writeCoreReg (p r off : Nat) (v : Dword) (c : Ctl) : Ctl :=
  if 0x400 ≤ r ∧ r < 0x480 then cntWrite p ((r - 0x400) / 4) (v.setWidth 32) c
  else if r = 0x508 then setLocal p v c
  else if r = 0x510 then clearLocal p v c
  else maskWrite off v c

/-- A register of a check-value unit written. -/
def writeCv (u r off : Nat) (v : Dword) (c : Ctl) : Ctl :=
  if r = 0x00 then cvCfg u (v.setWidth 32) c
  else if r = 0x10 then cvData u 1 (v.setWidth 32) c
  else if r = 0x14 then cvData u 2 (v.setWidth 32) c
  else if r = 0x18 then cvData u 4 (v.setWidth 32) c
  else if r = 0x20 then cvState u v c
  else if r = 0x30 then cvExpect u v c
  else maskWrite off v c

/-- A register that exists and is reached, written. -/
def writeWord (off width : Nat) (v : Dword) (b : Block) (d : Dev) : Dev :=
  let plain := onCtl (maskWrite off v)
  match b with
  | .host =>
    if msixArea off then onCtl (msixWrite off width v) d
    else if off = R.EVT_POP.adr then onBit v 0 (onCtl evtPop) d
    else if off = R.EVT_IRQ.adr then onCtl (fun c => evtAge (evtLevel (maskWrite off v c))) d
    else if off = R.IRQ_ENABLE.adr then onCtl (irqEnable v) d
    else plain d
  | .draft =>
    let alive (f : Ctl → Ctl) (d : Dev) : Dev := onCtl (whenAlive f) d
    if off = R.DRAFT_CTRL.adr then onBit v 2 (onCtl draftAbort) (onBit v 1 draftPull (onBit v 0 (onCtl draftBegin) d))
    else if off = R.DRAFT_DATA.adr then onCtl (draftWord (v.setWidth 32)) d
    else if off = R.DRAFT_START_AT.adr then onCtl (fun c => maskWrite off v { c with draft := { c.draft with startDone := false } }) d
    else if R.DRAFT_PIN.adr ≤ off ∧ off < R.DRAFT_PIN.adr + 32 then (if getB d.c R.DRAFT_PIN_CTRL.LOCK then d else plain d)
    else if off = R.DRAFT_PIN_CTRL.adr then onCtl (pinWrite (v.setWidth 32)) d
    else if off = R.FW_CTRL.adr then
      onBit v 4 (alive fwCommit) (onBit v 3 (alive fwBoot) (onBit v 2 (alive fwUpdate) (onBit v 1 (alive fwStage) (onBit v 0 (alive fwBegin) d))))
    else if off = R.FW_DATA.adr then alive (fwWord (v.setWidth 32)) d
    else if off = R.ATT_CTRL.adr then onBit v 0 (alive attGo) d
    else plain d
  | .beat => if off = R.BEAT_STRETCH.adr then onCtl (stretchWrite (v.setWidth 32)) d else plain d
  | .step =>
    if off = R.VOTE_CFG.adr then onCtl (voteCfg (v.setWidth 32)) d
    else if off = R.REC_CTRL.adr then onBit v 0 (onCtl recArm) d
    else plain d
  | .fantail =>
    if off = R.FAN_CFG.adr then onCtl (fun c => maskWrite off v (fanCfgHold c)) d
    else if off = R.FAN_CTRL.adr then onBit v 2 (onCtl fanClear) (onBit v 1 (onCtl fanRetire) (onBit v 0 (onCtl fanUnderate) d)) else plain d
  | .governor =>
    if off = R.GOV_REC_DATA.adr then onCtl (recDataWrite (v.setWidth 32)) d
    else if off = R.GOV_TEL_SIZE.adr then onCtl (telSizeWrite (v.setWidth 32)) d
    else plain d
  | .tension =>
    if off = R.TEN_ARM.adr then onCtl (tenArmWrite (v.setWidth 32)) d
    else if isPerturbation off then onCtl (tenRegWrite off v) d
    else if off = R.TEN_LB_CTRL.adr then onBit v 11 (onCtl loopStop) (onBit v 10 (onCtl loopStart) (onCtl (fun c => tenOther (maskWrite off v c)) d))
    else onCtl (fun c => tenOther (maskWrite off v c)) d
  | .check => match cvUnitAt off with
    | some u => onCtl (writeCv u (off % 0x100) off v) d
    | none => plain d
  | .sluice =>
    if off = R.SLU_CTRL.adr then onBit v 0 (onCtl rekeyRequest) (plain d)
    else if off = R.RST_CTRL.adr then onBit v 0 rstGo d
    else plain d
  | .core p => onCtl (writeCoreReg p (off % 0x10000) off v) d
  | .hbm s => if off % 0x40000 = 8 then onCtl (hbmTestWrite s (v.setWidth 32)) d else plain d
  | .millpond => if off = R.MP_TEST.adr then onCtl (mpTestWrite (v.setWidth 32)) d else plain d
  | .port p =>
    if off % 0x10000 = 4 then onBit v 1 (onCtl (portTakeDown p)) (onBit v 0 (onCtl (portRestart p)) (plain d)) else plain d
  | .selvedge =>
    if off = R.SEL_PEER_CTRL.adr then onBit v 1 (onCtl retryPeer) (onBit v 0 (onCtl clearQuar) d) else plain d
  | .debug =>
    if off = R.DBG_QUIESCE0.adr then onCtl (quiesceWrite false v) d
    else if off = R.DBG_QUIESCE1.adr then onCtl (quiesceWrite true v) d
    else if off = R.DBG_ACC_DATA.adr then onCtl (accWrite v) d
    else if off = R.DBG_TRACE_SIZE.adr then onCtl (traceSizeWrite (v.setWidth 32)) d
    else plain d
  | .ready | .lpe _ => plain d

/-- A write of `width` bytes in the register space, with whether the offset lies in a block (R9, R171, R463). -/
def writeReg (off width : Nat) (v : Dword) (d : Dev) : Dev × Bool :=
  if !regTest off width then (onCtl (regTestFailed off) d, true)
  else match blockAt off with
    | none => (d, false)
    | some b => (if writesReach d.c off b && namesRegister off && !isFanTemp off width then writeWord off width v b d else d, true)

end Sys2Proof.Machine
end

