-- ==== Sys2Proof/Machine/Vector.lean ====
section
/-! DEFINITION. The vector unit: loads and stores (R55, R131), VMAP and VRED (R132, R133), the range check (R320), amax delivery (R107), and the weight update VUPD with its digest, working copies and ratio (R110 to R115, R297, R324). -/

namespace Sys2Proof.Machine

/-! ### Rows (R131, R135) -/

/-- An input operand of a row loaded into F32 codes: a pitch of 0 broadcasts one element (R55, R131). -/
def loadRow (m : Store) (c : Ctl) (p : Nat) (img : List Word) (o : Nat) (a n : Nat) : List Nat :=
  let f := imgFmt img o
  let fmt := (fmtOfCode f).getD .f32
  let e := readScale c f (imgTid img o)
  (List.range n).map (fun k =>
    loadF32 fmt (imgSat img) e (elemAt (pickByte m c p 4) (codeBits f) a (if imgPitch img o = 0 then 0 else k)))

/-- One F32 result stored in a format under a record's SCALE: counted, measured, reported (R49 to R53, R99 to R101). -/
def storeCode (f id : Nat) (sat measure : Bool) (y : Nat) (c : Ctl) : Ctl × Nat :=
  let v := f32 y
  let x := narrow ((fmtOfCode f).getD .f32) sat (numScale (writeScale c f id) v)
  (countOut f id measure v x c, x.code)

/-- Results stored in order. -/
def storeCodes (f id : Nat) (sat measure : Bool) (ys : List Nat) (c : Ctl) : Ctl × List Nat :=
  ys.foldl (fun (acc : Ctl × List Nat) y =>
    let x := storeCode f id sat measure y acc.1
    (x.1, acc.2 ++ [x.2])) (c, [])

/-! ### The range check (R320) -/

/-- Whether a result fails: finite, and below RANGE_LO or above RANGE_HI; a NaN bound disables its side (R320). -/
def outOfRange (img : List Word) (y : Nat) : Bool :=
  let v := f32 y
  numFinite v && (numLt v (f32 (imgW img 6)) || numLt (f32 (imgW img 7)) v)

/-- A failed element: counted; the first of the beat on its core is recorded and raised (R318, R320, R347). -/
def rangeFail (p t idx q j : Nat) (c : Ctl) : Ctl :=
  let l := logCore c p
  let c := satF R.CHK_CNT1.RANGE_FAILS 1 c
  if c.step.ranged.contains l then c
  else
    let c := { c with step := { c.step with ranged := l :: c.step.ranged } }
    let c := checkFail { cause := 0x03, step := getF c R.STEP_NOW.STEP, lcore := l, unit := t, pick := idx, detail := j,
                         source := srcVector p, row := q } c
    raise evArith 0x03 (srcVector p) (j % 65536 + q % 2 ^ 32 * 2 ^ 16) c

/-- The results of a row tested in order (R320). -/
def rangeCheck (p t : Nat) (r : Running) (q : Nat) (ys : List Nat) (c : Ctl) : Ctl :=
  if !imgCkRange r.image then c
  else (List.range ys.length).foldl (fun c j => if outOfRange r.image (ys.getD j 0) then rangeFail p t r.idx q j c else c) c

/-! ### VMAP and VRED -/

/-- Row results to the O address of the iteration: checked, stored, written; answers the codes written (R131, R320). -/
def emitRow (p t : Nat) (r : Running) (q a : Nat) (ys : List Nat) (d : Dev) : Dev × List Nat :=
  let img := r.image
  let x := storeCodes (imgFmt img 2) (imgTid img 2) (imgSat img) (imgMeasure img) ys (rangeCheck p t r q ys d.c)
  if ys.isEmpty then ({ d with c := x.1 }, [])
  else (writeRow p t (codeBits (imgFmt img 2)) a x.2 { d with c := x.1 }, x.2)

/-- The magnitude of the last output written is delivered to SHARED_AMAX of O's record (R107, R133): the value its code represents. DESIGN CHOICE (log entry 57): one beyond the F32 range is delivered as +∞, whatever OUT_SATCONV is, since R50 names no conversion for it. -/
def deliverAmax (img : List Word) (code : Nat) (c : Ctl) : Ctl :=
  let f := imgFmt img 2
  let id := imgTid img 2
  let v := numScale (-(writeScale c f id)) (fmtDecode ((fmtOfCode f).getD .f32) code)
  updRec id (fun r => { r with sharedAmax := toF32 (numAbs v), sharedWr := true }) c

/-- One row of VMAP or VRED: the codes it writes. -/
def vectorRow (p t : Nat) (r : Running) (it : Nat × Nat × Nat × Nat × Nat) (d : Dev) : Dev × List Nat :=
  let img := r.image
  let addr (o : Nat) : Nat := coreAddr img o it.2.1 it.2.2.1 it.2.2.2.1 it.2.2.2.2
  let n := imgVlen img
  let ins (o : Nat) : List Nat := loadRow d.m d.c p img o (addr o) n
  let a := ins 0
  let ys :=
    if imgOp img = 0x21 then [a.foldl (vredStep (imgFunc img)) (vredStart (imgFunc img))]
    else
      let used := vmapInputs (imgFunc img)
      let b := if used.contains 1 then ins 1 else []
      let x := if used.contains 3 then ins 3 else []
      (List.range n).map (fun k => vmapF32 (imgFunc img) (a.getD k 0) (b.getD k 0) (x.getD k 0))
  emitRow p t r it.1 (addr 2) ys d

/-- The rows of a VMAP or VRED pick of opcode op, then amax delivery (R131 to R133). -/
def vectorWork (op p : Nat) (d : Dev) : Dev :=
  match curRun d.c p 4 op with
  | none => d
  | some r =>
    let x := (runRows r).foldl (fun (acc : Dev × List Nat) it =>
      let y := vectorRow p 4 r it acc.1
      (y.1, if y.2.isEmpty then acc.2 else y.2)) (onCtl drawn d, [])
    let d := match x.2.getLast? with
      | some code => if imgAmax r.image then onCtl (deliverAmax r.image code) x.1 else x.1
      | none => x.1
    onCtl (workDone p 4) d

/-! ### Local addresses of VUPD (R131, R324) -/

/-- Bytes [a, a + n) cut at the boundaries of 256 bytes (R171). -/
def cutUnits : Nat → Nat → Nat → List (Nat × Nat)
  | 0, _, _ => []
  | fuel + 1, a, n =>
    if n = 0 then []
    else
      let k := min n (256 - a % 256)
      (a, k) :: cutUnits fuel (a + k) (n - k)

/-- The units of an access. -/
def unitsOf (a n : Nat) : List (Nat × Nat) := cutUnits (n / 256 + 2) a n

/-- Whether operand o of a VUPD lies in the own core store rather than in HBM (R131). -/
def destOwn (c : Ctl) (p : Nat) (img : List Word) (o : Nat) : Bool :=
  let a := imgBase img o % 2 ^ 48
  decide (ownBase c p ≤ a) && decide (a < ownBase c p + coreBytes)

/-- Offset in the own core store of a local address; beyond the store it is an address past its end. -/
def ownOff (c : Ctl) (p a : Nat) : Nat := (a + 2 ^ 64 - ownBase c p) % 2 ^ 64

/-- n bytes read at a local address, unit by unit; the flag says that an absent unit ended the read (R151, R171). -/
def readLocal (p : Nat) (own : Bool) (a n : Nat) (d : Dev) : List Byte × Bool × Dev :=
  if own then ((List.range n).map (fun i => pickByte d.m d.c p 4 (ownOff d.c p a + i)), false, d)
  else
    (unitsOf a n).foldl (fun (acc : List Byte × Bool × Dev) u =>
      if acc.2.1 then acc
      else
        let x := readUnit acc.2.2.m u.1 u.2 acc.2.2.c
        (acc.1 ++ mixRead d.c p 4 u.1 x.1, x.2.1 == .unmapped, { acc.2.2 with c := x.2.2 })) ([], false, d)

/-- The words of the shard image under n bytes at image offset o, old and new, folded into the running digest; an uncorrectable old word reads as zero (R199, R324). -/
def foldDigest (o : Nat) (data : List Byte) (d : Dev) : Dev :=
  let w0 := o / 4
  let n := (o + data.length + 3) / 4 - w0
  let dg := (List.range n).foldl (fun dg i =>
    let w := w0 + i
    let key := hbmKey d.c (imageAddr d.c (4 * w))
    let old := maskPoison d.c key (readBytes d.m key 4)
    let new := (List.range 4).map (fun b =>
      let k := 4 * w + b
      if o ≤ k ∧ k < o + data.length then data.getD (k - o) 0 else old.getD b 0)
    digChange dg w (leNat old) (leNat new)) (liveDig d.c)
  onCtl (setLiveDig dg) d

/-- One unit of a VUPD's write: digest, then the write; a held write is waited for (R324, R401). The old contents of a working copy are read for the digest; those of the destination have been read already. -/
def updUnit (p t : Nat) (copy : Bool) (a : Nat) (data : List Byte) (d : Dev) : Dev × Bool :=
  let d := match (if a < millBase then imageOff d.c a else none) with
    | some o =>
      let d := if copy then { d with c := (readUnit d.m a data.length d.c).2.2 } else d
      foldDigest o data d
    | none => d
  let x := writeUnit a data (.pick p t) d
  match x.2 with
  | .ok => (x.1, false)
  | .held => (onCtl (updRun p t (fun r => { r with waiting := r.waiting + 1 })) x.1, false)
  | .unmapped => (x.1, true)

/-- Bytes written at a local address by a VUPD, `copy` for a working copy; the flag says that an absent unit ended the write. -/
def writeLocal (p t : Nat) (copy own : Bool) (a : Nat) (bs : List Byte) (d : Dev) : Dev × Bool :=
  if own then (writeOwn p t (ownOff d.c p a) bs d, false)
  else
    (unitsOf a bs.length).foldl (fun (acc : Dev × Bool) u =>
      if acc.2 then acc else updUnit p t copy u.1 (mixWrite d.c p t u.1 ((bs.drop (u.1 - a)).take u.2)) acc.1) (d, false)

/-! ### VUPD -/

/-- The vote that decides the update: the latched vote, none when there is none; a step without a VOTE takes the device's own step trailer (R297). -/
def voteOf (c : Ctl) : Option (BitVec 5) :=
  if c.step.hasVote then
    (if getB c R.VOTE_STATE.VOTE_VALID then some (BitVec.ofNat 5 (getF c R.VOTE_STATE.VOTE)) else none)
  else some (stepTrailer c)

/-- Whether a VUPD pick is to write: no STOP, no CKFAIL, no NONFIN (R297). -/
def updAllowed (c : Ctl) : Bool :=
  match voteOf c with
  | some v => !(v.getLsbD trStop || v.getLsbD trCkfail || v.getLsbD trNonfin)
  | none => false

/-- A new destination value that is not finite: the first of the beat raises a NONFINITE event; the commit-fault bit (R113, R318, R331). -/
def updateNonfin (p t : Nat) (r : Running) (index : Nat) (c : Ctl) : Ctl :=
  let stream := imgF r.image 22 0 16
  let c := if c.step.updNonfin then c
    else raise evNonfinite 0x02 (srcVector p) (stream + index % 2 ^ 32 * 2 ^ 16)
      { c with step := { c.step with updNonfin := true } }
  if stepOpen c then
    recordFirst { cause := 0x0F, step := getF c R.STEP_NOW.STEP, lcore := logCore c p, unit := t, pick := r.idx,
                  detail := stream, source := srcVector p, row := 0 } { c with step := { c.step with fault := true } }
  else c

/-- The pair SD, SW of a layer on a logical core continued by one element (R115). -/
def layerPair (pr : Nat × Nat) (old new : Nat) : Nat × Nat :=
  let d := toF32 (numAdd (f32 new) (numNeg (f32 old)))
  (fmaF32 d d pr.1, fmaF32 new new pr.2)

/-- The ratio of LAYER takes the elements of a row, with LAYER_EN (R115). DESIGN CHOICE (log entry 155): a row of no elements (VLEN = 0) counts its layer as updated too, with sums 0 (R116). -/
def layerRow (p : Nat) (img : List Word) (olds news : List Nat) (c : Ctl) : Ctl :=
  if !imgB img 22 28 then c
  else
    let k := imgF img 22 16 12 * 64 + logCore c p
    let pr := (List.zip olds news).foldl (fun pr x => layerPair pr x.1 x.2) (c.gov.layers.getD k (0, 0))
    { c with gov := { c.gov with layers := c.gov.layers.put k pr } }

/-- A working copy of a row: narrowed, counted and written (R114). -/
def workingCopy (p t : Nat) (img : List Word) (o : Nat) (it : Nat × Nat × Nat × Nat × Nat) (news : List Nat) (d : Dev) : Dev × Bool :=
  let own := destOwn d.c p img o
  let a := destAddr img o it
  let bits := codeBits (imgFmt img o)
  let x := storeCodes (imgFmt img o) (imgTid img o) (imgSat img) false news d.c
  let d := { d with c := x.1 }
  let len := rowLen bits news.length
  let last := if bits = 4 ∧ news.length % 2 = 1 then readLocal p own (a + len - 1) 1 d else ([], false, d)
  writeLocal p t true own a (packRow bits (leNat last.1) x.2) last.2.2

/-- The new 32-bit values of a row of VUPD from the old ones `olds` and the increments `incs`: added, and rounded stochastically by element (R111, R112). -/
def updateNews (img : List Word) (it : Nat × Nat × Nat × Nat × Nat) (olds incs : List Nat) (c : Ctl) : List Nat :=
  let n := imgVlen img
  let base := imgIndexBase img + it.1 * n
  let rnd (k : Nat) : Nat := srBits (getF c R.GOV_SEED.SEED) (getF c R.STEP_NOW.STEP) (imgF img 22 0 16) (base + k)
  (List.range n).map (fun k => roundStochastic (numAdd (f32 (olds.getD k 0)) (f32 (incs.getD k 0))) (rnd k))

/-- Once the destination of a row of VUPD is written (`w` says whether the write was absent): non-finite updates, working copies, the layer's ratio (R110 to R115). -/
def updateAfter (p t : Nat) (r : Running) (it : Nat × Nat × Nat × Nat × Nat) (olds news : List Nat) (w : Dev × Bool) : Dev × Bool :=
  if w.2 then w
  else
    let img := r.image
    let n := imgVlen img
    let base := imgIndexBase img + it.1 * n
    let d := onCtl (fun c => (List.range n).foldl (fun c k =>
      if codeNonfin .f32 (news.getD k 0) then updateNonfin p t r ((base + k) % 2 ^ 48) c else c) c) w.1
    let w := (vupdCopies img).foldl (fun (acc : Dev × Bool) o =>
      if acc.2 || n == 0 then acc else workingCopy p t img o it news acc.1) (d, false)
    (onCtl (layerRow p img olds news) w.1, w.2)

/-- The new values `news` of a row go to the destination, after the range check (R110, R320). -/
def updatePut (p t : Nat) (r : Running) (it : Nat × Nat × Nat × Nat × Nat) (olds news : List Nat) (d : Dev) : Dev × Bool :=
  updateAfter p t r it olds news
    (writeLocal p t false (destOwn d.c p r.image 2) (destAddr r.image 2 it) (news.flatMap (leBytes 4)) (onCtl (rangeCheck p t r it.1 news) d))

/-- The increments of a row from the core store (R110). -/
def updateIncs (p : Nat) (img : List Word) (it : Nat × Nat × Nat × Nat × Nat) (d : Dev) : List Nat :=
  loadRow d.m d.c p img 0 (coreAddr img 0 it.2.1 it.2.2.1 it.2.2.2.1 it.2.2.2.2) (imgVlen img)

/-- The 32-bit values in the bytes of a row. -/
def rowWords (img : List Word) (bs : List Byte) : List Nat := (List.range (imgVlen img)).map (fun k => leNat ((bs.drop (4 * k)).take 4))

/-- A row of VUPD whose old bytes `x` have been read, or found absent (R110, R152). -/
def updateWith (p t : Nat) (r : Running) (it : Nat × Nat × Nat × Nat × Nat) (x : List Byte × Bool × Dev) : Dev × Bool :=
  if x.2.1 then (x.2.2, true)
  else
    updatePut p t r it (rowWords r.image x.1)
      (updateNews r.image it (rowWords r.image x.1) (updateIncs p r.image it x.2.2) x.2.2.c) x.2.2

/-- One row of a VUPD: old values, new values rounded stochastically, destination, working copies, ratio (R110 to R115). -/
def updateRow (p t : Nat) (r : Running) (it : Nat × Nat × Nat × Nat × Nat) (d : Dev) : Dev × Bool :=
  updateWith p t r it (readLocal p (destOwn d.c p r.image 2) (destAddr r.image 2 it) (4 * imgVlen r.image) d)

/-- Whether a VUPD pick writes into the persistent shard. -/
def updShard (c : Ctl) (p : Nat) (r : Running) : Bool :=
  (runRows r).any (fun it => (2 :: vupdCopies r.image).any (fun o =>
    !destOwn c p r.image o && (imageOff c (destAddr r.image o it)).isSome))

/-- Whether a started VUPD pick is to write: the vote allows it, and the persistent shard is written in the commit beat only (R21, R297). -/
def updWrites (c : Ctl) (p : Nat) (r : Running) : Bool :=
  updAllowed c && (getB c R.STEP_STATUS.COMMIT || !updShard c p r)

/-- VUPD: the rows in ascending ordinal, until an absent unit stops the pick; a pick that is not to write completes at once (R110, R151, R297). The shard is not written while the digest sweep runs: the pick waits (R324). -/
def vupdWork (p : Nat) (d : Dev) : Dev :=
  match curRun d.c p 4 0x22 with
  | none => d
  | some r =>
    if !updWrites d.c p r then onCtl (workDone p 4) d
    else if getB d.c R.CHK_DIG_STATUS.SWEEP && updShard d.c p r then d
    else
      let x := (runRows r).foldl (fun (acc : Dev × Bool) it => if acc.2 then acc else updateRow p 4 r it acc.1) (onCtl drawn d, false)
      if x.2 then
        match curRun x.1.c p 4 0x22 with
        | some r => onCtl (stopAbsent p 4 r) x.1
        | none => x.1
      else onCtl (workDone p 4) x.1

/-- VMAP on TV of physical core p. -/
def execVmap (p : Nat) (s : State) : Host.Outcome State Fault Refusal := runDev (atTreadle p 4 (vectorWork 0x20 p)) s

/-- VRED on TV of physical core p. -/
def execVred (p : Nat) (s : State) : Host.Outcome State Fault Refusal := runDev (atTreadle p 4 (vectorWork 0x21 p)) s

/-- VUPD on TV of physical core p. -/
def execVupd (p : Nat) (s : State) : Host.Outcome State Fault Refusal := runDev (atTreadle p 4 (vupdWork p)) s

end Sys2Proof.Machine
end

