-- ==== Sys2Proof/Machine/Access.lean ====
section
/-! DEFINITION. Accesses of any master to the local address space (R170 to R194), register space and atomic port among it, and the commons atomics (R181 to R185). -/

namespace Sys2Proof.Machine

/-! ### The register space as bytes (R9, R177) -/

/-- Accesses of a run of bytes in the register space: one of the whole width for 4 or 8 bytes, else double-words in ascending order. -/
def regPieces (off n : Nat) : List (Nat × Nat) :=
  if n = 4 then [(off, 4)] else (List.range ((n + 7) / 8)).map (fun i => (off + 8 * i, min 8 (n - 8 * i)))

/-- Whether an access lies in the register block of a core that is absent: it makes a pick stop (R151, R152). -/
def absentReg (c : Ctl) (off width : Nat) : Bool :=
  regTest off width && (match blockAt off with
    | some (.core p) => !coreReady c p
    | _ => false)

/-- One access read in the register space, with whether it was mapped; the block of an absent core is not, for a pick (R9, R151, R171). -/
def regReadOne (pick : Bool) (off width : Nat) (c : Ctl) : Dword × Bool × Ctl :=
  if pick && absentReg c off width then (0, false, unmappedEvent (regBase + off) c)
  else
    let r := readAccess off width c
    (r.1, r.2.1, if r.2.1 then r.2.2 else unmappedEvent (regBase + off) r.2.2)

/-- One access written in the register space, with whether it was mapped. -/
def regWriteOne (pick : Bool) (off : Nat) (data : List Byte) (d : Dev) : Dev × Bool :=
  if pick && absentReg d.c off data.length then (onCtl (unmappedEvent (regBase + off)) d, false)
  else
    let r := writeReg off data.length (BitVec.ofNat 64 (leNat data)) d
    (if r.2 then r.1 else onCtl (unmappedEvent (regBase + off)) r.1, r.2)

/-- Bytes read from the register space; the flag says that every access was mapped. A pick stops at its first access that is not (R171). -/
def regRead (pick : Bool) (off n : Nat) (c : Ctl) : List Byte × Bool × Ctl :=
  (regPieces off n).foldl (fun x p =>
    if pick && !x.2.1 then (x.1 ++ zeros p.2, x.2)
    else
      let r := regReadOne pick p.1 p.2 x.2.2
      (x.1 ++ leBytes p.2 r.1.toNat, x.2.1 && r.2.1, r.2.2)) ([], true, c)

/-- Bytes written to the register space. -/
def regWrite (pick : Bool) (off : Nat) (data : List Byte) (d : Dev) : Dev × Bool :=
  (regPieces off data.length).foldl (fun x p =>
    if pick && !x.2 then x
    else
      let r := regWriteOne pick p.1 ((data.drop (p.1 - off)).take p.2) x.1
      (r.1, x.2 && r.2)) (d, true)

/-! ### Reads and plain writes -/

/-- One unit read at a local address; the flag says that it was mapped (R171). -/
def readHere (pick : Bool) (a n : Nat) (d : Dev) : List Byte × Bool × Dev :=
  match locate d.c a with
  | .reg off =>
    let r := regRead pick off n d.c
    (r.1, r.2.1, { d with c := r.2.2 })
  | _ =>
    let r := readUnit d.m a n d.c
    (r.1, r.2.1 != .unmapped, { d with c := r.2.2 })

/-- A run of bytes read unit by unit; a pick issues no unit after its first that is unmapped (R171). -/
def readRun (pick : Bool) (a n : Nat) (d : Dev) : List Byte × Bool × Dev :=
  (unitsOf a n).foldl (fun x u =>
    if pick && !x.2.1 then (x.1 ++ zeros u.2, x.2)
    else
      let r := readHere pick (u.1 % 2 ^ 48) u.2 x.2.2
      (x.1 ++ r.1, x.2.1 && r.2.1, r.2.2)) ([], true, d)

/-- How an access that changes something ended: with a STATUS of R243, or, as far as a stack holds it, to be completed later under that STATUS (R401). -/
inductive Ended where
  | now (status : Nat)
  | later (status : Nat)
  deriving DecidableEq, Repr

/-- The STATUS of what has ended. -/
def Ended.status : Ended → Nat
  | .now s | .later s => s

/-- The end of two parts of one access. -/
def Ended.both : Ended → Ended → Ended
  | .now a, .now b => .now (max a b)
  | x, y => .later (max x.status y.status)

/-- What an outcome of the memory side means for the access. -/
def Acc.ended : Acc → Ended
  | .ok => .now 0
  | .unmapped => .now 1
  | .held => .later 0

/-- Whether an access is one of a pick, which stops at an absent unit (R151, R171). -/
def HeldFor.byPick : HeldFor → Bool
  | .pick _ _ | .piece _ _ => true
  | _ => false

/-- A run of bytes written by `f` unit by unit; a pick issues no unit after its first that is unmapped (R171). -/
def overUnits (pick : Bool) (f : Nat → List Byte → Dev → Dev × Ended) (a : Nat) (data : List Byte) (d : Dev) : Dev × Ended :=
  (unitsOf a data.length).foldl (fun x u =>
    if pick && x.2.status == 1 then x
    else
      let y := f (u.1 % 2 ^ 48) ((data.drop (u.1 - a)).take u.2) x.1
      (y.1, x.2.both y.2)) (d, .now 0)

/-- A write that performs nothing at the atomic port: a MEMORY event (R184, R455). -/
def portDiscard (a : Nat) (d : Dev) : Dev := onCtl (raise evMemory 0x05 srcDevice a) d

/-- One unit written at a local address, where the atomic port takes no request. -/
def writePlain (a : Nat) (data : List Byte) (who : HeldFor) (d : Dev) : Dev × Ended :=
  match locate d.c a with
  | .reg off =>
    let r := regWrite who.byPick off data d
    (r.1, .now (if r.2 then 0 else 1))
  | .atomic _ => (portDiscard a d, .now 0)
  | _ =>
    let r := writeUnit a data who d
    (r.1, r.2.ended)

/-- A run of bytes written unit by unit: `who` is completed when none of its units is held any more. -/
def writeRunPlain (a : Nat) (data : List Byte) (who : HeldFor) (d : Dev) : Dev × Ended :=
  overUnits who.byPick (fun a data => writePlain a data who) a data d

/-! ### Commons atomics (R182, R183) -/

/-- The returned double-word of a request goes to RET_ADDR (R182, R185). A return that cannot be sent is a LINK event and ends the request. -/
def atomicReturn (old : Nat) (q : AtomicReq) (who : HeldFor) (d : Dev) : Dev × Ended :=
  if !q.ret then (d, .now 0)
  else
    let dev := q.retAddr.toNat / 2 ^ 48
    let a := q.retAddr.toNat % 2 ^ 48
    match targetOf d.c dev with
    | .here =>
      let r := overUnits false (fun a data => writePlain a data who) a (leBytes 8 old) d
      (r.1, match r.2 with
        | .now _ => .now 0
        | .later _ => .later 0)
    | .peer n => (onCtl (issueWrite n q.retAddr.toNat (leBytes 8 old) (.write who)) d, .later 0)
    | .nowhere => (onCtl (notSent dev) d, .now 0)

/-- A word or double-word of commons data replaced, in one step, by `f` of its value. -/
def atomicData (bytes : Nat) (f : Nat → Nat) (q : AtomicReq) (who : HeldFor) (d : Dev) : Dev × Ended :=
  let a := commonsBase + q.target.toNat / bytes * bytes
  let old := leNat (readBytes d.m a bytes)
  atomicReturn old q who { d with m := writeBytes d.m a (leBytes bytes (f old)) }

/-- A chip flag set or cleared. -/
def atomicFlag (set : Bool) (q : AtomicReq) (who : HeldFor) (d : Dev) : Dev × Ended :=
  let f := q.operand.toNat % 4096
  let old := bit (d.c.chip.getLsbD f)
  let m : BitVec 4096 := 1 <<< f
  atomicReturn old q who (onCtl (fun c => { c with chip := if set then c.chip ||| m else c.chip &&& ~~~ m }) d)

/-- The operation of a request that has reached the port (R183): an undefined OP is discarded with a MEMORY event. -/
def atomicDo (op : Nat) (q : AtomicReq) (who : HeldFor) (d : Dev) : Dev × Ended :=
  let v := q.operand.toNat
  match op with
  | 1 => atomicData 4 (fun old => (old + v) % 2 ^ 32) q who d
  | 2 => atomicData 8 (fun old => (old + v) % 2 ^ 64) q who d
  | 3 => atomicData 4 (fun old => addF32 old (v % 2 ^ 32)) q who d
  | 4 => atomicData 8 (fun old => if old = q.compare.toNat then v else old) q who d
  | 5 => atomicFlag true q who d
  | 6 => atomicFlag false q who d
  | _ => (onCtl (raise evMemory 0x06 srcDevice atomicPort) d, .now 0)

/-- The request that four double-words spell (R182). -/
def atomicOf (w0 w1 w2 w3 : Nat) : Nat × AtomicReq :=
  (w0 % 16, { ret := w0 / 16 % 2 == 1, target := BitVec.ofNat 26 (w0 / 2 ^ 32), operand := BitVec.ofNat 64 w1, compare := BitVec.ofNat 64 w2,
              retAddr := BitVec.ofNat 64 w3 })

/-- A request of 32 bytes. -/
def atomicBytes (bs : List Byte) (who : HeldFor) (d : Dev) : Dev × Ended :=
  let w (i : Nat) := leNat ((bs.drop (8 * i)).take 8)
  let r := atomicOf (w 0) (w 1) (w 2) (w 3)
  atomicDo r.1 r.2 who d

/-- A write of the host or a control processor at the port (R184): slot `m` is filled by double-words, and offset 0x18 issues the request and clears it. -/
def slotWrite (m o width : Nat) (v : Dword) (who : HeldFor) (d : Dev) : Dev × Ended :=
  let slot (k : Nat) := d.c.host.slots.getD (4 * m + k) 0
  let set (f : Tab Nat → Tab Nat) := onCtl (onHost (fun h => { h with slots := f h.slots })) d
  if width ≠ 8 then (portDiscard (atomicPort + o) d, .now 0)
  else if o = 0x00 ∨ o = 0x08 ∨ o = 0x10 then (set (fun t => t.put (4 * m + o / 8) v.toNat), .now 0)
  else if o = 0x18 then
    let r := atomicOf (slot 0) (slot 1) (slot 2) v.toNat
    atomicDo r.1 r.2 who (set (fun t => ((t.del (4 * m)).del (4 * m + 1)).del (4 * m + 2)))
  else (portDiscard (atomicPort + o) d, .now 0)

/-! ### Writes of every master -/

/-- One unit written at a local address by a shuttle or a remote master: 32 bytes at the atomic port are a request (R184). -/
def writeHere (a : Nat) (data : List Byte) (who : HeldFor) (d : Dev) : Dev × Ended :=
  match locate d.c a with
  | .atomic o => if o = 0 ∧ data.length = 32 then atomicBytes data who d else (portDiscard a d, .now 0)
  | _ => writePlain a data who d

/-- A run of bytes written unit by unit by a shuttle or a remote master. -/
def writeRun (a : Nat) (data : List Byte) (who : HeldFor) (d : Dev) : Dev × Ended :=
  match unitsOf a data.length with
  | [_] => writeHere a data who d
  | _ => writeRunPlain a data who d

/-- One add-write of a unit: STATUS 3 where nothing can perform it (R178, R243). -/
def addHere (fmt a : Nat) (data : List Byte) (who : HeldFor) (d : Dev) : Dev × Ended :=
  let r := addUnit fmt a data who d
  (r.1, match r.2.1 with
    | .ok => .now (if r.2.2 then 0 else 3)
    | .unmapped => .now 1
    | .held => .later 0)

/-- An add-write of a run of bytes unit by unit. -/
def addRun (fmt a : Nat) (data : List Byte) (who : HeldFor) (d : Dev) : Dev × Ended :=
  overUnits who.byPick (fun a data => addHere fmt a data who) a data d

/-! ### What leaves for other devices -/

/-- A write that leaves the device: device field 0xFFFF in RET_ADDR of an atomic request becomes the own roster number (R182). -/
def outgoing (c : Ctl) (a : Nat) (data : List Byte) : List Byte :=
  if a % 2 ^ 48 = atomicPort ∧ data.length = 32 ∧ leNat (data.drop 30) = 0xFFFF then data.take 30 ++ leBytes 2 (myNum c) else data

/-! ### The commands of the port -/

/-- An atomic request of a master of this device; with the commons absent the port is unmapped (R171, R428, R444). -/
def atomicCmd (op : Nat) (a : AtomicReq) (d : Dev) : Dev :=
  if mainReady d.c 5 then (atomicDo op a .nobody d).1 else onCtl (unmappedEvent atomicPort) d

/-- FADD_I32. -/
def execFaddI32 (a : AtomicReq) (s : State) : Host.Outcome State Fault Refusal := runDev (atomicCmd 1 a) s

/-- FADD_I64. -/
def execFaddI64 (a : AtomicReq) (s : State) : Host.Outcome State Fault Refusal := runDev (atomicCmd 2 a) s

/-- FADD_F32. -/
def execFaddF32 (a : AtomicReq) (s : State) : Host.Outcome State Fault Refusal := runDev (atomicCmd 3 a) s

/-- CAS64. -/
def execCas64 (a : AtomicReq) (s : State) : Host.Outcome State Fault Refusal := runDev (atomicCmd 4 a) s

/-- FLAG_SET. -/
def execFlagSet (a : AtomicReq) (s : State) : Host.Outcome State Fault Refusal := runDev (atomicCmd 5 a) s

/-- FLAG_CLR. -/
def execFlagClr (a : AtomicReq) (s : State) : Host.Outcome State Fault Refusal := runDev (atomicCmd 6 a) s

/-- ATOMIC_OP_UNDEFINED: an OP outside R183. -/
def execAtomicOpUndefined (op : BitVec 8) (a : AtomicReq) (s : State) : Host.Outcome State Fault Refusal :=
  runDev (fun d => if 1 ≤ op.toNat % 16 ∧ op.toNat % 16 ≤ 6 then d else atomicCmd 0 a d) s

/-! ### Control processors (R172) -/

/-- A store of control processor i at a global address, of 4 or 8 bytes: at the atomic port it fills the processor's own slot (R172, R184). -/
def cpStore (i addr width : Nat) (v : Dword) (d : Dev) : Dev :=
  let a := addr % 2 ^ 48
  match targetOf d.c (addr / 2 ^ 48) with
  | .here => match locate d.c a with
    | .atomic o => (slotWrite (1 + i) o width v .nobody d).1
    | _ => (writeHere a (leBytes width v.toNat) .nobody d).1
  | .peer n => onCtl (issueWrite n addr (leBytes width v.toNat) (.write .nobody)) d
  | .nowhere => onCtl (notSent (addr / 2 ^ 48)) d

/-- A load of a control processor at a global address, of 4 or 8 bytes (R172). What a remote load brings goes to the firmware, which is no state of this model. -/
def cpLoad (addr width : Nat) (d : Dev) : Option Dword × Dev :=
  match targetOf d.c (addr / 2 ^ 48) with
  | .here =>
    let r := readHere false (addr % 2 ^ 48) width d
    (some (BitVec.ofNat 64 (leNat r.1)), r.2.2)
  | .peer n => (none, onCtl (issueRead n addr width .none) d)
  | .nowhere => (some 0, onCtl (notSent (addr / 2 ^ 48)) d)

end Sys2Proof.Machine
end

