-- ==== Sys2Proof/Machine/Shuttle.lean ====
section
/-! DEFINITION. The shuttle's picks: MOVE, MOVE with ADD, CNTLOAD, PLOAD, FLAG (R138, R140, R176 to R179, R185). -/

namespace Sys2Proof.Machine

/-- The started pick of treadle TS, which runs one at a time (R144). -/
def tsRun (c : Ctl) (p : Nat) : Option Running := (trAt c p 5).runs.head?

/-- That pick changed. -/
def updTs (p : Nat) (f : Running → Running) (c : Ctl) : Ctl :=
  setTr p 5 (fun x => { x with runs := match x.runs with
    | r :: rs => f r :: rs
    | [] => [] }) c

/-- One more access of the pick is outstanding. -/
def tsWait (p : Nat) (c : Ctl) : Ctl := updTs p (fun r => { r with waiting := r.waiting + 1 }) c

/-- What the end of an access completes once the pick has stopped at piece `num`: nobody. A piece issued before it is performed all the same; one after it writes nothing (R171). -/
def contOrphan (p num : Nat) (k : Cont) : Cont :=
  match k with
  | .moveRead (.piece q i) dst add => if q ≠ p then k else if i < num then .moveRead .nobody dst add else .none
  | .moveRead _ _ _ => k
  | .write w => .write (heldWithout p 5 w)
  | .gather q i => if q = p then .none else .gather q i
  | .portRead n => .portRead n
  | .none => .none

/-- The pick of TS stops at an absent unit, at its piece `num` (R151, R171). -/
def tsAbsent (p num : Nat) (c : Ctl) : Ctl :=
  match tsRun c p with
  | some r =>
    let c := { c with slu := { c.slu with held := c.slu.held.map (fun (h : HeldWrite) => { h with who := heldWithout p 5 h.who }) },
                      reqs := c.reqs.map (fun (x : Nat × Req) => (x.1, { x.2 with cont := contOrphan p num x.2.cont })) }
    stopAbsent p 5 r c
  | none => c

/-- An access of a pick that is not sent: a LINK event, and a check failure of the OPEN step with cause RMA_TMO (R169, R318). -/
def pickNotSent (dev : Nat) (c : Ctl) : Ctl := faultIfOpen 0x0A 0 (notSent dev c)

/-! ### MOVE (R176 to R178) -/

/-- Whether a global address lies in the register space. -/
def inRegSpace (a : Nat) : Bool := decide (regBase ≤ a % 2 ^ 48) && decide (a % 2 ^ 48 < regBase + 0x4000000)

/-- The pieces of a row: cut at the 256-byte boundaries of source and destination (R176), or into double-words where either lies in the register space (R177). -/
def cutRow (add : Option Nat) : Nat → Nat → Nat → Nat → List Piece
  | 0, _, _, _ => []
  | fuel + 1, a, b, n =>
    if n = 0 then []
    else
      let k := if inRegSpace a || inRegSpace b then min n 8 else min n (min (256 - a % 256) (256 - b % 256))
      { num := 0, src := a, dst := b, len := k, add := add } :: cutRow add fuel ((a + k) % 2 ^ 64) ((b + k) % 2 ^ 64) (n - k)

/-- The pieces of a MOVE in their issue order. With ADD, the bits below the element size count as zero (R178). -/
def movePieces (r : Running) : List Piece :=
  let fmt := imgAddFmt r.image
  let k := if imgAdd r.image then max 1 (codeBits fmt / 8) else 1
  let n := imgRowBytes r.image / k * k
  let add := if imgAdd r.image then some fmt else none
  let l := (runRows r).flatMap (fun it =>
    let i := it.2
    cutRow add (n + 1) (operandAddr r.image 0 i.1 i.2.1 i.2.2.1 i.2.2.2 / k * k) (operandAddr r.image 2 i.1 i.2.1 i.2.2.1 i.2.2.2 / k * k) n)
  (List.range l.length).zipWith (fun i x => { x with num := i }) l

/-- A double-word of a MOVE written in the register space; a tail of fewer bytes is an access of the wrong width (R9, R177; log entry 75). -/
def regPiece (a : Nat) (data : List Byte) (d : Dev) : Dev × Ended :=
  if data.length ≠ 8 then (onCtl (regTestFailed (a - regBase)) d, .now 0)
  else
    let r := regWriteOne true (a - regBase) data d
    (r.1, .now (if r.2 then 0 else 1))

/-- The read half of a piece at a local address: one access in the register space, where a tail reads as zero; elsewhere unit by unit (R171, R177). -/
def pieceRead (a n : Nat) (d : Dev) : List Byte × Bool × Dev :=
  if inRegSpace a then (if n = 8 then readHere true a n d else (zeros n, true, d)) else readRun true a n d

/-- The write half of a piece. `who` waits for it if it is not performed at once; `some 1` says that its unit is absent. -/
def pieceWrite (who : HeldFor) (dst : Nat) (add : Option Nat) (data : List Byte) (d : Dev) : Dev × Ended :=
  let a := dst % 2 ^ 48
  match targetOf d.c (dst / 2 ^ 48) with
  | .here => match add with
    | none => if inRegSpace a then regPiece a data d else writeRun a data who d
    | some fmt => addRun fmt a data who d
  | .peer n => match add with
    | none =>
      if inRegSpace a && data.length != 8 then (onCtl (regTestFailed (a - regBase)) d, .now 0)
      else (onCtl (issueWrite n dst (outgoing d.c dst data) (.write who)) d, .later 0)
    | some fmt => (onCtl (issueAdd n dst fmt data (.write who)) d, .later 0)
  | .nowhere => (onCtl (pickNotSent (dst / 2 ^ 48)) d, .now 0)

/-- The write half of a piece of core p's pick, with what its end means for the pick. -/
def moveWrite (p num : Nat) (dst : Nat) (add : Option Nat) (data : List Byte) (d : Dev) : Dev :=
  let data := if targetOf d.c (dst / 2 ^ 48) = .here then mixWrite d.c p 5 (dst % 2 ^ 48) data else data
  let r := pieceWrite (.piece p num) dst add data d
  match r.2 with
  | .now 1 | .later 1 => onCtl (tsAbsent p num) r.1
  | .later _ => onCtl (tsWait p) r.1
  | .now _ => r.1

/-- A piece is issued: its read, and its write half as soon as the data is there. -/
def moveIssue (p : Nat) (x : Piece) (d : Dev) : Dev :=
  match targetOf d.c (x.src / 2 ^ 48) with
  | .here =>
    let r := pieceRead (x.src % 2 ^ 48) x.len d
    if r.2.1 then moveWrite p x.num x.dst x.add (mixRead d.c p 5 (x.src % 2 ^ 48) r.1) r.2.2 else onCtl (tsAbsent p x.num) r.2.2
  | .peer n =>
    if inRegSpace x.src && x.len != 8 then moveWrite p x.num x.dst x.add (zeros x.len) d
    else onCtl (fun c => tsWait p (issueRead n x.src x.len (.moveRead (.piece p x.num) x.dst x.add) c)) d
  | .nowhere => moveWrite p x.num x.dst x.add (zeros x.len) (onCtl (pickNotSent (x.src / 2 ^ 48)) d)

/-! ### CNTLOAD and PLOAD (R138, R140) -/

/-- The bytes that a CNTLOAD or PLOAD reads: their global address and number. -/
def gatherRange (r : Running) : Nat × Nat :=
  (imgBase r.image 0, if imgOp r.image = 0x31 then 128 else 256 * (imgOparg r.image / 2 ^ 16 % 4096 + 1))

/-- Its reads, as pieces whose `dst` is the part's number. -/
def gatherPieces (r : Running) : List Piece :=
  let g := gatherRange r
  let us := unitsOf (g.1 % 2 ^ 48) g.2
  ((List.range us.length).zip us).map (fun x => { num := x.1, src := g.1 / 2 ^ 48 * 2 ^ 48 + x.2.1 % 2 ^ 48, dst := x.1, len := x.2.2, add := none })

/-- The bytes of the parts that have come, in order, up to the first that is missing. -/
def gatherBytes (got : Tab (List Byte)) : Nat → Nat → List Byte
  | 0, _ => []
  | n + 1, k => match got.look k with
    | some bs => bs ++ gatherBytes got n (k + 1)
    | none => []

/-- The count registers that MASK selects are written (R138). -/
def cntLoad (p : Nat) (r : Running) (bs : List Byte) (c : Ctl) : Ctl :=
  forN 32 (fun n c =>
    if imgOparg r.image / 2 ^ n % 2 = 1 then setF (coreF (idxF R.SEQ_CNT.COUNT 4 n) p) (leNat ((bs.drop (4 * n)).take 4)) c else c) c

/-- The images that have been read in full are written to the pick store, in ascending order (R140). -/
def imagesLoad (p : Nat) (r : Running) (bs : List Byte) (d : Dev) : Dev :=
  forN (bs.length / 256) (fun i d =>
    { d with m := writePick d.c p (256 * (imgOparg r.image % 2048 + i)) ((bs.drop (256 * i)).take 256) d.m }) d

/-- A part has come; with the last one the load is done. -/
def gatherGot (p k : Nat) (bs : List Byte) (d : Dev) : Dev :=
  let d := onCtl (updTs p (fun r => { r with got := r.got.put k bs })) d
  match tsRun d.c p with
  | some r =>
    let n := (gatherPieces r).length
    let all := gatherBytes r.got n 0
    if all.length < (gatherRange r).2 then d
    else if imgOp r.image = 0x31 then onCtl (cntLoad p r all) d
    else imagesLoad p r all d
  | none => d

/-- A part lies at an absent unit: a PLOAD writes the images read in full before it, and the pick stops (R140, R151). -/
def gatherAbsent (p k : Nat) (d : Dev) : Dev :=
  match tsRun d.c p with
  | some r =>
    let before := gatherBytes r.got k 0
    onCtl (tsAbsent p k) (if imgOp r.image = 0x32 then imagesLoad p r before d else d)
  | none => d

/-- A part is read. -/
def gatherIssue (p : Nat) (x : Piece) (d : Dev) : Dev :=
  match targetOf d.c (x.src / 2 ^ 48) with
  | .here =>
    let r := readHere true (x.src % 2 ^ 48) x.len d
    if r.2.1 then gatherGot p x.dst (mixRead d.c p 5 (x.src % 2 ^ 48) r.1) r.2.2 else gatherAbsent p x.dst r.2.2
  | .peer n => onCtl (fun c => tsWait p (issueRead n x.src x.len (.gather p x.dst) c)) d
  | .nowhere => gatherGot p x.dst (zeros x.len) (onCtl (pickNotSent (x.src / 2 ^ 48)) d)

/-! ### Issue (R176) -/

/-- Most pieces outstanding. -/
def pieceMax : Nat := 256

/-- Whether a piece has to wait for the pieces before it: 256 may be outstanding (R176), and the double-words of a MOVE with a side in the register space go one at a time (R177). -/
def pieceHeld (r : Running) (x : Piece) : Bool :=
  decide (pieceMax ≤ r.waiting) || imgOp r.image == 0x30 && (inRegSpace x.src || inRegSpace x.dst) && r.waiting != 0

/-- The next piece of core p's shuttle pick, while it may be issued. -/
def pumpOne (p : Nat) (d : Dev) : Dev :=
  match tsRun d.c p with
  | some r =>
    match r.todo with
    | x :: rest =>
      if pieceHeld r x then d
      else
        let d := onCtl (updTs p (fun r => { r with todo := rest })) d
        inCycleDev (if imgOp r.image = 0x30 then moveIssue p x else gatherIssue p x) d
    | [] => d
  | none => d

/-- As many pieces as may be outstanding. -/
def pump (p : Nat) (d : Dev) : Dev :=
  match tsRun d.c p with
  | some r => forN r.todo.length (fun _ d => pumpOne p d) d
  | none => d

/-- A started pick of an opcode begins its pieces. -/
def shuttleStart (op p : Nat) (pieces : Running → List Piece) (ok : Running → Bool) (d : Dev) : Dev :=
  match curRun d.c p 5 op with
  | some r =>
    if ok r then pump p (onCtl (fun c => updTs p (fun x => { x with worked := true, todo := pieces r }) (drawn c)) d) else d
  | none => d

/-! ### FLAG (R185) -/

/-- The 32 bytes of a flag request. -/
def flagRequest (clear : Bool) (f : Nat) : List Byte :=
  leBytes 8 (if clear then 6 else 5) ++ leBytes 8 f ++ leBytes 8 0 ++ leBytes 8 0

/-- A FLAG pick: a FLAG_SET or FLAG_CLR request to the device in BASE_O[63:48]. -/
def flagPick (clear : Bool) (p : Nat) (d : Dev) : Dev :=
  match curRun d.c p 5 0x33 with
  | some r =>
    let arg := imgOparg r.image
    if (arg / 2 ^ 12 % 2 == 1) != clear then d
    else
      let d := onCtl (workDone p 5) d
      let dev := imgBase r.image 2 / 2 ^ 48
      let f := arg % 4096
      match targetOf d.c dev with
      | .here =>
        if mainReady d.c 5 then
          (atomicFlag (!clear) { ret := false, target := 0, operand := BitVec.ofNat 64 f, compare := 0, retAddr := 0 } .nobody d).1
        else onCtl (inCycle (fun c => tsAbsent p 0 (unmappedEvent atomicPort c))) d
      | .peer n => onCtl (fun c => tsWait p (issueWrite n (dev * 2 ^ 48 + atomicPort) (flagRequest clear f) (.write (.pick p 5)) c)) d
      | .nowhere => onCtl (pickNotSent dev) d
  | none => d

/-! ### The commands -/

/-- A shuttle pick of an existing core. -/
def onCore (p : Nat) (f : Dev → Dev) (d : Dev) : Dev := if p < 72 then f d else d

/-- MOVE. -/
def execMove (p : Nat) (s : State) : Host.Outcome State Fault Refusal :=
  runDev (onCore p (shuttleStart 0x30 p movePieces (fun r => !imgAdd r.image))) s

/-- MOVE_ADD. -/
def execMoveAdd (p : Nat) (s : State) : Host.Outcome State Fault Refusal :=
  runDev (onCore p (shuttleStart 0x30 p movePieces (fun r => imgAdd r.image))) s

/-- CNTLOAD. -/
def execCntload (p : Nat) (s : State) : Host.Outcome State Fault Refusal :=
  runDev (onCore p (shuttleStart 0x31 p gatherPieces (fun _ => true))) s

/-- PLOAD. -/
def execPload (p : Nat) (s : State) : Host.Outcome State Fault Refusal :=
  runDev (onCore p (shuttleStart 0x32 p gatherPieces (fun _ => true))) s

/-- FLAG_PICK_SET. -/
def execFlagPickSet (p : Nat) (s : State) : Host.Outcome State Fault Refusal := runDev (onCore p (flagPick false p)) s

/-- FLAG_PICK_CLEAR. -/
def execFlagPickClear (p : Nat) (s : State) : Host.Outcome State Fault Refusal := runDev (onCore p (flagPick true p)) s

end Sys2Proof.Machine
end

