-- ==== Sys2Proof/Machine/Rma.lean ====
section
/-! DEFINITION. The porthole (R187, R188) and remote memory access: requests served here, responses to requests made here, deadlines (R27, R243, R263 to R265, R469). -/

namespace Sys2Proof.Machine

/-! ### Requests of the host (R187, R188, R449, R450) -/

/-- The global address of a BAR2 offset (R187). -/
def portholeAddr (c : Ctl) (off : Nat) : Nat :=
  getF c R.PORTHOLE_BASE.DEVICE * 2 ^ 48 + (getF c R.PORTHOLE_BASE.BASE * 4096 + off % 2 ^ 30) % 2 ^ 48

/-- Whether a request has one of the two forms (R187). -/
def portholeForm (off width : Nat) : Bool := (width == 4 || width == 8) && off % width == 0

/-- A porthole access of the wrong form sets BAD_ACCESS and raises a PROGRAM event (R187, R455). -/
def portholeBad (off : Nat) (c : Ctl) : Ctl := raise evProgram 0x11 srcHost (portholeAddr c off % 2 ^ 48) (portholeFlag R.PORTHOLE_STATUS.BAD_ACCESS c)

/-- A BAR0 access of the wrong form, which fails the test of R9 too (R187, R455). -/
def bar0Bad (off : Nat) (c : Ctl) : Ctl := regTestFailed off (portholeFlag R.PORTHOLE_STATUS.BAD_ACCESS c)

/-- A number that no request of the host has. -/
def portNum (h : HostPort) : Nat := h.ops.foldl (fun n o => max n (o.num + 1)) 0

/-- An accepted request joins those that have not completed. -/
def portJoin (isRead bar0 unsup : Bool) (addr width : Nat) (data : Dword) (c : Ctl) : Ctl :=
  onHost (fun h => { h with ops := h.ops ++ [{ isRead := isRead, bar0 := bar0, addr := addr, width := width, data := data, issued := false, unsup := unsup, num := portNum h }] }) c

/-- Whether the port may accept a further request of a kind (R450). -/
def hasRoom (isRead : Bool) (h : HostPort) : Bool :=
  decide ((h.ops.filter (fun o => o.isRead == isRead)).length < (if isRead then readMax else writeMax))

/-- The request that the port accepts next: those of a kind in order, a read behind the writes that arrived before it, a write past reads that find no room (R450; log entry 91). -/
def hostNext (h : HostPort) : Option HostReq :=
  match h.backlog with
  | [] => none
  | x :: _ => if hasRoom x.isRead h then some x
    else if x.isRead && hasRoom false h then h.backlog.find? (fun y => !y.isRead) else none

/-- A request is accepted: an Unsupported Request in D3hot; one of the wrong form is reported, and a write of it discarded; else it joins the others, with the address that PORTHOLE_BASE now gives (R187, R448, R449). -/
def hostAccept (q : HostReq) (c : Ctl) : Ctl :=
  let c := onHost (fun h => { h with backlog := h.backlog.erase q }) c
  let ok := portholeForm q.off q.width
  if c.host.d3 then
    let c := hostUnsupported q.isRead c
    if q.isRead then portJoin true true true 0 0 0 c else c
  else
    let bad (c : Ctl) : Ctl := if ok then c else if q.bar0 then bar0Bad q.off c else portholeBad q.off c
    if q.isRead || ok then
      portJoin q.isRead q.bar0 false (if q.bar0 then q.off else portholeAddr c q.off) (if ok then q.width else 0) q.data (bad c)
    else bad c

/-- The double-word of the register space that a request of the host goes to, if it goes there. -/
def portReg (c : Ctl) (o : PortOp) : Option Nat :=
  if o.unsup || o.width = 0 then none
  else if o.bar0 then some (o.addr / 8)
  else if targetOf c (o.addr / 2 ^ 48) = .here && inRegSpace o.addr then some ((o.addr % 2 ^ 48 - regBase) / 8) else none

/-- Whether a request may be carried out while those before it are not completed (R187, R190, R450): one register is reached in order; reads are answered in order; a porthole read waits for every porthole access before it, a porthole write for the porthole reads and for the issue of the writes. -/
def opReady (c : Ctl) (before : List PortOp) (x : PortOp) : Bool :=
  !x.issued && !((portReg c x).isSome && before.any (fun y => portReg c y == portReg c x)) &&
    (!x.isRead || !before.any (·.isRead)) &&
    (x.bar0 || before.all (fun y => y.bar0 || (!x.isRead && !y.isRead && y.issued)))

/-- The first request that may be carried out. -/
def opNext (c : Ctl) : List PortOp → List PortOp → Option PortOp
  | _, [] => none
  | before, x :: xs => if opReady c before x then some x else opNext c (before ++ [x]) xs

/-- A request is under way. -/
def opIssue (n : Nat) (c : Ctl) : Ctl := onHost (fun h => { h with ops := h.ops.map (fun o => if o.num = n then { o with issued := true } else o) }) c

/-- A read of the host completes with data (R449). -/
def readDone (n : Nat) (v : Dword) (c : Ctl) : Ctl := hostAnswer v (portDone n c)

/-- A BAR0 read is performed (R449). -/
def bar0Read (off width : Nat) (c : Ctl) : Dword × Ctl :=
  let r := readAccess off width c
  (r.1, if r.2.1 then r.2.2 else unmappedEvent (regBase + off) r.2.2)

/-- A BAR0 write is performed: an offset outside every block is unmapped (R171, R449). -/
def bar0Write (off width : Nat) (v : Dword) (d : Dev) : Dev :=
  let r := writeReg off width v d
  if r.2 then r.1 else onCtl (unmappedEvent (regBase + off)) r.1

/-- A porthole read is performed here, or leaves for its device. -/
def portholeRead (o : PortOp) (d : Dev) : Dev :=
  match targetOf d.c (o.addr / 2 ^ 48) with
  | .here =>
    let r := readHere false (o.addr % 2 ^ 48) o.width d
    onCtl (fun c => readDone o.num (BitVec.ofNat 64 (leNat r.1)) (if r.2.1 then c else portholeFlag R.PORTHOLE_STATUS.UNMAPPED c)) r.2.2
  | .peer n => onCtl (fun c => issueRead n o.addr o.width (.portRead o.width) (opIssue o.num c)) d
  | .nowhere => onCtl (fun c => readDone o.num 0 (notSent (o.addr / 2 ^ 48) c)) d

/-- A porthole write is performed here, held, or sent to its device; at the atomic port it fills the host's slot (R184, R187). -/
def portholeWrite (o : PortOp) (d : Dev) : Dev :=
  match targetOf d.c (o.addr / 2 ^ 48) with
  | .here =>
    let a := o.addr % 2 ^ 48
    let r := match locate d.c a with
      | .atomic off => slotWrite 0 off o.width o.data (.porthole o.num) d
      | _ => writeHere a (leBytes o.width o.data.toNat) (.porthole o.num) d
    match r.2 with
    | .later _ => onCtl (opIssue o.num) r.1
    | .now s => onCtl (fun c => portDone o.num (if s = 1 then portholeFlag R.PORTHOLE_STATUS.UNMAPPED c else c)) r.1
  | .peer n => onCtl (fun c => issueWrite n o.addr (leBytes o.width o.data.toNat) (.write (.porthole o.num)) (opIssue o.num c)) d
  | .nowhere => onCtl (fun c => portDone o.num (notSent (o.addr / 2 ^ 48) c)) d

/-- A request is carried out. -/
def opServe (o : PortOp) (d : Dev) : Dev :=
  if o.unsup then onCtl (fun c => onHost (fun h => { h with rsp := h.rsp ++ [.unsupported] }) (portDone o.num c)) d
  else if o.isRead && o.width == 0 then onCtl (readDone o.num 0) d
  else if o.bar0 then
    (if o.isRead then onCtl (fun c => let r := bar0Read o.addr o.width c; readDone o.num r.1 r.2) d
     else bar0Write o.addr o.width o.data (onCtl (portDone o.num) d))
  else if o.isRead then portholeRead o d else portholeWrite o d

/-- The next thing that the port does: it carries out a request, or accepts one. -/
def portStep (d : Dev) : Dev :=
  match opNext d.c [] d.c.host.ops with
  | some o => opServe o d
  | none => match hostNext d.c.host with
    | some q => onCtl (hostAccept q) d
    | none => d

/-- As far as the requests can go. -/
def portRun (d : Dev) : Dev := forN (d.c.host.ops.length + 2 * d.c.host.backlog.length) (fun _ d => portStep d) d

/-- A request of the host (R449): one that the port does not accept at once is held back by the link's credits (R450; log entry 91). -/
def hostRequest (q : HostReq) (d : Dev) : Dev :=
  if hostReaches d.c then portRun (onCtl (onHost (fun h => { h with backlog := h.backlog ++ [q] })) d) else d

/-- A reset of the host port, after which the accepted writes that waited behind a dropped read are performed (R452). -/
def hostResetRun (down counted : Bool) (d : Dev) : Dev := portRun (onCtl (hostReset down counted) d)

/-- The oldest porthole read completes with zero 100 µs after it arrived; its answer, when it comes, is dropped (R188). -/
def portholeTimeout (d : Dev) : Dev :=
  match d.c.host.ops.find? (fun o => o.isRead && !o.bar0) with
  | some o =>
    portRun (onCtl (fun c =>
      let c := { c with reqs := dropPortReads c.reqs }
      readDone o.num 0 (raise evMemory 0x07 srcHost (o.addr % 2 ^ 48) (portholeFlag R.PORTHOLE_STATUS.TIMEOUT c))) d)
  | none => d

/-- The answer to the porthole read in service has come. -/
def portAnswered (v : Dword) (c : Ctl) : Ctl :=
  match c.host.ops.find? (fun o => o.isRead && o.issued) with
  | some o => readDone o.num v c
  | none => c

/-- ATOMIC_SLOT_FILL: a write at the atomic port of the host, master 0, whose requests must reach it, or of a control processor, masters 1 and 2 (R172, R184). With the commons absent the port is unmapped (R171, R428). -/
def slotFill (m off width : Nat) (v : Dword) (d : Dev) : Dev :=
  if m = 0 then
    if !hostServes d.c then d
    else if mainReady d.c 5 then (slotWrite 0 off width v .nobody d).1
    else onCtl (fun c => unmappedEvent (atomicPort + off) (portholeFlag R.PORTHOLE_STATUS.UNMAPPED c)) d
  else if m < 3 then
    if mainReady d.c 5 then cpStore (m - 1) (0xFFFF * 2 ^ 48 + atomicPort + off) width v d else onCtl (unmappedEvent (atomicPort + off)) d
  else d

/-! ### Responses (R243, R263 to R265) -/

/-- The end of a wait: of the host's request, of a pick, of a peer's request. -/
def writeOver (w : HeldFor) (d : Dev) : Dev :=
  match w with
  | .porthole n => onCtl (portDone n) d
  | .pick p t => onCtl (waitDone p t) d
  | .piece p _ => onCtl (waitDone p 5) d
  | .remote _ _ _ | .nobody => onCtl (heldDone w) d

/-- What can go on once a request has its answer: the requests of the host, the pieces of a shuttle pick. -/
def reqNext (k : Cont) (d : Dev) : Dev :=
  match k with
  | .moveRead (.piece p _) _ _ | .write (.piece p _) | .write (.pick p 5) | .gather p _ => pump p d
  | .portRead _ | .write (.porthole _) => portRun d
  | _ => d

/-- What an answer itself does: the STATUS and the data of the response. -/
def reqTake (r : Req) (status : Nat) (data : List Byte) (d : Dev) : Dev :=
  let d := if status = 0 then d else onCtl (raise evMemory 0x04 srcDevice (r.addr % 2 ^ 48)) d
  match r.cont with
  | .moveRead who dst add =>
    match who with
    | .piece p i =>
      let d := onCtl (waitDone p 5) d
      if status = 1 then onCtl (tsAbsent p i) d else moveWrite p i dst add data d
    | _ => if status = 1 then d else (pieceWrite .nobody dst add data d).1
  | .write who =>
    match status, who with
    | 1, .piece p i => onCtl (fun c => tsAbsent p i (waitDone p 5 c)) d
    | 1, .pick p 5 => onCtl (fun c => tsAbsent p 0 (waitDone p 5 c)) d
    | 1, .porthole n => onCtl (fun c => portDone n (portholeFlag R.PORTHOLE_STATUS.UNMAPPED c)) d
    | _, _ => writeOver who d
  | .gather p k =>
    let d := onCtl (waitDone p 5) d
    if status = 1 then gatherAbsent p k d else gatherGot p k data d
  | .portRead w =>
    let d := if status = 1 then onCtl (portholeFlag R.PORTHOLE_STATUS.UNMAPPED) d else d
    onCtl (portAnswered (BitVec.ofNat 64 (leNat (data.take w)))) d
  | .none => d

/-- A request has its answer, or zeros when its deadline has expired; its records enter in the order of R456. -/
def reqAnswer (r : Req) (status : Nat) (data : List Byte) (d : Dev) : Dev := reqNext r.cont (inCycleDev (reqTake r status data) d)

/-- Whether forced coincidence holds a response: its request's deadline is the next boundary (R469). -/
def coincides (c : Ctl) (r : Req) : Bool := decide (0 < tenF c R.TEN_COINCIDE.COUNT) && r.deadline == c.ticks + 1 && r.held.isNone

/-- A response arrives: matched by tag and peer; one without a request is late (R264, R265). -/
def gotResponse (isRead : Bool) : Handler := fun _ rx d =>
  match d.c.reqs.look rx.tag with
  | some r =>
    if r.peer ≠ rx.peer ∨ r.isRead ≠ isRead ∨ r.held.isSome then onCtl (satF (portF R.PORT_ERR1.LATE rx.port) 1) d
    else if coincides d.c r then
      onCtl (fun c => tenSpend R.TEN_COINCIDE.COUNT
        { c with reqs := c.reqs.put rx.tag { r with held := some ⟨rx.port, rx.status, rx.frame.payload⟩ } }) d
    else reqAnswer r rx.status rx.frame.payload (onCtl (fun c => { c with reqs := c.reqs.del rx.tag }) d)
  | none => onCtl (satF (portF R.PORT_ERR1.LATE rx.port) 1) d

/-- The deadline of request `tag` expires: zeros, a LINK event, a check failure of the OPEN step with cause RMA_TMO (R263, R318). -/
def reqExpire (tag : Nat) (r : Req) (d : Dev) : Dev :=
  let expired (d : Dev) : Dev := onCtl (fun c => faultIfOpen 0x0A 0 (raiseLinkPeer 0x09 srcDevice r.peer 0 { c with reqs := c.reqs.del tag })) d
  reqNext r.cont (inCycleDev (fun d => reqTake r 0 (zeros (if r.isRead then r.len else 0)) (expired d)) d)

/-- A request at the boundary at which its deadline lies: a response held for the cycle before or for the boundary cycle counts as arrived, one held for the cycle after is late (R264, R469). -/
def reqDue (tag : Nat) (d : Dev) : Dev :=
  match d.c.reqs.look tag with
  | some r =>
    if r.deadline ≤ d.c.ticks then
      match r.held with
      | some h =>
        if tenF d.c R.TEN_COINCIDE.WHEN = 2 then
          onCtl (satF (portF R.PORT_ERR1.LATE h.port) 1) (reqExpire tag r d)
        else reqAnswer r h.status h.data (onCtl (fun c => { c with reqs := c.reqs.del tag }) d)
      | none => reqExpire tag r d
    else d
  | none => d

/-- Every deadline that has come, at a boundary. -/
def reqsDue (d : Dev) : Dev := (d.c.reqs.map (·.1)).foldl (fun d t => reqDue t d) d

/-! ### Requests served here (R27, R243) -/

/-- Whether a run of bytes touches WEIGHTS or OPTIM. -/
def inShard (c : Ctl) (a n : Nat) : Bool := (unitsOf a n).any (fun u => inPart c 0 u.1 || inPart c 1 u.1)

/-- A read request is served. -/
def serveRead (rx : Rx) (d : Dev) : Dev :=
  let r := readRun false (rx.addr % 2 ^ 48) rx.arg d
  onCtl (respond rx.peer 0x02 rx.tag (if r.2.1 then 0 else 1) rx.addr r.1) r.2.2

/-- READ_REQ: in tight weave, a read of WEIGHTS or OPTIM in a commit beat is held until the next boundary (R27). -/
def gotReadReq : Handler := fun _ rx d =>
  if getB d.c R.STEP_STATUS.COMMIT && !getB d.c R.BEAT_CFG.WEAVE && inShard d.c (rx.addr % 2 ^ 48) rx.arg then
    onCtl (fun c => { c with heldReads := c.heldReads ++ [rx] }) d
  else serveRead rx d

/-- Reads held over the commit beat are served in order of arrival; those of peers no longer admitted are dropped. -/
def heldReadsServe (d : Dev) : Dev :=
  let l := d.c.heldReads
  l.foldl (fun d rx => if peerIs d.c rx.peer 2 then serveRead rx d else d) (onCtl (fun c => { c with heldReads := [] }) d)

/-- The parts of a request that a stack holds are acknowledged, when they have been performed, with the STATUS of the rest. -/
def heldStatus (peer tag status : Nat) (c : Ctl) : Ctl :=
  let set (w : HeldFor) : HeldFor := if w = .remote peer tag 0 then .remote peer tag status else w
  { c with slu := { c.slu with held := c.slu.held.map (fun (h : HeldWrite) => { h with who := set h.who }) } }

/-- The acknowledgement of a write: at once if all of it has been performed (R243, R401). -/
def acknowledge (rx : Rx) (e : Ended) (d : Dev) : Dev :=
  match e with
  | .now s => onCtl (respond rx.peer 0x05 rx.tag s 0 []) d
  | .later s => onCtl (heldStatus rx.peer rx.tag s) d

/-- A write into WEIGHTS or OPTIM once a step has opened is refused (R27). -/
def writeRefused (rx : Rx) (d : Dev) : Option Dev :=
  if d.c.step.opened && inShard d.c (rx.addr % 2 ^ 48) rx.frame.payload.length then
    some (acknowledge rx (.now 2) (onCtl (raise evMemory 0x03 srcDevice (rx.addr % 2 ^ 48)) d))
  else none

/-- WRITE: performed, then acknowledged; 32 bytes at the atomic port are a request (R184, R185, R243). -/
def gotWrite : Handler := fun _ rx d =>
  match writeRefused rx d with
  | some d => d
  | none =>
    let r := writeRun (rx.addr % 2 ^ 48) rx.frame.payload (.remote rx.peer rx.tag 0) d
    acknowledge rx r.2 r.1

/-- ADD_WRITE (R178, R243). -/
def gotAddWrite : Handler := fun _ rx d =>
  match writeRefused rx d with
  | some d => d
  | none =>
    let fmt := rx.frame.hdr.fmt.toNat
    let k := max 1 (codeBits fmt / 8)
    let r := addRun fmt (rx.addr % 2 ^ 48 / k * k) rx.frame.payload (.remote rx.peer rx.tag 0) d
    acknowledge rx r.2 r.1

/-! ### The commands -/

/-- READ_REQ. -/
def execReadReq (rx : Rx) (s : State) : Host.Outcome State Fault Refusal := runDev (arrive 2 0x01 gotReadReq rx) s

/-- READ_RSP. -/
def execReadRsp (rx : Rx) (s : State) : Host.Outcome State Fault Refusal := runDev (arrive 2 0x02 (gotResponse true) rx) s

/-- WRITE. -/
def execWrite (rx : Rx) (s : State) : Host.Outcome State Fault Refusal := runDev (arrive 2 0x03 gotWrite rx) s

/-- ADD_WRITE. -/
def execAddWrite (rx : Rx) (s : State) : Host.Outcome State Fault Refusal := runDev (arrive 2 0x04 gotAddWrite rx) s

/-- ACK. -/
def execAck (rx : Rx) (s : State) : Host.Outcome State Fault Refusal := runDev (arrive 2 0x05 (gotResponse false) rx) s

/-- RMA_DEADLINE. -/
def execRmaDeadline (tag : Nat) (s : State) : Host.Outcome State Fault Refusal := runDev (reqDue tag) s

/-- PORTHOLE_READ. -/
def execPortholeRead (off width : Nat) (s : State) : Host.Outcome State Fault Refusal :=
  runDev (hostRequest { isRead := true, bar0 := false, off := off, width := width, data := 0 }) s

/-- PORTHOLE_WRITE. -/
def execPortholeWrite (off width : Nat) (v : Dword) (s : State) : Host.Outcome State Fault Refusal :=
  runDev (hostRequest { isRead := false, bar0 := false, off := off, width := width, data := v }) s

/-- PORTHOLE_READ_TIMEOUT. -/
def execPortholeReadTimeout (s : State) : Host.Outcome State Fault Refusal := runDev portholeTimeout s

/-- REGISTER_WRITE, as the host's write through BAR0 (R187, R448, R449; log entry 156). -/
def execRegisterWrite (off width : Nat) (v : Dword) (s : State) : Host.Outcome State Fault Refusal :=
  runDev (hostRequest { isRead := false, bar0 := true, off := off, width := width, data := v }) s

/-- EVT_POP: the host writes 1 to EVT_POP (R456, R460; log entry 156). -/
def execEvtPop (s : State) : Host.Outcome State Fault Refusal :=
  runDev (hostRequest { isRead := false, bar0 := true, off := R.EVT_POP.adr, width := 4, data := 1 }) s

/-- IRQ_STATUS_CLEAR: the host writes IRQ_STATUS (R458, R462; log entry 156). -/
def execIrqStatusClear (v : Dword) (s : State) : Host.Outcome State Fault Refusal :=
  runDev (hostRequest { isRead := false, bar0 := true, off := R.IRQ_STATUS.adr, width := 8, data := v }) s

/-- IRQ_ENABLE_WRITE: the host writes IRQ_ENABLE (R458, R462; log entry 156). -/
def execIrqEnableWrite (v : Dword) (s : State) : Host.Outcome State Fault Refusal :=
  runDev (hostRequest { isRead := false, bar0 := true, off := R.IRQ_ENABLE.adr, width := 8, data := v }) s

/-- GOV_REC_DATA_READ: the host reads the selected record word through BAR0 (R122; log entry 156). -/
def execGovRecDataRead (s : State) : Host.Outcome State Fault Refusal :=
  runDev (hostRequest { isRead := true, bar0 := true, off := R.GOV_REC_DATA.adr, width := 4, data := 0 }) s

/-- DBG_ACC_READ: the host reads DBG_ACC_DATA through BAR0 (R475, R483; log entry 156). -/
def execDbgAccRead (s : State) : Host.Outcome State Fault Refusal :=
  runDev (hostRequest { isRead := true, bar0 := true, off := R.DBG_ACC_DATA.adr, width := 8, data := 0 }) s

/-- ATOMIC_SLOT_FILL. -/
def execAtomicSlotFill (m off width : Nat) (v : Dword) (s : State) : Host.Outcome State Fault Refusal := runDev (slotFill m off width v) s

/-- FUNCTION_LEVEL_RESET: the link stays up. -/
def execFunctionLevelReset (s : State) : Host.Outcome State Fault Refusal := runDev (fun d => if hostLink d.c then hostResetRun false true d else d) s

/-- HOT_RESET. -/
def execHotReset (s : State) : Host.Outcome State Fault Refusal := runDev (fun d => if d.c.host.linkUp then hostResetRun true true d else d) s

/-- LINK_LOSS. -/
def execLinkLoss (s : State) : Host.Outcome State Fault Refusal := runDev (fun d => if d.c.host.linkUp then hostResetRun true true d else d) s

/-- PERST: a conventional reset of the host port (R489); its link trains anew, and RESETS does not count it. -/
def execPerst (s : State) : Host.Outcome State Fault Refusal := runDev (hostResetRun true false) s

end Sys2Proof.Machine
end

