-- ==== Sys2Proof/Machine/Module.lean ====
section
/-! DEFINITION. The module: input power, resets, reference clocks, the management controller on SMBus (R429, R485 to R498). -/

namespace Sys2Proof.Machine

/-- The module's power state changed. -/
def onPwr (f : Power → Power) (c : Ctl) : Ctl := { c with pwr := f c.pwr }

/-- A firmware write under way leaves the slot being written unauthenticated (R431, R488). -/
def flashCut (c : Ctl) : Flash :=
  if c.fw.staging then
    if fwOther c = 0 then { c.flash with badA := true } else { c.flash with badB := true }
  else c.flash

/-- The whole module in power-on state: fuses and flash stay, and what the management controller and the pins hold (R429, R487). -/
def powerOnState (c : Ctl) : Dev :=
  { c := { Ctl.reset with fuses := c.fuses, flash := flashCut c, pwr := c.pwr }, m := { gen := 0, cells := [] } }

/-- When the module begins to run, units named by repair records are left out of service before their self-tests (R428). -/
def startUp (d : Dev) : Dev := if running d.c then onCtl applyRepairs d else d

/-- Input power is applied: the regulators switch on (R485). -/
def applyPower (d : Dev) : Dev :=
  if d.c.pwr.input then d
  else startUp (onCtl (onPwr (fun p => { p with input := true, on := true, latched := false })) d)

/-- RESET_N is released: the functions begin (R429). -/
def resetRelease (d : Dev) : Dev :=
  if d.c.pwr.released then d else startUp (onCtl (onPwr (fun p => { p with released := true })) d)

/-- RESET_N low for 100 µs: power-on state, and the wait after a lost system clock ends if the clock is there (R489, R495). -/
def sidebandReset (d : Dev) : Dev :=
  onCtl (onPwr (fun p => { p with released := false, held := p.held && p.noSystem })) (powerOnState d.c)

/-- Bits of MOD_STATUS set while the management controller runs. -/
def modSet (m : BitVec 16) (c : Ctl) : Ctl := if c.pwr.input then onPwr (fun p => { p with modStatus := p.modStatus ||| m }) c else c

/-- The regulators switch off with a cause for LAST_OFF (R487, R498): the module loses its state. -/
def switchOff (why : Nat) (latch : Bool) (d : Dev) : Dev :=
  if !d.c.pwr.input || !d.c.pwr.on then d
  else
    onCtl (onPwr (fun p => { p with
      on := false
      latched := latch
      modStatus := (p.modStatus &&& ~~~ 0x700#16 &&& ~~~ (if why = 1 ∨ why = 2 then 3#16 else 0#16)) ||| BitVec.ofNat 16 (why * 2 ^ 8) }))
      (powerOnState d.c)

/-- Any sensor at 125 °C: HOT is set, since one has read 110 °C or more, and the regulators switch off until input power is removed (R403, R487, R498). -/
def overheat (d : Dev) : Dev := switchOff 4 true (onCtl (modSet 8) d)

/-- VIN has been within range for 10 ms after an undervoltage: a power-on (R487). -/
def restartPower (d : Dev) : Dev :=
  let p := d.c.pwr
  if !p.input || p.on || p.latched then d
  else startUp (onCtl (onPwr (fun p => { p with on := true, modStatus := p.modStatus &&& ~~~ 3#16 })) d)

/-- Input power is removed, and the management controller stops (R488, R490). -/
def removePower (d : Dev) : Dev :=
  onCtl (onPwr (fun p => { p with input := false, on := false, latched := false, held := p.held && p.noSystem, modStatus := 0, pinPeak := 0, plateIn := none, plateOut := none }))
    (powerOnState d.c)

/-- Every receive lane in service of a live port has lost lock: the port is charged for each and goes down (R232, R384, R495). DESIGN CHOICE (log entry 166): the lanes are in service again when the port has trained after RESTART. -/
def lockLost (p : Nat) (c : Ctl) : Ctl :=
  let lanes := ((List.range 8).filter (fun l => !(portSt c p).rxOut.getLsbD l)).length
  let c := if portLive c p then forN lanes (fun _ => chargeUnit kLane (srcPort p)) c else c
  if [1, 2, 3].contains (getF c (portF R.PORT_STATUS.STATE p)) then portDown p downLanes c else c

/-- The timebase stops: the device has left the job's time messages, which it joins again only with another draft (R32, R495). DESIGN CHOICE (log entry 166). -/
def timebaseStops (c : Ctl) : Ctl :=
  setB R.BEAT_STATUS.RUNNING false (setB R.BEAT_STATUS.ALIGNED false (setB R.BEAT_STRETCH.NEXT_VALID false
    { c with time := { TimeSt.reset with adj := c.time.adj, lost := c.time.lost, stopped := true } }))

/-- A reference clock has been missing for 1 µs (R495). -/
def clockLost (k : RefClk) (d : Dev) : Dev :=
  match k with
  | .pcie =>
    let d := onCtl (fun c => modSet 0x10 (onPwr (fun p => { p with noPcie := true }) c)) d
    if running d.c && d.c.host.linkUp then hostResetRun true true d else d
  | .fabric =>
    onCtl (fun c =>
      let c := modSet 0x20 (onPwr (fun p => { p with noFabric := true }) c)
      if running c then inCycle (fun c => timebaseStops (forN 38 lockLost c)) c else c) d
  | .system =>
    let d := onCtl (fun c => modSet 0x40 (onPwr (fun p => { p with noSystem := true, held := true }) c)) d
    powerOnState d.c

/-- A reference clock is back (R495). With RESET_N low the module's wait for it is over. -/
def clockBack (k : RefClk) (d : Dev) : Dev :=
  onCtl (onPwr (fun p => match k with
    | .pcie => { p with noPcie := false }
    | .fabric => { p with noFabric := false }
    | .system => { p with noSystem := false, held := p.held && p.released })) d

/-! ### SMBus (R498) -/

/-- The management controller's address (R498). -/
def smbAddress (c : Ctl) : Nat := 0x58 + c.pwr.smbAddr.toNat

/-- One byte more of a packet error code: the CRC-8 of SMBus, of polynomial x^8 + x^2 + x + 1. PRESUMED (log entry 167): R498 names SMBus 3.0 and not the code. -/
def pecByte (crc : Nat) (b : Byte) : Nat :=
  forN 8 (fun _ x => if 128 ≤ x then (2 * x ^^^ 0x107) % 256 else 2 * x) (crc ^^^ b.toNat)

/-- The packet error code of the bytes of a transfer, its address bytes among them. -/
def pecOf (bs : List Byte) : Nat := bs.foldl pecByte 0

/-- The controller takes part in a transfer: input power is there, and the transfer names its address (R490, R498). -/
def smbHears (addr : BitVec 7) (c : Ctl) : Bool := c.pwr.input && addr.toNat == smbAddress c

/-- A read is answered, with a packet error code if the host takes one (R498). -/
def smbAnswer (cmd : Nat) (x : SmbRead) (bs : Ctl → List Byte) (c : Ctl) : Ctl :=
  if smbHears x.addr c then
    let a := smbAddress c
    let body := if cmd = 0 then BitVec.ofNat 8 (bs c).length :: bs c else bs c
    let pec := pecOf ([BitVec.ofNat 8 (2 * a), BitVec.ofNat 8 cmd, BitVec.ofNat 8 (2 * a + 1)] ++ body)
    onPwr (fun p => { p with smb := p.smb ++ [(cmd, if x.pec then bs c ++ [BitVec.ofNat 8 pec] else bs c)] }) c
  else c

/-- A word write acts, unless the host has sent a packet error code with it that is wrong (R498). -/
def smbTaken (cmd : Nat) (x : SmbWrite) (c : Ctl) : Bool :=
  smbHears x.addr c && (match x.pec with
    | some b => b.toNat == pecOf ([BitVec.ofNat 8 (2 * smbAddress c), BitVec.ofNat 8 cmd] ++ leBytes 2 x.value.toNat)
    | none => true)

/-- MOD_STATUS as it reads: RUNNING says that the regulators are on and RESET_N is released. -/
def modStatusNow (c : Ctl) : BitVec 16 := (c.pwr.modStatus &&& ~~~ 0x80#16) ||| (if c.pwr.on && c.pwr.released then 0x80#16 else 0#16)

/-- ALERT_N is held low. -/
def alertLow (c : Ctl) : Bool := c.pwr.modStatus &&& 0x7F != 0

/-- Serial, grade code, stepping, reserved bytes. -/
def modIdBytes (c : Ctl) : List Byte :=
  leBytes 8 c.fuses.serial.toNat ++ leBytes 1 (gradeCode c.fuses.grade) ++ leBytes 1 c.fuses.stepping.toNat ++ zeros 6

/-- The hottest FAN_TEMP sensor, or 0xFFFF while it is unavailable. -/
def tempMaxNow (c : Ctl) : Nat :=
  if running c && mainReady c 7 then (List.range 104).foldl (fun m i => max m (sensorT c i)) 0 else 0xFFFF

/-- A word reading. -/
def smbWord (cmd : Nat) (x : SmbRead) (v : BitVec 16) : Ctl → Ctl := smbAnswer cmd x (fun _ => leBytes 2 v.toNat)

/-- The input power measured since the peak was cleared has reached v. -/
def pinMeasured (v : BitVec 16) (c : Ctl) : Ctl :=
  if c.pwr.input then onPwr (fun p => { p with pinPeak := if p.pinPeak ≤ v then v else p.pinPeak }) c else c

/-- PIN is read: PIN_PEAK keeps the highest. -/
def readPin (x : SmbRead) (v : BitVec 16) (c : Ctl) : Ctl := smbWord 0x12 x v (pinMeasured v c)

/-- PIN_PEAK is read: the highest input power that the controller has measured since it was cleared, which is no less than what it has answered (R498). -/
def readPinPeak (x : SmbRead) (v : BitVec 16) (c : Ctl) : Ctl := smbAnswer 0x13 x (fun c => leBytes 2 c.pwr.pinPeak.toNat) (pinMeasured v c)

/-- A bit of MOD_STATUS follows a condition, while the controller runs. -/
def modFollow (m : BitVec 16) (b : Bool) (c : Ctl) : Ctl :=
  if c.pwr.input then onPwr (fun p => { p with modStatus := (p.modStatus &&& ~~~ m) ||| (if b then m else 0) }) c else c

/-- Whether coolant temperatures call for COOL_WARN: the inlet above 42 °C, or the outlet more than 12 K above it (R492). -/
def coolShort (plateIn plateOut : Option Nat) : Bool :=
  match plateIn with
  | some i => decide (336 < i) || (match plateOut with
    | some o => decide (i + 96 < o)
    | none => false)
  | none => false

/-- Coolant temperatures measured, which COOL_WARN follows (R492, R498). -/
def coolant (plateIn plateOut : Option Nat) (c : Ctl) : Ctl :=
  if c.pwr.input then
    let i := plateIn <|> c.pwr.plateIn
    let o := plateOut <|> c.pwr.plateOut
    modFollow 4 (coolShort i o) (onPwr (fun p => { p with plateIn := i, plateOut := o }) c)
  else c

/-! ### The commands, which act whether or not the module runs -/

/-- A meaning that changes control state. -/
def pinCtl (f : Ctl → Ctl) (s : State) : Host.Outcome State Fault Refusal := .next (onDev (onCtl f) s)

/-- A meaning that changes the device. -/
def pinDev (f : Dev → Dev) (s : State) : Host.Outcome State Fault Refusal := .next (onDev f s)

/-- POWER_ON. -/
def execPowerOn (s : State) : Host.Outcome State Fault Refusal := pinDev applyPower s

/-- RESET_RELEASE. -/
def execResetRelease (s : State) : Host.Outcome State Fault Refusal := pinDev resetRelease s

/-- SIDEBAND_RESET. -/
def execSidebandReset (s : State) : Host.Outcome State Fault Refusal := pinDev sidebandReset s

/-- UNDERVOLTAGE_OFF. -/
def execUndervoltageOff (s : State) : Host.Outcome State Fault Refusal := pinDev (switchOff 1 false) s

/-- UNDERVOLTAGE_RESTART. -/
def execUndervoltageRestart (s : State) : Host.Outcome State Fault Refusal := pinDev restartPower s

/-- OVERVOLTAGE_OFF. -/
def execOvervoltageOff (s : State) : Host.Outcome State Fault Refusal := pinDev (switchOff 2 true) s

/-- OVERCURRENT_OFF. -/
def execOvercurrentOff (s : State) : Host.Outcome State Fault Refusal := pinDev (switchOff 3 true) s

/-- OVERTEMP_OFF. -/
def execOvertempOff (s : State) : Host.Outcome State Fault Refusal := pinDev overheat s

/-- POWER_REMOVED. -/
def execPowerRemoved (s : State) : Host.Outcome State Fault Refusal := pinDev removePower s

/-- REFCLK_LOSS. -/
def execRefclkLoss (k : RefClk) (s : State) : Host.Outcome State Fault Refusal := pinDev (clockLost k) s

/-- REFCLK_RETURN. -/
def execRefclkReturn (k : RefClk) (s : State) : Host.Outcome State Fault Refusal := pinDev (clockBack k) s

/-- VIN_WARN_CHANGE. -/
def execVinWarnChange (uv ov : Bool) (s : State) : Host.Outcome State Fault Refusal := pinCtl (fun c => modFollow 2 ov (modFollow 1 uv c)) s

/-- COOL_WARN_CHANGE: the coolant as measured when it crosses a limit. -/
def execCoolWarnChange (inlet : BitVec 16) (s : State) (outlet : BitVec 16 := 0) : Host.Outcome State Fault Refusal :=
  pinCtl (coolant (some inlet.toNat) (some outlet.toNat)) s

/-- MOD_ID. -/
def execModId (s : State) (x : SmbRead := SmbRead.plain) : Host.Outcome State Fault Refusal := pinCtl (smbAnswer 0x00 x modIdBytes) s

/-- VIN. -/
def execVin (x : SmbRead) (s : State) (reading : BitVec 16 := 0) : Host.Outcome State Fault Refusal := pinCtl (smbWord 0x10 x reading) s

/-- IIN. -/
def execIin (x : SmbRead) (s : State) (reading : BitVec 16 := 0) : Host.Outcome State Fault Refusal := pinCtl (smbWord 0x11 x reading) s

/-- PIN. -/
def execPin (x : SmbRead) (s : State) (reading : BitVec 16 := 0) : Host.Outcome State Fault Refusal := pinCtl (readPin x reading) s

/-- PIN_PEAK. -/
def execPinPeak (s : State) (x : SmbRead := SmbRead.plain) (peak : BitVec 16 := 0) : Host.Outcome State Fault Refusal := pinCtl (readPinPeak x peak) s

/-- PIN_PEAK_CLEAR. -/
def execPinPeakClear (s : State) (x : SmbWrite := SmbWrite.plain) : Host.Outcome State Fault Refusal :=
  pinCtl (fun c => if smbTaken 0x13 x c then onPwr (fun p => { p with pinPeak := 0 }) c else c) s

/-- TEMP_MAX. -/
def execTempMax (s : State) (x : SmbRead := SmbRead.plain) : Host.Outcome State Fault Refusal := pinCtl (smbAnswer 0x20 x (fun c => leBytes 2 (tempMaxNow c))) s

/-- PLATE_IN. -/
def execPlateIn (x : SmbRead) (s : State) (reading : BitVec 16 := 0) : Host.Outcome State Fault Refusal :=
  pinCtl (fun c => smbWord 0x21 x reading (coolant (some reading.toNat) none c)) s

/-- PLATE_OUT. -/
def execPlateOut (x : SmbRead) (s : State) (reading : BitVec 16 := 0) : Host.Outcome State Fault Refusal :=
  pinCtl (fun c => smbWord 0x22 x reading (coolant none (some reading.toNat) c)) s

/-- MOD_STATUS read. -/
def execModStatus (s : State) (x : SmbRead := SmbRead.plain) : Host.Outcome State Fault Refusal := pinCtl (smbAnswer 0x30 x (fun c => leBytes 2 (modStatusNow c).toNat)) s

/-- MOD_STATUS written: the W1C bits 3 to 6. -/
def execModStatusWrite (x : SmbWrite) (s : State) : Host.Outcome State Fault Refusal :=
  pinCtl (fun c => if smbTaken 0x30 x c then onPwr (fun p => { p with modStatus := p.modStatus &&& ~~~ (x.value &&& 0x78) }) c else c) s

end Sys2Proof.Machine
end

