-- ==== Sys2Proof/Machine/Coll.lean ====
section
/-! DEFINITION. Collectives: the COLL picks and their frames (R287 to R293), the ordered reductions (R290), the VOTE (R294 to R297), the digest gather (R326), the loss of a COLL frame (R245, R246). -/

namespace Sys2Proof.Machine

/-- The collectives changed. -/
def onColl (f : CollSt → CollSt) (c : Ctl) : Ctl := { c with coll := f c.coll }

/-- The collective of core p changed. -/
def onCollRun (p : Nat) (f : CollRun → CollRun) (c : Ctl) : Ctl := onColl (fun x => { x with runs := x.runs.adjust p f }) c

/-- Opcode of COLL. -/
def opColl : Nat := 0x38

/-! ### Shape of a collective (R288, R290) -/

/-- Whether it reduces. -/
def CollRun.reduces (r : CollRun) : Bool := r.type == 1 || r.type == 2

/-- Sub-rings of the group; one with ALG = RING. -/
def CollRun.rings (r : CollRun) : Nat := r.ranks / r.sub

/-- Own sub-ring, and own place in it. -/
def CollRun.ring (r : CollRun) : Nat := r.rank / r.sub
def CollRun.place (r : CollRun) : Nat := r.rank % r.sub

/-- The vector element that the output's first element is (R292). -/
def CollRun.outFirst (r : CollRun) : Nat := if r.type = 1 then r.rank * r.chunk else 0

/-- Elements of the input (R288). -/
def CollRun.inLen (r : CollRun) : Nat := if r.reduces then r.ranks * r.chunk else if r.type = 4 && r.rank != r.root then 0 else r.chunk

/-- Every other rank. -/
def CollRun.others (r : CollRun) : List Nat := (List.range r.ranks).filter (· != r.rank)

/-- Next rank in the own sub-ring, and the same place in the next sub-ring (R290). -/
def CollRun.nextIn (r : CollRun) : Nat := r.sub * r.ring + (r.place + 1) % r.sub
def CollRun.nextRing (r : CollRun) : Nat := r.sub * ((r.ring + 1) % r.rings) + r.place

/-- The ranks to which this member sends data of the collective (R288, R290). -/
def CollRun.dests (r : CollRun) : List Nat :=
  let l := match r.type with
    | 1 => [r.nextIn, r.nextRing]
    | 2 | 3 => r.others
    | 4 => if r.rank = r.root then r.others else []
    | _ => [(r.rank + 1) % r.ranks]
  l.filter (· != r.rank)

/-- The ranks that send data of the collective to this member, each of which its CREADY goes to (R293). -/
def CollRun.sources (r : CollRun) : List Nat :=
  let before := (r.sub * r.ring + (r.place + r.sub - 1) % r.sub) :: [r.sub * ((r.ring + r.rings - 1) % r.rings) + r.place]
  let l := match r.type with
    | 1 => before
    | 2 => r.others
    | 3 => r.others
    | 4 => [r.root]
    | _ => [(r.rank + r.ranks - 1) % r.ranks]
  (l.filter (· != r.rank)).eraseDups

/-! ### Sending (R292, R293) -/

/-- A COLL frame to a roster number: the trailer and the step go with it as they stand (R292, R294). -/
def collOut (type n id first : Nat) (payload : List Byte) (c : Ctl) : Out :=
  { out 1 type n payload with addr := id % 2 ^ 32 + first % 2 ^ 32 * 2 ^ 32, arg := (stepTrailer c).toNat + getF c R.STEP_NOW.STEP % 2 ^ 16 * 2 ^ 16 }

/-- A COLL frame to the device that serves a rank's seat. -/
def collSend (r : CollRun) (x : CollSend) (c : Ctl) : Ctl :=
  match (r.members[x.rank]?).bind (deviceOf c) with
  | some n => sendAdmitted (collOut x.type n r.id x.first x.payload c) c
  | none => c

/-- Codes cut into the payloads of frames of at most 4,096 bytes, with the index of the first of each. -/
def collCut (bits : Nat) : Nat → Nat → List Nat → List (Nat × List Byte)
  | 0, _, _ => []
  | fuel + 1, first, codes =>
    if codes.isEmpty then []
    else
      let k := 32768 / bits
      (first, packRow bits 0 (codes.take k)) :: collCut bits fuel (first + k) (codes.drop k)

/-- Codes from element `first` on, queued for ranks (R293). -/
def collQueue (type bits first : Nat) (codes : List Nat) (dests : List Nat) (r : CollRun) : CollRun :=
  let l := (collCut bits codes.length first codes).flatMap (fun x => dests.map (fun d => CollSend.mk d type x.1 x.2))
  { r with queue := r.queue ++ l }

/-- What is queued goes to the ranks whose CREADY has arrived (R293). -/
def collFlush (p : Nat) (c : Ctl) : Ctl :=
  match c.coll.runs.look p with
  | some r =>
    (r.queue.filter (fun x => r.ready.contains x.rank)).foldl (fun c x => collSend r x c)
      (onCollRun p (fun r => { r with queue := r.queue.filter (fun x => !r.ready.contains x.rank) }) c)
  | none => c

/-! ### Output (R288, R291) -/

/-- Bytes the spec leaves undefined, from fresh free values (log entry 6). -/
def freeRun (n : Nat) (c : Ctl) : List Byte × Ctl :=
  ((List.range n).map (fun i => BitVec.ofNat 8 ((Config.freeBits (c.fresh + i / 32)).toNat / 2 ^ (8 * (i % 32)))),
    { c with fresh := c.fresh + (n + 31) / 32 })

/-- The bytes of output codes: undefined where the spec leaves the output undefined. -/
def collBytes (r : CollRun) (codes : List Nat) (c : Ctl) : List Byte × Ctl :=
  let bs := packRow (codeBits r.fmt) 0 codes
  if r.undef then freeRun bs.length c else (bs, c)

/-- Whether a frame of the collective from a rank is still to come: its data, or the CREADY without which data cannot go there (R293). -/
def CollRun.awaits (r : CollRun) (q : Nat) : Bool :=
  (r.left != 0 && r.sources.contains q) || (r.dests.contains q && !r.ready.contains q)

/-- A reduction's output that is NaN or infinite (R291). -/
def collNonfin (r : CollRun) (bs : List Byte) (c : Ctl) : Ctl :=
  if r.reduces && (List.range (bs.length / 4)).any (fun i => codeNonfin .f32 (leNat ((bs.drop (4 * i)).take 4))) then reportNonfin 0 c else c

/-- The collective of core p is over; its pick completes as soon as its last frame has left (R16, R293). -/
def collEnd (p : Nat) (c : Ctl) : Ctl := waitDone p 5 (onColl (fun x => { x with runs := Tab.del x.runs p }) c)

/-- The pick of core p stops at an absent unit (R151). -/
def collAbsent (p : Nat) (c : Ctl) : Ctl := tsAbsent p 0 (onColl (fun x => { x with runs := Tab.del x.runs p }) c)

/-- Codes of the vector from element `first` on are written, as far as they lie in the output. -/
def collWrite (p first : Nat) (codes : List Nat) (d : Dev) : Dev :=
  match d.c.coll.runs.look p with
  | none => d
  | some r =>
    let codes := if first < r.outFirst then [] else codes.take (r.outFirst + r.outLen - first)
    if codes.isEmpty then d
    else
      let b := collBytes r codes d.c
      let o := (first - r.outFirst) * codeBits r.fmt / 8
      inCycleDev (fun d =>
        let w := writeRun ((r.base + o) % 2 ^ 48) b.1 (.piece p o) d
        match w.2 with
        | .now 1 | .later 1 => onCtl (collAbsent p) w.1
        | .later _ => onCtl (tsWait p) w.1
        | .now _ => w.1)
        { d with c := onCollRun p (fun r => { r with left := r.left - codes.length }) (collNonfin r b.1 b.2) }

/-! ### The ordered sums (R290) -/

/-- What the additions of a member leave: its collective, partial sums for ranks, and finished elements. -/
structure Sums where
  run : CollRun
  parts : List (Nat × Nat × Nat)
  done : List (Nat × Nat)

/-- The running sum t of the sub-rings up to the own one, for element o. -/
def sumOver (o t : Nat) (x : Sums) : Sums :=
  let r := x.run
  let x := { x with run := { r with left := r.left - 1 } }
  if o / r.chunk / r.sub = r.ring then { x with done := x.done ++ [(o, t)] } else { x with parts := x.parts ++ [(r.nextRing, o, t)] }

/-- The sum p of the own sub-ring for element o, whose place is this member's. -/
def sumOwn (o p : Nat) (x : Sums) : Sums :=
  let r := x.run
  if (o / r.chunk / r.sub + 1) % r.rings = r.ring then sumOver o p x
  else match r.theirs.look o with
    | some t => sumOver o (addF32 t p) x
    | none => { x with run := { r with mine := r.mine.put o p } }

/-- The sum s of the own sub-ring up to this member, for element o. -/
def sumIn (o s : Nat) (x : Sums) : Sums :=
  let r := x.run
  let x := { x with run := { r with left := r.left - 1 } }
  if o / r.chunk % r.sub = r.place then sumOwn o s x else { x with parts := x.parts ++ [(r.nextIn, o, s)] }

/-- The running sum t of the sub-rings before the own one has arrived for element o. -/
def sumRing (o t : Nat) (x : Sums) : Sums :=
  match x.run.mine.look o with
  | some p => sumOver o (addF32 t p) x
  | none => { x with run := { x.run with theirs := x.run.theirs.put o t } }

/-- Own input of element o. -/
def CollRun.own (r : CollRun) (o : Nat) : Nat := r.input.getD o 0

/-- A partial sum that has arrived from a rank: of the own sub-ring, or of the sub-rings before it. -/
def sumGot (src o s : Nat) (x : Sums) : Sums :=
  let r := x.run
  if r.ranks * r.chunk ≤ o then x
  else if src / r.sub = r.ring then sumIn o (addF32 s (r.own o)) x
  else sumRing o s x

/-- Element o at a member that begins its chunk's sum (R290). -/
def sumStart (o : Nat) (x : Sums) : Sums :=
  let r := x.run
  if r.place = (o / r.chunk % r.sub + 1) % r.sub then sumIn o (r.own o) x else x

/-- Values with keys in rising order joined into runs: key, first element, values. -/
def joinRuns : List (Nat × Nat × Nat) → List (Nat × Nat × List Nat)
  | [] => []
  | (k, o, v) :: l =>
    match joinRuns l with
    | (k', o', vs) :: rest => if k' = k ∧ o' = o + 1 then (k, o, v :: vs) :: rest else (k, o, [v]) :: (k', o', vs) :: rest
    | [] => [(k, o, [v])]

/-- Sums leave: partial sums are queued as PART frames, finished elements are written and, in an ALL_REDUCE, queued as DATA frames. -/
def sumsOut (p : Nat) (x : Sums) (d : Dev) : Dev :=
  let r := (joinRuns x.parts).foldl (fun r q => collQueue 0x01 32 q.2.1 q.2.2 [q.1] r) x.run
  let done := joinRuns (x.done.map (fun e => (e.1 / r.chunk, e.1, e.2)))
  let r := if r.type = 2 then done.foldl (fun r q => collQueue 0x02 32 q.2.1 q.2.2 r.others r) r else r
  done.foldl (fun d q => collWrite p q.2.1 q.2.2 d) (onCtl (onCollRun p (fun _ => r)) d)

/-! ### The digest gather (R326) -/

/-- A digest gather has concluded: the digests received against the own one. -/
def digestGather (r : CollRun) (c : Ctl) : Ctl :=
  let own := r.input.flatMap (leBytes 4)
  let differ := (r.digs.filter (fun e => e.2 != own)).map (·.1)
  let s := getF c R.CHK_DIG_STEP.STEP
  let minor := decide (r.ranks < 2 * differ.length)
  let c := onColl (fun x => { x with due := x.due.filter (· != s), minority := minor }) (satF R.CHK_CNT1.DIG_COMPARES (r.digs.length - differ.length) c)
  match differ.min? with
  | none => c
  | some k =>
    let c := setB R.CHK_DIG_STATUS.MISMATCH true (setF R.CHK_DIG_STATUS.RANK k (satF R.CHK_CNT1.DIG_FAILS 1 c))
    let c := if minor then setB R.CHK_DIG_STATUS.MINORITY true c else c
    checkFail { failRec 0x06 srcDevice c with step := s - getF c R.STEP_CHECK_CFG.D_M1, detail := k } (raise evArith 0x06 srcDevice (k % 65536) c)

/-- The collective of core p sends what it may and, with nothing left to do, is over. -/
def collSettle (p : Nat) (d : Dev) : Dev :=
  let d := onCtl (collFlush p) d
  match d.c.coll.runs.look p with
  | some r => if r.left = 0 ∧ r.queue = [] then onCtl (fun c => collEnd p (if r.digest then digestGather r c else c)) d else d
  | none => d

/-! ### Starting (R287 to R290, R293) -/

/-- Local address of CHK_DIG0. -/
def digestAddr : Nat := regBase + R.CHK_DIG0.adr

/-- Whether two runs of local addresses share a byte. -/
def overlap (a n b m : Nat) : Bool := decide (0 < n) && decide (0 < m) && decide (a < b + m) && decide (b < a + n)

/-- The collective that a COLL pick begins, its input still to be read. -/
def collOf (c : Ctl) (run : Running) (l : List Nat) (rank : Nat) : CollRun :=
  let img := run.image
  let ty := imgF img 22 0 8
  let n := run.counts.getD 0 0 * run.counts.getD 1 0
  let a := imgBase img 0 % 2 ^ 48
  let o := imgBase img 1 % 2 ^ 48 -- DEDUCED (log entry 151): BASE_O in words 26 and 27, where R287 lists it for a COLL pick
  let id := imgW img 53
  let r : CollRun :=
    { id := id, type := ty, members := l, rank := rank, sub := if imgB img 52 16 && (ty == 1 || ty == 2) then 2 ^ imgF img 52 17 3 else l.length,
      chunk := n, root := imgF img 54 0 16, fmt := imgFmt img 2, base := o, input := [],
      digest := ty == 3 && a == digestAddr && imgFmt img 0 == 5 && n == 4, undef := false,
      ready := [], queue := [], mine := [], theirs := [], left := 0, digs := [] }
  { r with left := r.outLen + if r.reduces then r.ranks * r.chunk + r.rings * r.chunk else 0
           undef := c.coll.started.contains id ||
             (overlap a (rowLen (codeBits (imgFmt img 0)) r.inLen) o (rowLen (codeBits r.fmt) r.outLen) && !(ty == 2 && a == o)) }

/-- Its input, with whether every byte was mapped (R290). -/
def collInput (img : List Word) (r : CollRun) (d : Dev) : List Nat × Bool × Dev :=
  let bits := codeBits (imgFmt img 0)
  let x := readRun true (imgBase img 0 % 2 ^ 48) (rowLen bits r.inLen) d
  let codes := (List.range r.inLen).map (fun i => elemAt (fun k => x.1.getD k 0) bits 0 i)
  let fmt := (fmtOfCode (imgFmt img 0)).getD .f32
  let e := readScale d.c (imgFmt img 0) (imgTid img 0)
  (if r.reduces then codes.map (loadF32 fmt (imgSat img) e) else codes, x.2.1, x.2.2)

/-- What a collective does as soon as its input is there. -/
def collBegin (p : Nat) (r : CollRun) (d : Dev) : Dev :=
  let bits := codeBits r.fmt
  match r.type with
  | 1 | 2 => sumsOut p ((List.range (r.ranks * r.chunk)).foldl (fun x o => sumStart o x) ⟨r, [], []⟩) d
  | 3 =>
    let type := if r.digest then 0x10 else 0x02
    collWrite p (r.rank * r.chunk) r.input (onCtl (onCollRun p (collQueue type bits (r.rank * r.chunk) r.input r.others)) d)
  | 4 => if r.rank = r.root then collWrite p 0 r.input (onCtl (onCollRun p (collQueue 0x02 bits 0 r.input r.others)) d) else d
  | _ =>
    if r.ranks = 1 then collWrite p 0 r.input d
    else onCtl (onCollRun p (collQueue 0x03 bits 0 r.input [(r.rank + 1) % r.ranks])) d

/-- Whether its footprint meets that of a pick without an order to it (R156). -/
def collClash (c : Ctl) (p : Nat) (run : Running) (r : CollRun) : Bool :=
  let meets (l : List Span) (a n : Nat) : Bool := l.any (fun s => overlap a n s.1 s.2)
  meets (hotReads c p 5) (imgBase run.image 0 % 2 ^ 48) (rowLen (codeBits (imgFmt run.image 0)) r.inLen) ||
    meets (hotWrites c p 5) r.base (rowLen (codeBits r.fmt) r.outLen)

/-- The input of a collective that begins, with which it runs; at an absent unit the pick stops (R151). -/
def collFetch (p : Nat) (img : List Word) (r : CollRun) (d : Dev) : Dev :=
  let i := collInput img r d
  onCtl (if i.2.1 then onColl (fun x => { x with runs := Tab.put x.runs p { r with input := i.1 } }) else tsAbsent p 0) i.2.2

/-- A collective sends its CREADYs, and what it may (R293). -/
def collGo (p : Nat) (d : Dev) : Dev :=
  match d.c.coll.runs.look p with
  | some r => collSettle p (collBegin p r (onCtl (fun c => r.sources.foldl (fun c q => collSend r ⟨q, 0x04, 0, []⟩ c) c) d))
  | none => d

/-- A COLL pick has started: its COLL_ID is used. Another collective of that COLL_ID has an undefined output too (R156). -/
def collMark (p id : Nat) (c : Ctl) : Ctl :=
  let again (q : CollRun) : CollRun := if q.id = id then { q with undef := true } else q
  onColl (fun x => { x with started := id :: x.started, runs := x.runs.map (fun e => (e.1, again e.2)) })
    (updRun p 5 (fun (q : Running) => { q with worked := true, waiting := q.waiting + 1 }) c)

/-- A started COLL pick of core p, of a type but VOTE, begins. -/
def collStart (ty p : Nat) (d : Dev) : Dev :=
  match curRun d.c p 5 opColl with
  | some run =>
    if imgF run.image 22 0 8 != ty then d
    else match groupRank d.c (imgF run.image 52 0 12) with
      | none => d
      | some (l, rank) =>
        let r := collOf d.c run l rank
        collGo p (inCycleDev (collFetch p run.image { r with undef := r.undef || collClash d.c p run r }) (onCtl (collMark p r.id) d))
  | none => d

/-! ### The frames (R292, R293) -/

/-- A frame of the class COLL was lost: the check-failure state; a collective that still awaits a frame of that peer completes at once, its output undefined (R245, R246, R293). -/
def collLost (rx : Rx) (d : Dev) : Dev :=
  let d := onCtl (faultIfOpen 0x09 (srcPort rx.port)) d
  let hit := d.c.coll.runs.filter (fun e => (List.range e.2.ranks).any (fun q => e.2.awaits q && (e.2.members[q]?).bind (deviceOf d.c) == some rx.peer))
  hit.foldl (fun d e =>
    let d := onCtl (onCollRun e.1 (fun r => { r with undef := true })) d
    let d := collWrite e.1 e.2.outFirst (List.replicate e.2.outLen 0) d
    if d.c.coll.runs.has e.1 then onCtl (fun c => collEnd e.1 (updTs e.1 (fun r => { r with lost := true }) (setB R.COLL_STATUS.LOSS true c))) d else onCtl (setB R.COLL_STATUS.LOSS true) d) d

/-- Which way a COLL frame travels: to peers of its collective, or along the tree of the VOTE (R292, R295). -/
inductive CollWay where
  | across | up | down
  deriving DecidableEq, Repr

/-- Whether a COLL frame is of another step, or of a collective that has not started (R293). A VOTE_UP need not find a started pick; nor a VOTE_DOWN on a device that serves no seat, which has no pick lists and takes part in the VOTE from the step's opening (R295). -/
def collStray (way : CollWay) (rx : Rx) (c : Ctl) : Bool :=
  !stepOpen c || rx.arg / 2 ^ 16 != getF c R.STEP_NOW.STEP % 2 ^ 16 ||
    (way != .up && !c.coll.started.contains rx.word4 && !(way == .down && (mySeat c).isNone))

/-- A COLL frame: a stray one is discarded, any other is heard (R293, R294) and then handled. -/
def collFrame (way : CollWay) (f : Rx → Dev → Dev) : Handler := fun lost rx d =>
  let d := if lost = 0 then d else collLost rx d
  if collStray way rx d.c then onCtl (fun c => raiseLinkPeer 0x0D (srcPort rx.port) rx.peer 0 (satF R.COLL_STATUS.STRAY 1 c)) d
  else f rx (onCtl (hear (BitVec.ofNat 5 rx.arg)) d)

/-- A frame for a running collective, with its core and the sender's rank. -/
def collFor (f : Nat → CollRun → Nat → Rx → Dev → Dev) (rx : Rx) (d : Dev) : Dev :=
  match d.c.coll.runs.find? (fun e => e.2.id == rx.word4) with
  | none => d
  | some (p, r) =>
    match (List.range r.ranks).find? (fun q => (r.members[q]?).bind (deviceOf d.c) == some rx.peer) with
    | some q => inCycleDev (fun d => collSettle p (f p r q rx d)) d
    | none => d

/-- The codes of a payload in a width. -/
def payloadCodes (bits : Nat) (bs : List Byte) : List Nat :=
  (List.range (bs.length * 8 / bits)).map (fun i => elemAt (fun k => bs.getD k 0) bits 0 i)

/-- PART: partial sums of a reduction (R290, R292). -/
def gotPart : Handler := collFrame .across (collFor (fun p r q rx d =>
  if r.reduces then
    let v := payloadCodes 32 rx.frame.payload
    sumsOut p ((List.range v.length).foldl (fun x i => sumGot q (rx.word5 + i) (v.getD i 0) x) ⟨r, [], []⟩) d
  else d))

/-- DATA: final data of a reduction, a gather or a broadcast (R292). -/
def gotData : Handler := collFrame .across (collFor (fun p r _ rx d =>
  if r.type = 2 ∨ (r.type = 3 ∧ !r.digest) ∨ r.type = 4 then collWrite p rx.word5 (payloadCodes (codeBits r.fmt) rx.frame.payload) d else d))

/-- RING: the data of a RING_PASS (R292, R307). -/
def gotRing : Handler := collFrame .across (collFor (fun p r _ rx d =>
  if r.type = 5 then collWrite p rx.word5 (payloadCodes (codeBits r.fmt) rx.frame.payload) d else d))

/-- DIGEST: a gathered weight digest (R292, R326). -/
def gotDigest : Handler := collFrame .across (collFor (fun p r q rx d =>
  if r.digest then
    collWrite p (4 * q) (payloadCodes 32 rx.frame.payload) (onCtl (onCollRun p (fun r => { r with digs := Tab.put r.digs q rx.frame.payload })) d)
  else d))

/-- CREADY: data may be sent to its sender (R293). -/
def gotCready : Handler := collFrame .across (collFor (fun p _ q _ d => onCtl (onCollRun p (fun r => { r with ready := q :: r.ready })) d))

/-! ### The VOTE (R295, R296) -/

/-- A stretch request of this device: one made in the guard applies one beat later (R17). -/
def stretchAsk (s : Nat) (c : Ctl) : Ctl :=
  let s := min 16 s
  if c.time.inGuard then
    setB R.BEAT_STATUS.LATE_STRETCH (getB c R.BEAT_STATUS.LATE_STRETCH || decide (0 < s)) { c with time := { c.time with askLater := max c.time.askLater s } }
  else { c with time := { c.time with ask := max c.time.ask s } }

/-- The vote v is latched and passed on to the children; the pick of core p completes, and a STRETCH in it makes a request (R295, R296). -/
def voteLatch (p : Option Nat) (id : Nat) (v : BitVec 5) (c : Ctl) : Ctl :=
  let c := { c with step := { c.step with hasVote := true } }
  let c := setF R.VOTE_STATE.STEP (getF c R.STEP_NOW.STEP) (setB R.VOTE_STATE.VOTE_VALID true (setF R.VOTE_STATE.VOTE v.toNat c))
  let c := if v.getLsbD trCkfail then satF R.VOTE_COUNTS.VOTE_FAIL 1 c else c
  let c := (treeChildren c).foldl (fun c n => if peerIs c n 2 then sendLowest 2 { collOut 0x06 n id 0 [] c with arg := v.toNat + getF c R.STEP_NOW.STEP % 2 ^ 16 * 2 ^ 16 } c else c) c
  let c := onColl (fun x => { x with vote := none }) c
  let c := match p with
    | some p => waitDone p 5 c
    | none => c
  if v.getLsbD trStretch then stretchAsk (getF c R.VOTE_CFG.STRETCH_S) c else c

/-- The children whose VOTE_UP has not arrived. -/
def votesMissing (c : Ctl) : List Nat := (treeChildren c).filter (fun n => !c.coll.ups.has n)

/-- The member's VOTE_UP: the OR of its step trailer, the children's trailers, and CKFAIL for a missing child; the root latches it instead (R295). A member that serves no seat has no pick to give it the COLL_ID: it takes the highest that its children name. DESIGN CHOICE (log entry 169). -/
def voteSend (p : Option Nat) (id : Nat) (c : Ctl) : Ctl :=
  let missing := (votesMissing c).length
  let kids := (treeChildren c).foldl (fun v n => v ||| c.coll.ups.getD n 0) (if missing = 0 then 0 else trBit trCkfail true)
  let v := stepTrailer c ||| kids
  let id := if p.isSome then id else c.coll.upId
  let c := setF R.VOTE_STATE.MISSED (min 65535 missing) { c with step := { c.step with voteSent := true } }
  if isRoot c then voteLatch p id v c
  else match treeParent c with
    | some n => if peerIs c n 2 then sendLowest 1 { collOut 0x05 n id 0 [] c with arg := v.toNat + getF c R.STEP_NOW.STEP % 2 ^ 16 * 2 ^ 16 } c else c
    | none => c

/-- The VOTE under way sends its VOTE_UP once every child's has arrived. -/
def voteTry (c : Ctl) : Ctl :=
  match c.coll.vote with
  | some (p, id) => if !c.step.voteSent && (votesMissing c).isEmpty then voteSend p id c else c
  | none => c

/-- A started VOTE pick of core p begins. -/
def voteStart (p : Nat) (c : Ctl) : Ctl :=
  match curRun c p 5 opColl with
  | some run =>
    if imgF run.image 22 0 8 != 6 then c
    else
      let id := imgW run.image 53
      voteTry (onColl (fun x => { x with started := id :: x.started, vote := some (some p, id) })
        (updRun p 5 (fun (q : Running) => { q with worked := true, waiting := q.waiting + 1 }) { c with step := { c.step with hasVote := true } }))
  | none => c

/-- A device that serves no seat has no pick lists; as a member of the tree it takes part in the VOTE from the step's opening (R258, R295). -/
def voteOpen (c : Ctl) : Ctl :=
  if (mySeat c).isNone && (myPos c).isSome then voteTry (onColl (fun x => { x with vote := some (none, 0) }) c) else c

/-- WAIT_US has passed with a child's VOTE_UP missing (R295). -/
def voteExpire (c : Ctl) : Ctl :=
  match c.coll.vote with
  | some (p, id) => if !c.step.voteSent && !(votesMissing c).isEmpty then voteSend p id c else c
  | none => c

/-- VOTE_UP: a child's combined trailer; one that comes before the own pick starts is kept (R293, R295). -/
def gotVoteUp : Handler := collFrame .up (fun rx d =>
  onCtl (fun c => if (treeChildren c).contains rx.peer then voteTry (onColl (fun x => { x with ups := Tab.put x.ups rx.peer (BitVec.ofNat 5 rx.arg), upId := max x.upId rx.word4 }) c) else c) d)

/-- VOTE_DOWN: the job's vote, of which the first copy counts; a member that still waits for a child's VOTE_UP latches it too (R295). -/
def gotVoteDown : Handler := collFrame .down (fun rx d =>
  onCtl (fun c => match c.coll.vote with
    | some (p, id) => if (p.isNone || id == rx.word4) && treeParent c == some rx.peer then voteLatch p rx.word4 (BitVec.ofNat 5 rx.arg) c else c
    | none => c) d)

/-- At the guard a stopped pick's collective ends with it (R16). -/
def collGuard (c : Ctl) : Ctl :=
  let live := fun p => (tsRun c p).any (fun r => imgOp r.image == opColl && 0 < r.waiting)
  onColl (fun x => { x with runs := x.runs.filter (fun e => live e.1), vote := x.vote.filter (fun v => v.1.all live) }) c

/-! ### The commands -/

/-- REDUCE_SCATTER. -/
def execReduceScatter (p : Nat) (s : State) : Host.Outcome State Fault Refusal := runDev (onCore p (collStart 1 p)) s

/-- ALL_REDUCE. -/
def execAllReduce (p : Nat) (s : State) : Host.Outcome State Fault Refusal := runDev (onCore p (collStart 2 p)) s

/-- ALL_GATHER. -/
def execAllGather (p : Nat) (s : State) : Host.Outcome State Fault Refusal := runDev (onCore p (collStart 3 p)) s

/-- BROADCAST. -/
def execBroadcast (p : Nat) (s : State) : Host.Outcome State Fault Refusal := runDev (onCore p (collStart 4 p)) s

/-- RING_PASS. -/
def execRingPass (p : Nat) (s : State) : Host.Outcome State Fault Refusal := runDev (onCore p (collStart 5 p)) s

/-- VOTE. -/
def execVote (p : Nat) (s : State) : Host.Outcome State Fault Refusal := runDev (onCore p (onCtl (voteStart p))) s

/-- VOTE_WAIT_EXPIRY. -/
def execVoteWaitExpiry (s : State) : Host.Outcome State Fault Refusal := runCtl voteExpire s

/-- PART. -/
def execPart (rx : Rx) (s : State) : Host.Outcome State Fault Refusal := runDev (arrive 1 0x01 gotPart rx) s

/-- DATA. -/
def execData (rx : Rx) (s : State) : Host.Outcome State Fault Refusal := runDev (arrive 1 0x02 gotData rx) s

/-- RING. -/
def execRing (rx : Rx) (s : State) : Host.Outcome State Fault Refusal := runDev (arrive 1 0x03 gotRing rx) s

/-- CREADY. -/
def execCready (rx : Rx) (s : State) : Host.Outcome State Fault Refusal := runDev (arrive 1 0x04 gotCready rx) s

/-- VOTE_UP. -/
def execVoteUp (rx : Rx) (s : State) : Host.Outcome State Fault Refusal := runDev (arrive 1 0x05 gotVoteUp rx) s

/-- VOTE_DOWN. -/
def execVoteDown (rx : Rx) (s : State) : Host.Outcome State Fault Refusal := runDev (arrive 1 0x06 gotVoteDown rx) s

/-- DIGEST. -/
def execDigest (rx : Rx) (s : State) : Host.Outcome State Fault Refusal := runDev (arrive 1 0x10 gotDigest rx) s

end Sys2Proof.Machine
end

