-- ==== Sys2Proof/Machine/Retain.lean ====
section
/-! DEFINITION. The retain engine (R328 to R330, R334): the slots and their records, filing, the stretch history, the count registers of a replay, and the restore of a stage. -/

namespace Sys2Proof.Machine

/-- The retain engine changed. -/
def onRet (f : Retain → Retain) (c : Ctl) : Ctl := { c with ret := f c.ret }

/-- Local address and length of the stage (R328, R344). -/
def retStage (c : Ctl) : Nat := getF c R.RET_STAGE.BASE * 65536
def stageLen (c : Ctl) : Nat := getF c R.RET_CFG.STAGE_KIB * 1024

/-- Local address of the slot of step t; the slots follow the stage (R328, R329). -/
def slotBase (c : Ctl) (t : Nat) : Nat :=
  retStage c + stageLen c + t % getF c R.RET_CFG.SLOTS * retSlotBytes (getF c R.RET_CFG.STAGE_KIB)

/-- Where a slot holds the stage content (R330). -/
def slotStage : Nat := 0x8000

/-- The most stretch entries of a record (R330). -/
def stretchMax : Nat := 2048

/-- Whether step t is replayed from a record (R334). -/
def replayed (c : Ctl) (t : Nat) : Bool := getF c R.REC_STATE.STATE == 2 && c.ret.kept.contains t

/-- Whether the slot of the OPEN step holds the record that is being made. -/
def recordOpen (c : Ctl) : Bool :=
  c.ret.kept.contains (getF c R.STEP_NOW.STEP) || c.ret.filing == some (getF c R.STEP_NOW.STEP, true)

/-! ### The record (R329, R330) -/

/-- The stretch entries as stored. -/
def stretchBytes (l : List (Nat × Nat)) : List Byte := l.flatMap (fun e => leBytes 4 (e.1 % 2 ^ 16 + e.2 % 32 * 2 ^ 16))

/-- The count registers as stored: 128 bytes for each logical core (R330). -/
def countBytes (c : Ctl) : List Byte :=
  (List.range 64).flatMap (fun l => coreField c 128 l (fun p => (List.range 32).flatMap (fun n => leBytes 4 (cntOf c p n))))

/-- The record of the OPEN step: header, count registers, stretch entries so far. -/
def recordBytes (c : Ctl) : List Byte :=
  let e := stretchBytes c.ret.stretch
  leBytes 8 (getF c R.STEP_NOW.STEP) ++ leBytes 8 c.ret.first ++ leBytes 4 c.ret.ver ++ leBytes 1 c.step.kind ++ leBytes 1 0 ++
    leBytes 2 c.ret.stretch.length ++ leBytes 8 (getF c R.GOV_SEED.SEED) ++ leBytes 8 (stageLen c) ++ zeros 216 ++
    countBytes c ++ e ++ zeros (0x2000 - e.length)

/-- At the end of the first beat of step s its filing starts; a slot whose step is not released is not overwritten (R329). -/
def fileStart (d : Dev) : Dev :=
  let s := getF d.c R.STEP_NOW.STEP
  if getF d.c R.RET_CFG.SLOTS == 0 || replayed d.c s then d
  else
    let slots := getF d.c R.RET_CFG.SLOTS
    let free := !d.c.ret.kept.any (fun t => t != s && t % slots == s % slots)
    let d := onCtl (onRet (fun r => { r with filing := some (s, free), kept := r.kept.filter (· != s) })) d
    if free then writeLong (slotBase d.c s) (recordBytes d.c) d else d

/-- RETAIN_FILE_DONE: the stage is in the slot, and the record is valid for replay (R329). -/
def fileDone (d : Dev) : Dev :=
  match d.c.ret.filing with
  | some (s, true) =>
    let r := readLong (retStage d.c) (stageLen d.c) d
    let d := writeLong (slotBase d.c s + slotStage) r.1 r.2
    onCtl (onRet (fun r => { r with filing := none, kept := r.kept ++ [s] })) d
  | _ => d

/-- A filing that still runs at the commit beat is late, and its record is no record for a replay (R329). -/
def fileLate (c : Ctl) : Ctl :=
  match c.ret.filing with
  | some (s, _) =>
    if s = getF c R.STEP_NOW.STEP then setB R.RET_STATUS.FILE_LATE true (onRet (fun r => { r with filing := none }) c) else c
  | none => c

/-- Beat k of the OPEN step is stretched by s: an entry of its record (R17, R329, R330). -/
def noteStretch (k s : Nat) (d : Dev) : Dev :=
  if s = 0 ∨ replayed d.c (getF d.c R.STEP_NOW.STEP) ∨ getF d.c R.RET_CFG.SLOTS = 0 then d
  else if stretchMax ≤ d.c.ret.stretch.length then onCtl (setB R.RET_STATUS.STRETCH_FULL true) d
  else
    let n := d.c.ret.stretch.length
    let d := onCtl (onRet (fun r => { r with stretch := r.stretch ++ [(k, s)] })) d
    if recordOpen d.c then
      let b := slotBase d.c (getF d.c R.STEP_NOW.STEP)
      let d := (writeUnit (b + 0x2100 + 4 * n) (stretchBytes [(k, s)]) .nobody d).1
      (writeUnit (b + 0x16) (leBytes 2 (n + 1)) .nobody d).1
    else d

/-! ### Replay (R334) -/

/-- A field of the record of step t. -/
def recordField (d : Dev) (t o n : Nat) : Nat := leNat (readBytes d.m (slotBase d.c t + o) n)

/-- The recorded stretch of beat k of step t. -/
def recordedStretch (d : Dev) (t k : Nat) : Nat :=
  if d.c.ret.kept.contains t then
    let e := (List.range (min stretchMax (recordField d t 0x16 2))).map (fun i => recordField d t (0x2100 + 4 * i) 4)
    ((e.find? (fun x => x % 2 ^ 16 == k)).map (fun x => x / 2 ^ 16 % 32)).getD 0
  else 0

/-- The recorded stretch of the beat that follows: of the OPEN step in a replay, of the next replayed step, or of the first one. -/
def recordedNext (d : Dev) : Nat :=
  let st := getF d.c R.REC_STATE.STATE
  let s := getF d.c R.STEP_NOW.STEP
  if st = 2 ∧ stepOpen d.c then
    (if getB d.c R.STEP_STATUS.COMMIT then (if s < getF d.c R.REC_FAULT_STEP.STEP then recordedStretch d (s + 1) 0 else 0)
     else recordedStretch d s (d.c.step.beat + 1))
  else if st = 1 ∧ d.c.ret.resume = some (getF d.c R.BEAT_NOW.BEAT + 1) then recordedStretch d d.c.ret.point 0
  else 0

/-- A LIST fault of the retained record: the list kind or a count register differs (R318, R334). No subcode is listed for its event. -/
def recordFault (detail : Nat) (c : Ctl) : Ctl :=
  let c := drawn (raise evProgram ((freeValue c).toNat % 256) srcDevice 0 c)
  checkFail { failRec 0x0E srcDevice c with detail := detail } c

/-- At the end of a replayed step's first beat the count registers are compared with the record; the detail is 32 × logical core + number of the first that differs (R334). -/
def countsCheck (d : Dev) : Dev :=
  let s := getF d.c R.STEP_NOW.STEP
  if !replayed d.c s then d
  else
    let differs (i : Nat) : Bool :=
      match physCore d.c (i / 32) with
      | some p => recordField d s (0x100 + 4 * i) 4 != cntOf d.c p (i % 32)
      | none => false
    match (List.range 2048).find? differs with
    | some i => onCtl (fun c => recordFault i (setB R.RET_STATUS.CNT_DIVERGE true c)) d
    | none => d

/-- The end of the OPEN step's first beat (R329, R334). -/
def firstBeatEnd (d : Dev) : Dev := if stepOpen d.c && d.c.step.beat == 0 then fileStart (countsCheck d) else d

/-! ### Restoring a stage (R328, R333) -/

/-- A used target of step t (R328). -/
def targetOfStep (t : Nat) (x : RestoreTarget) : Bool := x.len != 0 && (x.parity == 2 || x.parity == t % 2)

/-- The restore targets of the draft. -/
def restoreTargets (c : Ctl) : List RestoreTarget := (c.job.map (·.check.targets)).getD []

/-- STAGE_RESTORE_DONE: the stage content of the step under way is in the targets of its parity, and then their chip flags are set (R333). -/
def stageRestored (d : Dev) : Dev :=
  match d.c.ret.restoring with
  | [] => d
  | t :: rest =>
    let l := (restoreTargets d.c).filter (targetOfStep t)
    let d := l.foldl (fun d x =>
      let r := readRun false (slotBase d.c t + slotStage + x.off) x.len d
      (writeRunPlain x.addr r.1 .nobody r.2.2).1) d
    let d := onCtl (fun c => l.foldl (fun c x => setChip 0 (BitVec.ofNat 64 x.flags) c) c) d
    onCtl (fun c => setB R.RET_STATUS.RESTORING (!rest.isEmpty) (onRet (fun r => { r with restoring := rest }) c)) d

/-- The rollback point has moved to u: the inputs of every step up to it are released (R25). -/
def retRelease (u : Nat) (c : Ctl) : Ctl :=
  { c with ret := { c.ret with kept := c.ret.kept.filter (fun t => decide (u < t)) },
           step := { c.step with marks := c.step.marks.filter (fun e => decide (u ≤ e.1)) } }

/-- RETAIN_FILE_DONE. -/
def execRetainFileDone (s : State) : Host.Outcome State Fault Refusal := runDev fileDone s

/-- STAGE_RESTORE_DONE. -/
def execStageRestoreDone (s : State) : Host.Outcome State Fault Refusal := runDev stageRestored s

end Sys2Proof.Machine
end

