-- ==== Sys2Proof/Machine/Time.lean ====
section
/-! DEFINITION. Time messages (R15 to R18, R24, R257 to R263): the timebase, a member's own values, combining, TIME_UP and TIME_DOWN, the offset from the parent, missing children. -/

namespace Sys2Proof.Machine

/-- The timebase works: it is READY, a draft is loaded and the fabric clock runs (R257, R444, R495). -/
def timeOn (c : Ctl) : Bool := mainReady c 4 && c.job.isSome && !c.pwr.noFabric

/-- Whether beats run (R32). -/
def beatsRun (c : Ctl) : Bool := timeOn c && getB c R.BEAT_STATUS.RUNNING

/-- The time messages changed. -/
def onTime (f : TimeSt → TimeSt) (c : Ctl) : Ctl := { c with time := f c.time }

/-- The timebase, modulo 2^32, when the own clock reads `now` nanoseconds (R260). -/
def tbAt (c : Ctl) (now : Nat) : Nat := ((now + c.time.adj) % 2 ^ 32).toNat

/-- RX_TIME of a TIME_UP that did not arrive (R260). -/
def noRxTime : Nat := 0xFFFFFFFF

/-! ### A member's own values (R18, R23, R24, R154, R297) -/

/-- Detection window N, and the draft's first step. -/
def windowN (c : Ctl) : Nat := getF c R.STEP_CHECK_CFG.N_M1 + 1
def firstStep (c : Ctl) : Nat := (c.job.map (·.seq.firstStep)).getD 0

/-- Whether the current beat is a commit beat (R21). -/
def commitBeat (c : Ctl) : Bool := getB c R.STEP_STATUS.COMMIT

/-- Whether the seal of the OPEN step s makes step s − N CHECKED: it is a step of the job and no check against it or an earlier one has failed (R22, R317). -/
def checksNext (c : Ctl) : Bool :=
  let s := getF c R.STEP_NOW.STEP
  decide (firstStep c + windowN c ≤ s) && !(getB c R.STEP_STATUS.BAD && decide (getF c R.STEP_BAD.STEP ≤ s - windowN c))

/-- The newest CHECKED step as the report sees it: in a commit beat the step that the seal makes CHECKED counts (R24). -/
def reportBound (c : Ctl) : Nat :=
  let k := if c.step.hasChecked then getF c R.STEP_CHECKED.STEP else 0
  if commitBeat c && checksNext c then max k (getF c R.STEP_NOW.STEP - windowN c) else k

/-- The snapshot report: the newest CHECKED step whose copy and drain are complete, 0 for none; a device that serves no seat has none to wait for (R24). -/
def snapReport (c : Ctl) : Nat :=
  let k := reportBound c
  let back := if c.step.hasRollback then getF c R.STEP_ROLLBACK.STEP else 0
  let own :=
    if (mySeat c).isSome then (c.snap.good.filter (· ≤ k)).foldl max 0
    else
      let i := max 1 ((c.job.map (·.snap.interval)).getD 1)
      (if firstStep c ≤ k - k % i then k - k % i else 0)
  max back own

/-- The own commit-fault bit, in the guard of a commit beat only (R23, R154, R297). -/
def ownFault (c : Ctl) : Bool :=
  let t := stepTrailer c
  commitBeat c && (c.step.fault || c.step.failed ||
    (if c.step.hasVote then !getB c R.VOTE_STATE.VOTE_VALID else t.getLsbD trCkfail || t.getLsbD trNonfin || t.getLsbD trStop))

/-- The lower of two roster numbers, either of which may be missing. -/
def lowerOf : Option Nat → Option Nat → Option Nat
  | some a, some b => some (min a b)
  | some a, none => some a
  | none, b => b

/-- The lowest roster number that this device reports lost: itself while NOMINATED (R261, R306, R397). -/
def ownLost (c : Ctl) : Option Nat :=
  let me := if getF c R.FAN_STATUS.STANDING = standNominated then c.place.me else none
  (c.time.lost.filter (fun n => !c.place.failed.contains n)).foldl (fun x n => lowerOf x (some n)) (me.filter (fun n => !c.place.failed.contains n))

/-- The own values; a replayed beat asks for its recorded stretch, so that every device applies the same (R17, R334). -/
def ownValues (d : Dev) : Combined :=
  { next := getF d.c R.BEAT_NOW.BEAT + 1, snap := snapReport d.c, stretch := max d.c.time.ask (recordedNext d), fault := ownFault d.c, lost := ownLost d.c }

/-! ### Combining (R18, R261) -/

/-- One child's values are combined: those of its TIME_UP, or what stands for a missing one. -/
def combineChild (c : Ctl) (x : Combined) (n : Nat) : Combined :=
  match c.time.ups.look n with
  | some m => { x with snap := min x.snap m.snap, stretch := max x.stretch m.stretch, fault := x.fault || m.fault, lost := lowerOf x.lost m.lost }
  | none => { x with snap := min x.snap (c.time.lastSnap.getD n 0), fault := x.fault || commitBeat c }

/-- The children whose TIME_UP of this guard has not arrived. -/
def upsMissing (c : Ctl) : List Nat := (treeChildren c).filter (fun n => !c.time.ups.has n)

/-- Guards after which a missing child is reported (R263, R275). -/
def timeGuards (c : Ctl) : Nat := max 1 (getF c R.SEL_TMO.TIME)

/-- The children's runs of missed guards, each with the limit that was in force at its first one (R261, R275). -/
def countMisses (c : Ctl) : Ctl :=
  let kids := treeChildren c
  let misses := kids.foldl (fun (t : Tab Nat) n => t.put n (if c.time.ups.has n then 0 else c.time.misses.getD n 0 + 1)) []
  let limits := kids.foldl (fun (t : Tab Nat) n => t.put n (if c.time.misses.getD n 0 = 0 then timeGuards c else c.time.missLimit.getD n (timeGuards c))) []
  satF R.TB_LINK.UP_MISSED (upsMissing c).length (onTime (fun t => { t with misses := misses, missLimit := limits }) c)

/-- At the own send time: the own values and the children's are combined; missing children are counted (R261, R279). -/
def takeUps (d : Dev) : Dev :=
  let x := (treeChildren d.c).foldl (combineChild d.c) (ownValues d)
  onCtl (fun c => onTime (fun t => { t with mine := some x }) (countMisses c)) d

/-- The device's values have gone into this guard's messages, as a TIME_UP or as the root's combination: the host's request, if it came in time, is cleared; a commit-fault bit of 1 shows (R31, R32). -/
def timeSent (x : Combined) (c : Ctl) : Ctl :=
  let c := onTime (fun t => { t with sent := true }) c
  let c := if c.time.reqLate then c else setF R.BEAT_STRETCH.REQ 0 c
  if x.fault then setB R.BEAT_STATUS.COMMIT_FAULT true c else c

/-- The job's combination is known: NEXT and NEXT_VALID show the next beat's stretch (R31). -/
def setComb (x : Combined) (c : Ctl) : Ctl :=
  setB R.BEAT_STRETCH.NEXT_VALID true (setF R.BEAT_STRETCH.NEXT x.stretch (onTime (fun t => { t with comb := some x }) c))

/-- The root combines for the job, once in a guard (R18, R259). -/
def rootCombine (d : Dev) : Dev :=
  if d.c.time.comb.isSome then d
  else
    let d := takeUps d
    match d.c.time.mine with
    | some x => onCtl (fun c => setComb x (timeSent x c)) d
    | none => d

/-! ### Payloads (R260) -/

/-- LOST and LOST_VALID. -/
def lostWord (l : Option Nat) : Nat := match l with | some n => n % 65536 + 65536 | none => 0

/-- LOST, if LOST_VALID is 1. -/
def lostOf (w : Nat) : Option Nat := if w / 65536 % 2 = 1 then some (w % 65536) else none

/-- TIME_UP's payload. -/
def upPayload (beat tx : Nat) (commit : Bool) (x : Combined) : List Byte :=
  leBytes 8 beat ++ leBytes 4 tx ++ leBytes 4 (x.stretch % 32 + bit x.fault * 32 + bit commit * 64) ++ leBytes 8 x.snap ++ leBytes 4 (lostWord x.lost) ++ leBytes 4 0

/-- TIME_DOWN's payload. -/
def downPayload (tx rx : Nat) (x : Combined) : List Byte :=
  leBytes 8 x.next ++ leBytes 4 tx ++ leBytes 4 rx ++ leBytes 8 x.snap ++ leBytes 4 (x.stretch % 32 + bit x.fault * 32) ++ leBytes 4 (lostWord x.lost)

/-- A payload field of n bytes at offset o. -/
def timeField (rx : Rx) (o n : Nat) : Nat := leNat ((rx.frame.payload.drop o).take n)

/-- What a received TIME_UP says. -/
def upOf (rx : Rx) (arrive : Nat) : UpMsg :=
  let w := timeField rx 12 4
  { tx := timeField rx 8 4, arrive := arrive, stretch := w % 32, fault := w / 32 % 2 == 1, commit := w / 64 % 2 == 1,
    snap := timeField rx 16 8, lost := lostOf (timeField rx 24 4) }

/-- What a received TIME_DOWN says. -/
def downOf (rx : Rx) : Combined :=
  let w := timeField rx 24 4
  { next := timeField rx 0 8, snap := timeField rx 16 8, stretch := w % 32, fault := w / 32 % 2 == 1, lost := lostOf (timeField rx 28 4) }

/-! ### Sending (R258, R259) -/

/-- TIME_DOWN to every admitted child that has not had this guard's (R257, R259). -/
def sendDown (tx : Nat) (c : Ctl) : Ctl :=
  match c.time.comb with
  | none => c
  | some x =>
    (treeChildren c).foldl (fun c n =>
      if peerIs c n 2 && !c.time.sentDown.contains n then
        let rx := ((c.time.ups.look n).map (·.arrive)).getD noRxTime
        onTime (fun t => { t with sentDown := n :: t.sentDown }) (sendLowest 2 (out 0 0x02 n (downPayload tx rx x)) c)
      else c) c

/-- TIME_UP_SEND: a member below the root combines, once in a guard, and sends TIME_UP to its parent if the two have admitted each other (R252, R259). -/
def timeUpSend (now : Nat) (d : Dev) : Dev :=
  match treeParent d.c with
  | none => d
  | some n =>
    if !beatsRun d.c || !d.c.time.inGuard || d.c.time.mine.isSome then d
    else
      let d := takeUps d
      onCtl (fun c =>
        match c.time.mine with
        | none => c
        | some x =>
          let tx := tbAt c now
          if peerIs c n 2 then
            timeSent x (sendLowest 1 (out 0 0x01 n (upPayload (getF c R.BEAT_NOW.BEAT) tx (commitBeat c) x))
              (onTime (fun t => { t with sentAt := some tx }) c))
          else c) d

/-- TIME_DOWN_SEND: the root combines and sends TIME_DOWN to each child (R259). -/
def timeDownSend (now : Nat) (d : Dev) : Dev :=
  if beatsRun d.c && isRoot d.c && d.c.time.inGuard then onCtl (fun c => sendDown (tbAt c now) c) (rootCombine d) else d

/-! ### Receiving (R15, R18, R257, R261, R262) -/

/-- TIME_UP from a child: held for this guard's combination; one that comes after the own send time, or names another beat, counts towards no guard (R260, R261, R265). -/
def gotTimeUp : Handler := fun _ rx d =>
  onCtl (fun c =>
    if beatsRun c && c.time.inGuard && c.time.mine.isNone && (treeChildren c).contains rx.peer && timeField rx 0 8 == getF c R.BEAT_NOW.BEAT then
      let m := upOf rx (tbAt c rx.time)
      onTime (fun t => { t with ups := Tab.put t.ups rx.peer m, lastSnap := Tab.put t.lastSnap rx.peer m.snap }) c
    else c) d

/-- A difference modulo 2^32 as a signed number. -/
def signed32 (x : Int) : Int := (BitVec.ofInt 32 x).toInt

/-- The offset from the parent, and the one-way delay, from the four times of R262 and R279. -/
def linkOffset (t1 t2 t3 t4 : Int) : Int := signed32 ((t2 - t1) - (t4 - t3)) / 2
def linkDelay (t1 t2 t3 t4 : Int) : Int := signed32 ((t4 - t1) - (t3 - t2)) / 2

/-- A number held within bounds. -/
def clampInt (lo hi x : Int) : Int := if x < lo then lo else if hi < x then hi else x

/-- The measured offset: shown, tested against 20 ns, and corrected in the next beat by at most 1 µs (R15, R262). -/
def takeOffset (off delay : Int) (c : Ctl) : Ctl :=
  let c := setF R.TB_LINK.DELAY_NS (delay % 65536).toNat (setF R.BEAT_STATUS.OFFSET_NS (byteOfInt (clampInt (-128) 127 off)) c)
  let c := onTime (fun t => { t with corr := clampInt (-1000) 1000 (-off) }) c
  if off.natAbs ≤ 20 then setB R.BEAT_STATUS.ALIGNED true c
  else raiseLink 0x01 srcTimebase 0 (setB R.BEAT_STATUS.ALIGNED false c)

/-- TIME_DOWN in a guard of the running job: the first copy is taken and forwarded (R18, R258, R259, R262). -/
def downInJob (rx : Rx) (c : Ctl) : Ctl :=
  let x := downOf rx
  let t4 := tbAt c rx.time
  let rxTime := timeField rx 12 4
  let c := if x.next = getF c R.BEAT_NOW.BEAT + 1 then c else raiseLink 0x02 srcTimebase 0 c
  let c := setComb x (onTime (fun t => { t with gotDown := true }) c)
  let c := match c.time.sentAt with
    | some t1 => if rxTime = noRxTime then c else
        let t3 := timeField rx 8 4
        takeOffset (linkOffset t1 rxTime t3 t4) (linkDelay t1 rxTime t3 t4) c
    | none => c
  sendDown t4 c

/-- The first TIME_DOWN of a device that is not yet in the job: its timebase steps to its parent's, and it joins at the next boundary (R257). -/
def downJoin (rx : Rx) (c : Ctl) : Ctl :=
  let t3 := timeField rx 8 4
  let c := onTime (fun t => { t with joined := true, adj := (t3 : Int) - rx.time, sentDown := [], ups := [] }) c
  sendDown t3 (setComb (downOf rx) (setB R.BEAT_STATUS.ALIGNED true c))

/-- TIME_DOWN, from the parent only. -/
def gotTimeDown : Handler := fun _ rx d =>
  onCtl (fun c =>
    if !timeOn c || c.time.stopped || treeParent c != some rx.peer then c
    else if getB c R.BEAT_STATUS.RUNNING then (if c.time.inGuard && !c.time.gotDown then downInJob rx c else c)
    else if c.time.joined then c
    else downJoin rx c) d

/-! ### A child that stays away (R263) -/

/-- A child's TIME_UP has been missing for as many consecutive guards as SEL_TMO.TIME said at the first of them: a LINK event, and the child is reported lost (R261, R263). -/
def timeUpDue (n : Nat) (c : Ctl) : Ctl :=
  if beatsRun c && decide (c.time.missLimit.getD n (timeGuards c) ≤ c.time.misses.getD n 0) then
    reportLost n (raiseLinkPeer 0x0A srcTimebase n 0 (onTime (fun t => { t with misses := Tab.put t.misses n 0 }) c))
  else c

/-- Every child that is due. -/
def timeUpsDue (c : Ctl) : Ctl := (treeChildren c).foldl (fun c n => timeUpDue n c) c

/-- TIME_UP_SEND. -/
def execTimeUpSend (now : Nat) (s : State) : Host.Outcome State Fault Refusal := runDev (timeUpSend now) s

/-- TIME_DOWN_SEND. -/
def execTimeDownSend (now : Nat) (s : State) : Host.Outcome State Fault Refusal := runDev (timeDownSend now) s

/-- TIME_UP. -/
def execTimeUp (rx : Rx) (s : State) : Host.Outcome State Fault Refusal := runDev (arrive 0 0x01 gotTimeUp rx) s

/-- TIME_DOWN. -/
def execTimeDown (rx : Rx) (s : State) : Host.Outcome State Fault Refusal := runDev (arrive 0 0x02 gotTimeDown rx) s

/-- TIME_UP_TIMEOUT. -/
def execTimeUpTimeout (child : Nat) (s : State) : Host.Outcome State Fault Refusal := runCtl (timeUpDue child) s

end Sys2Proof.Machine
end

