-- ==== Sys2Proof/Machine/StepCtl.lean ====
section
/-! DEFINITION. Step control: the guard (R16, R315, R322, R336), the opening of a step (R22, R142, R294, R334), the end of a commit beat (R22 to R24, R297, R331), recovery, replay and the halt (R299, R332 to R338), and the first step (R423). -/

namespace Sys2Proof.Machine

/-- The step in progress changed. -/
def onStep (f : StepSt → StepSt) (c : Ctl) : Ctl := { c with step := f c.step }

/-- REC_STATE changes, the cause of vector 13 (R341, R457). -/
def setRecState (n : Nat) (c : Ctl) : Ctl := if getF c R.REC_STATE.STATE = n then c else cause 13 (setF R.REC_STATE.STATE n c)

/-- ATTEMPT changes: a change of REC_STATE too (R341, R457). -/
def setAttempt (n : Nat) (c : Ctl) : Ctl := if getF c R.REC_STATE.ATTEMPT = n then c else cause 13 (setF R.REC_STATE.ATTEMPT n c)

def recIdle : Nat := 0
def recRestore : Nat := 1
def recReplay : Nat := 2
def recHalted : Nat := 3

/-! ### The guard -/

/-- What each treadle that overruns in this guard was doing (R155). -/
def overruns (d : Dev) : List Nat :=
  (servingCores d.c).flatMap (fun p => (List.range 6).filterMap (fun t =>
    let x := trAt d.c p t
    if incomplete x && (!x.hollow || !x.runs.isEmpty) && !onlyEmpty d.m d.c p x then some (overrunFault d.m d.c p x).reason else none))

/-- The treadles at the guard; overruns that all waited for local flags are a program fault as soon as they are recorded, whatever fault came first in the step (R16, R155, R336; log entry 40). -/
def guardStops (cycle : Nat) (d : Dev) : Dev :=
  let l := overruns d
  let d := onCtl collGuard (guardTreadles cycle d)
  if !l.isEmpty && l.all (· == 2) then onCtl (classProgram 3) d else d

/-- A sample entry fails: cause SAMPLE or SAMPLE_LATE, against the engine of the ORIGINAL (R318, R322). -/
def sampleFail (cause e : Nat) (x : SampleEnt) (c : Ctl) : Ctl :=
  let src := match physCore c x.core with | some p => srcEngine p x.treadle | none => srcDevice
  let c := raise evArith cause src (e % 65536) (satF R.CHK_CNT0.SMP_FAILS 1 c)
  checkFail { failRec cause src c with lcore := x.core, unit := x.treadle, detail := e } c

/-- Entry e, an ORIGINAL's, is compared, or fails or is counted in the guard of the commit beat (R322). -/
def sampleEntry (e : Nat) (x : SampleEnt) (d : Dev) : Dev :=
  let rd (o n : Nat) : Nat := leNat (readBytes d.m (sampleAddr d.c e + o) n)
  let s := getF d.c R.STEP_NOW.STEP
  let a := rd 16 8 == s
  let b := rd 48 8 == s
  if d.c.step.compared.contains e then d
  else if a && b then
    onCtl (fun c =>
      let c := onStep (fun t => { t with compared := e :: t.compared }) c
      if rd 0 16 == rd 32 16 then satF R.CHK_CNT0.SMP_COMPARES 1 c else sampleFail 4 e x c) d
  else if !commitBeat d.c then d
  else if a || b then onCtl (sampleFail 5 e x) d
  else onCtl (satF R.CHK_CNT1.SMP_SKIPPED 1) d

/-- The sample entries of the ORIGINALs of this device (R322). -/
def sampleGuard (d : Dev) : Dev :=
  if stepOpen d.c then ((sampleTable d.c).filter (fun x => x.2.kind == 1)).foldl (fun d x => sampleEntry x.1 x.2 d) d else d

/-- A latched digest whose gather has not concluded by its deadline fails as DIGEST_LATE, where the seat's lists hold a gather (R315, R326). -/
def digestLate (c : Ctl) : Ctl :=
  let k := getF c R.STEP_CHECK_CFG.D_M1
  let late := c.coll.due.filter (fun s => decide (s + windowN c ≤ getF c R.STEP_NOW.STEP + k))
  let c := onColl (fun x => { x with due := x.due.filter (fun s => !late.contains s) }) c
  if !c.coll.gathers then c
  else late.foldl (fun c s =>
    checkFail { failRec 0x07 srcDevice c with step := s - k } (raise evArith 0x07 srcDevice 0 (satF R.CHK_CNT1.DIG_FAILS 1 c))) c

/-- GUARD_START: the first cycle of a beat's guard, whose records enter together (R16, R315, R322, R329, R392, R456). -/
def guardStart (cycle : Nat) (d : Dev) : Dev :=
  if !beatsRun d.c || d.c.time.inGuard then d
  else
    let d := onCtl (fun c => onTime (fun t =>
      { t with inGuard := true, sentAt := none, sent := false, mine := none, comb := none, gotDown := false, sentDown := [], ups := [], ask := max t.ask (hostStretch c) }) (gatherStart c)) d
    let d := sampleGuard (guardStops cycle (onCtl kapGuard d))
    onCtl (fun c => gatherEnd (moveGuard (if stepOpen c && commitBeat c then fileLate (digestLate c) else c))) d

/-! ### Opening a step (R22, R142, R294) -/

/-- The list words of a list from core-store offset a, to STEP_END. -/
def listWords (m : Store) (p : Nat) : Nat → Nat → List Word
  | 0, _ => []
  | fuel + 1, a =>
    if coreBytes ≤ a then []
    else
      let w : Word := BitVec.ofNat 32 (leNat (readBytes m (coreKey p + a) 4))
      if wordStepEnd w then [w] else w :: listWords m p fuel (a + 4)

/-- Whether a TS list of a kind, on any core, holds a pick that satisfies a test. -/
def tsHolds (d : Dev) (kind : Nat) (f : Nat → List Word → Bool) : Bool :=
  (servingCores d.c).any (fun p =>
    match listOff d.c p 5 kind with
    | some o => (listWords d.m p listMax o).any (fun w => !wordEmpty w && f p (pickImage d.m p (wordIndex w)))
    | none => false)

/-- Whether an image is a VOTE (R297). -/
def isVote (img : List Word) : Bool := imgOp img == opColl && imgF img 22 0 8 == 6

/-- Whether an image of core p is a digest gather, of four F32 elements at CHK_DIG0; the device field of its base is ignored (R287, R326). -/
def isGather (c : Ctl) (p : Nat) (img : List Word) : Bool :=
  let n := loopCounts (cntOf c p) img
  imgOp img == opColl && imgF img 22 0 8 == 3 && imgBase img 0 % 2 ^ 48 == digestAddr && imgFmt img 0 == 5 && imgFmt img 2 == 5 &&
    n.getD 0 0 * n.getD 1 0 == 4

/-- The list kind of step s: measuring, closing, probation or training (R109, R142, R398). -/
def stepKind (c : Ctl) (s : Nat) : Nat :=
  let last := (c.job.map (·.seq.lastStep)).getD 0
  if 0 < getF c R.GOV_STATUS.MEAS_LEFT ∧ !c.step.prevMeas ∧ s ≤ last then 1
  else if last < s then 2
  else if getF c R.FAN_STATUS.STANDING = standProbation then 3
  else 0

/-- Whether two list kinds name different lists; TRAIN and PROBATION count as the same (R334). -/
def kindsDiffer (a b : Nat) : Bool := (if a = 3 then 0 else a) != (if b = 3 then 0 else b)

/-- The step registers and the trailer at the boundary that opens step s; STOP or CKFAIL owed to it enters its trailer (R261, R294, R332). -/
def stepRegs (s : Nat) (c : Ctl) : Ctl :=
  let k := stepKind c s
  let stop := c.step.stopNext
  let ck := c.step.ckNext
  let c := onStep (fun t => { t with
    opened := true, beat := 0, kind := k, failed := false, fault := false, voteSent := false, heard := 0, drains := [], compared := [], nfLate := false,
    updNonfin := false, ranged := [], hasVote := false, stop := stop, stopNext := false, ckNext := false }) c
  let c := setF R.STEP_NOW.STEP s (setB R.STEP_STATUS.OPEN true (setB R.STEP_STATUS.CKFAIL ck c))
  let c := setB R.STEP_STATUS.COMMIT (decide (stepBeats c ≤ 1)) c
  let c := setB R.GOV_STATUS.MEASURING (k == 1) (setB R.VOTE_STATE.VOTE_VALID false (setF R.VOTE_STATE.MISSED 0 c))
  let c := onColl (fun x => { CollSt.reset with due := x.due, gathers := x.gathers, minority := x.minority }) c
  if stop then enterFailed c else c

/-- Step s opens: its lists are chosen, its record begins (R22, R142, R330); the job's first step sweeps the image for its digest (R324). -/
def openStep (s : Nat) (d : Dev) : Dev :=
  let first := !d.c.step.opened
  let d := reloadOpen s (onCtl (fun c => stepRegs s (fanStep (underateStep c))) d)
  let d := onCtl (fun c => onRet (fun r => { r with first := getF c R.BEAT_NOW.BEAT, ver := getF c R.PLACE_STATUS.ROSTER_VER, stretch := [] }) (openLists c.step.kind c)) d
  let vote := tsHolds d d.c.step.kind (fun _ => isVote)
  let gathers := [0, 1, 2].any (fun k => tsHolds d k (isGather d.c))
  let d := onCtl (fun c => voteOpen (onColl (fun x => { x with gathers := gathers }) (onStep (fun t => { t with hasVote := vote }) c))) d
  let d := if first && (mySeat d.c).isSome then onCtl (setB R.CHK_DIG_STATUS.SWEEP true) d else d
  let d := if replayed d.c s && kindsDiffer (recordField d s 0x14 1) d.c.step.kind then onCtl (fun c => enterFailed (recordFault 0 c)) d else d
  if s < getF d.c R.REC_FAULT_STEP.STEP then onCtl (stageDue (s + 1)) d else d

/-- Segments start, unless jitter delays them (R19 step 5, R468). -/
def segmentsStart (c : Ctl) : Ctl := if c.jitter || !stepOpen c then c else startSegments c

/-- The first beat of a step that opens begins: its stretch is noted, its segments start. -/
def beginStep (s : Nat) (d : Dev) : Dev :=
  let d := openStep s d
  onCtl segmentsStart (noteStretch 0 (getF d.c R.BEAT_STRETCH.CUR) d)

/-- The OPEN step goes on with its next beat; a filing begun before the beat that ends is late if the new beat is the commit beat (R21, R329). -/
def nextBeat (d : Dev) : Dev :=
  if !stepOpen d.c then d
  else
    let b := d.c.step.beat
    let commit := decide (stepBeats d.c ≤ b + 2)
    let d := onCtl (fun c =>
      let c := setB R.STEP_STATUS.COMMIT commit (onStep (fun t => { t with beat := b + 1, updNonfin := false, ranged := [] }) c)
      if commit && decide (0 < b) then fileLate c else c) d
    onCtl segmentsStart (noteStretch (b + 1) (getF d.c R.BEAT_STRETCH.CUR) d)

/-! ### The end of a step (R22 to R24, R297, R331, R336) -/

/-- What a boundary does with the job's steps. -/
inductive Plan where
  /-- no step ends and none opens -/
  | stay
  | next (s : Nat)
  | recover (f : Nat)
  /-- the job halts; the abandoned step, if one was -/
  | halt (f : Option Nat)
  deriving DecidableEq, Repr

/-- The vote that decides: the latched one, CKFAIL where none is latched, or the own trailer in a step without a VOTE (R297). -/
def decidingVote (c : Ctl) : BitVec 5 := (voteOf c).getD (trBit trCkfail true)

/-- Whether a vote abandons its step (R297). -/
def voteAbandons (v : BitVec 5) : Bool := v.getLsbD trStop || v.getLsbD trCkfail || (v.getLsbD trNonfin && v.getLsbD trHalt)

/-- Whether a latched vote halts the job: STOP, or NONFIN under HALT where CKFAIL does not lead to recovery (R297, R332). -/
def voteHalts (v : BitVec 5) : Bool := v.getLsbD trStop || (!v.getLsbD trCkfail && v.getLsbD trNonfin && v.getLsbD trHalt)

/-- No step is OPEN any more. -/
def stepGone (c : Ctl) : Ctl :=
  setB R.VOTE_STATE.VOTE_VALID false
    (setB R.GOV_STATUS.MEASURING false (setB R.STEP_STATUS.CKFAIL false (setB R.STEP_STATUS.COMMIT false (setB R.STEP_STATUS.OPEN false c))))

/-- The record of an abandoned step goes to CHK_PREV, cause REMOTE where the device has none of its own; the record of any step that ends is cleared (R331). -/
def closeRecord (abandoned : Bool) (c : Ctl) : Ctl :=
  let remote := 0x13 + 2 ^ 6 + c.step.beat % 65536 * 2 ^ 32
  let own := getB c R.CHK_FIRST0.VALID
  let w (a v : Nat) : Dword := if own then getReg c a else BitVec.ofNat 64 v
  let c := if abandoned then
      setReg R.CHK_PREV2.adr (w R.CHK_FIRST2.adr 0) (setReg R.CHK_PREV1.adr (w R.CHK_FIRST1.adr (getF c R.STEP_NOW.STEP))
        (setReg R.CHK_PREV0.adr (w R.CHK_FIRST0.adr remote) (onStep (fun t => { t with ckPrev := if own then t.ckFirst else 0 }) c)))
    else c
  setReg R.CHK_FIRST2.adr 0 (setReg R.CHK_FIRST1.adr 0 (setReg R.CHK_FIRST0.adr 0 c))

/-- STOP set in a step without a VOTE is carried into the next (R297). -/
def carryStop (c : Ctl) : Ctl := if !c.step.hasVote && c.step.stop then onStep (fun t => { t with stopNext := true }) c else c

/-- The OPEN step is abandoned (R22, R105, R331, R457). -/
def abandonStep (c : Ctl) : Ctl :=
  let c := stepGone (govAbandon (closeRecord true (carryStop c)))
  cause 12 (idleTreadles (onColl (fun x => { CollSt.reset with due := x.due, gathers := x.gathers, minority := x.minority }) c))

/-- The unit of a CKSUM fault: the extra column that DISAGREE names, if it names one, else the engine (R318, R384; log entry 116). A column's finding counts in its engine's FAN_UNIT (R454). -/
def cksumUnit (src cols : Nat) : Nat :=
  match (List.range 4).filter (fun i => cols / 2 ^ i % 2 == 1) with
  | [i] => columnKey (src % 4096 / 4) (src % 4) (128 + i)
  | _ => src

/-- The unit charged for a fault classed HARDWARE, by its cause; no points where an injection took effect (R318, R384, R467). -/
def chargeHardware (cause src : Nat) (injected : Bool) (c : Ctl) : Ctl :=
  let points := if injected then 0 else kindPoints kHw
  if cause = 1 then finding kHw points src (some (cksumUnit src c.step.ckPrev)) c
  else if [2, 3, 8, 9, 0x11].contains cause then finding kHw points src (some src) c
  else if cause = 4 ∨ cause = 5 ∨ ((cause = 6 ∨ cause = 7) ∧ c.coll.minority) then finding kHw points src none c
  else c

/-- At the seal of the replayed step f: a fault of the device's own that did not recur is classed HARDWARE (R336). -/
def classHardware (s : Nat) (c : Ctl) : Ctl :=
  let cause := getF c R.CHK_PREV0.CAUSE
  if !getB c R.CHK_PREV0.VALID || cause == 0x13 then c
  else
    let c := setF R.CHK_CLASS.CLASS 1 (setF R.CHK_CLASS.STEP s c)
    chargeHardware cause (getF c R.CHK_PREV2.SOURCE) (c.step.injected.contains s) c

/-- The end of a replayed step; that of f ends the replay (R334, R336). -/
def replayEnd (s : Nat) (c : Ctl) : Ctl :=
  if getF c R.REC_STATE.STATE = recReplay then
    let c := satF R.REC_COUNTS.REPLAYED 1 c
    if getF c R.REC_FAULT_STEP.STEP ≤ s then setRecState recIdle (classHardware s c) else c
  else c

/-- A step becomes CHECKED at this seal (R22, R317). -/
def checkStep (c : Ctl) : Ctl :=
  if checksNext c then
    let u := getF c R.STEP_NOW.STEP - windowN c
    setF R.STEP_CHECKED.STEP (max u (getF c R.STEP_CHECKED.STEP)) (onStep (fun t => { t with hasChecked := true }) c)
  else c

/-- The OPEN step s is sealed (R22, R104, R109, R325, R337, R385). -/
def sealStep (s : Nat) (skipped : Bool) (c : Ctl) : Ctl :=
  let meas := c.step.kind == 1
  let k : SealKind := if skipped then .skipped else if meas then .measured else .clean
  let c := checkStep (govSeal k c)
  let c := if !meas && c.step.prevMeas then setF R.GOV_STATUS.MEAS_LEFT (getF c R.GOV_STATUS.MEAS_LEFT - 1) c else c
  let c := onStep (fun t => { t with prevMeas := meas, hasSealed := true, marks := Tab.put t.marks s (getF c R.GOV_STATUS.MEAS_LEFT, meas) }) c
  let c := if skipped then satF R.VOTE_COUNTS.SKIPS 1 c else c
  let c := stepGone (closeRecord false (cause 11 (setF R.STEP_SEALED.STEP s c)))
  let c := fanDecay c
  let c := if s % (getF c R.STEP_CHECK_CFG.D_M1 + 1) = 0 then
      onColl (fun x => { x with due := x.due ++ [s] })
        (setF R.CHK_DIG_STEP.STEP s (setF R.CHK_DIG1.DB (liveDig c).2 (setF R.CHK_DIG0.DA (liveDig c).1 c)))
    else c
  let c := if getF c R.REC_FAULT_STEP.STEP < s then setAttempt 0 c else c
  replayEnd s (carryStop c)

/-- The last step that opens (R142). -/
def lastOpened (c : Ctl) : Nat := (c.job.map (fun j => j.seq.lastStep + j.check.n)).getD 0

/-- Step s + 1, unless s is the last (R142). -/
def planAfter (c : Ctl) (s : Nat) : Plan := if s < lastOpened c then .next (s + 1) else .stay

/-- What the end of a beat made of the OPEN step, and whether it was sealed. -/
structure Closing where
  c : Ctl
  plan : Plan
  sealed : Option Nat

/-- Step 2 of R19 at the end of a commit beat: the step is sealed or abandoned by the vote and the combined commit fault; without TIME_DOWN it is abandoned locally, and the next step opens with CKFAIL in its trailer, unless the latched vote abandons it everywhere (R22, R23, R261, R297, R332). -/
def endStep (fault noDown : Bool) (c : Ctl) : Closing :=
  let s := getF c R.STEP_NOW.STEP
  let latched := c.step.hasVote && getB c R.VOTE_STATE.VOTE_VALID
  let v := decidingVote c
  if !commitBeat c then ⟨c, .stay, none⟩
  else if fault || noDown || voteAbandons v then
    let c := if c.step.hasVote && !latched then satF R.VOTE_COUNTS.VOTE_FAIL 1 c else c
    let c := abandonStep c
    if latched && voteHalts v then ⟨c, .halt (some s), none⟩
    else if noDown && !(latched && voteAbandons v) then ⟨onStep (fun t => { t with ckNext := true }) c, planAfter c s, none⟩
    else ⟨c, .recover s, none⟩
  else
    let c := sealStep s (v.getLsbD trNonfin) c
    ⟨c, planAfter c s, some s⟩

/-- The rollback point moves to the combined snapshot report, forward only, to a CHECKED step (R24, R25, R426). -/
def moveRollback (u : Nat) (c : Ctl) : Ctl :=
  let further := if c.step.hasRollback then decide (getF c R.STEP_ROLLBACK.STEP < u) else decide (0 < u)
  if c.step.hasChecked && further && decide (u ≤ getF c R.STEP_CHECKED.STEP) then
    reloadSettle (retRelease u (setF R.STEP_ROLLBACK.STEP u (onStep (fun t => { t with hasRollback := true }) c)))
  else c

/-! ### Halt and recovery (R299, R332, R333, R337) -/

/-- Step f and the step that resumes. -/
def setFaultStep (f : Nat) (c : Ctl) : Ctl := setF R.REC_RESUME_STEP.STEP (f + 1) (setF R.REC_FAULT_STEP.STEP f c)

/-- The job halts on this device (R299). -/
def haltJob (f : Option Nat) (c : Ctl) : Ctl :=
  let c := match f with
    | some f => setFaultStep f c
    | none => c
  let c := setB R.VOTE_STATE.HALTED true (satF R.REC_COUNTS.HALTS 1 (setRecState recHalted c))
  idleTreadles (onRet (fun r => { r with resume := none }) c)

/-- Whether a seat is left unserved (R306). -/
def unserved (c : Ctl) : Bool := (seats c).any (fun s => !c.place.serving.has s)

/-- A device that has begun to serve a seat loads the seat's program (R418). -/
def seatProgram (d : Dev) : Dev :=
  match d.c.job with
  | some j => if (mySeat d.c).isSome && d.c.progCores.isEmpty then loadProgram j d else d
  | none => d

/-- A restore for which no source exists (R372, R423). -/
def restoreNowhere (c : Ctl) : Ctl :=
  restoreFail (setB R.RST_STATUS.NO_SOURCE true (onSnap (fun s => { s with noSource := true }) (setF R.RST_STATUS.SOURCE 0 c)))

/-- The seat's state at the rollback point is restored (R333 step 2). -/
def restoreSeat (d : Dev) : Dev :=
  if (mySeat d.c).isNone then d
  else if d.c.step.hasRollback then restoreStart (getF d.c R.STEP_ROLLBACK.STEP) false d
  else onCtl restoreNowhere d

/-- MEAS_LEFT and the kind of the last step as they stood after step u (R109, R333). -/
def measBack (u : Nat) (c : Ctl) : Ctl :=
  match if c.step.hasRollback then c.step.marks.look u else some (getF c R.GOV_CFG.MEAS_STEPS, false) with
  | some (left, meas) => setF R.GOV_STATUS.MEAS_LEFT left (onStep (fun t => { t with prevMeas := meas }) c)
  | none => c

/-- What a recovery to step u drops: images, generations, latched digests above it (R211, R326, R360, R361). -/
def dropAbove (u : Nat) (c : Ctl) : Ctl :=
  let c := tailAbandon (fun x => decide (u < x.step)) (imagesRollback u c)
  onColl (fun x => { x with due := x.due.filter (fun s => decide (s ≤ u)) }) c

/-- Recovery from step f starts at the boundary that opens BEAT_NOW, or the job halts instead (R332, R333, R337). -/
def startRecovery (f : Nat) (d : Dev) : Dev :=
  let a := getF d.c R.REC_STATE.ATTEMPT + 1
  if unserved d.c || decide (max 1 (getF d.c R.REC_CFG.MAX_ATTEMPTS) < a) then onCtl (haltJob (some f)) d
  else
    let first := if d.c.step.hasRollback then getF d.c R.STEP_ROLLBACK.STEP + 1 else firstStep d.c
    let d := onCtl (fun c =>
      let c := setFaultStep f (satF R.REC_COUNTS.RECOVERIES 1 (setAttempt a (setRecState recRestore c)))
      let c := measBack (first - 1) (dropAbove (first - 1) (setB R.STEP_STATUS.BAD false (idleTreadles (onStep (fun t => { t with failed := false }) c))))
      let c := setB R.RET_STATUS.RESTORING false (onRet (fun r => { r with
        point := first, resume := some (getF c R.BEAT_NOW.BEAT + getF c R.REC_CFG.RESTORE_BEATS), restart := c.snap.go == some true, restoring := [] }) c)
      onSnap (fun x => { x with go := none, noSource := false, restore := none }) c) d
    restoreSeat (reloadRestore first (seatProgram d))

/-- What a boundary's plan comes to, after the new beat has been latched (R22, R299, R333). -/
def runPlan (p : Plan) (d : Dev) : Dev :=
  match p with
  | .stay => nextBeat d
  | .next s => beginStep s d
  | .recover f => startRecovery f d
  | .halt f => onCtl (haltJob f) d

/-! ### A roster number is lost (R305, R306, R397) -/

/-- This device leaves the job: EXPELLED, its treadles idle, no step (R397). -/
def expel (c : Ctl) : Ctl :=
  idleTreadles (stepGone (onRet (fun r => { r with resume := none, armed := none }) (setF R.FAN_STATUS.STANDING standExpelled c)))

/-- A seat was lost: the OPEN step, or the one that opens at this boundary, is abandoned; in RESTORE the substitute restores; without a substitute the job halts (R305, R306). -/
def seatLost (p : Plan) (d : Dev) : Dev × Plan :=
  let s := getF d.c R.STEP_NOW.STEP
  match p with
  | .next n => (onCtl (fun c => abandonStep (onStep (fun t => { t with opened := true, beat := 0 }) (setF R.STEP_NOW.STEP n c))) d, .recover n)
  | .stay =>
    if stepOpen d.c then (onCtl abandonStep d, .recover s)
    else if getF d.c R.REC_STATE.STATE = recHalted then (d, p)
    else if unserved d.c then (d, .halt none)
    else
      let new := (mySeat d.c).isSome && d.c.progCores.isEmpty
      let d := seatProgram d
      (if new && getF d.c R.REC_STATE.STATE == recRestore then restoreSeat d else d, p)
  | _ => (d, p)

/-- The combined LOST advances the roster version at step 3 of R19 (R305, R306, R397). -/
def rosterBoundary (lost : Option Nat) (p : Plan) (d : Dev) : Dev × Plan :=
  match lost with
  | none => (d, p)
  | some n =>
    if d.c.place.failed.contains n || (member d.c n).isNone then (d, p)
    else
      let r := rosterAdvance n d.c
      let d := { d with c := drainRoster (rootTaken (isRoot d.c) r.1) }
      if d.c.place.me = some n then (onCtl expel d, .stay)
      else if r.2 then seatLost p d
      else (d, p)

/-! ### Replay, armed recovery, the first step (R333, R338, R372, R423) -/

/-- Whether this seat's restore is complete: the shard and state, the program, the stage (R333, R418). -/
def restoreWhole (c : Ctl) : Bool :=
  (mySeat c).isNone ||
    (getF c R.RST_STATUS.STATE == rstDone && c.snap.restore.isNone && c.ret.restoring.isEmpty && c.copying.isEmpty)

/-- A restore that is not complete: RESTORE_LATE and the failed state; without a source, STOP (R333, R372). No subcode is listed for its event. -/
def restoreLate (c : Ctl) : Ctl :=
  let c := drawn (raise evMemory ((freeValue c).toNat % 256) srcDevice 0 (setB R.REC_STATUS.RESTORE_LATE true c))
  let c := enterFailed (checkFail (failRec 0x12 srcDevice c) c)
  if c.snap.noSource then onStep (fun t => { t with stop := true }) c else c

/-- Whether step u, the last before a replay, was a measuring step: as the device recorded it, else as the restored list positions show it (R109, R163). -/
def measRestored (c : Ctl) : Ctl :=
  if c.step.marks.has (c.ret.point - 1) then c
  else match servingCores c with
    | p :: _ => onStep (fun t => { t with prevMeas := getF c (trF R.TR_POS.KIND p 0) == 1 }) c
    | [] => c

/-- REPLAY_START: at A + RESTORE_BEATS step u + 1 opens, in REPLAY; after a restore by RST_CTRL.GO, in IDLE (R333, R373). -/
def replayStart (d : Dev) : Dev :=
  match d.c.ret.resume with
  | none => d
  | some a =>
    if !beatsRun d.c || d.c.time.inGuard || getF d.c R.REC_STATE.STATE != recRestore || decide (getF d.c R.BEAT_NOW.BEAT < a) then d
    else
      let late := !restoreWhole d.c
      let d := onCtl (fun c =>
        let c := setRecState (if c.ret.restart then recIdle else recReplay) (onRet (fun r => { r with resume := none }) c)
        if c.step.hasRollback then measRestored c else c) d
      let d := openStep d.c.ret.point d
      let d := if late then onCtl restoreLate d else d
      onCtl segmentsStart (noteStretch 0 (getF d.c R.BEAT_STRETCH.CUR) d)

/-- ARMED_RECOVERY_START: at the boundary that opens beat REC_AT (R338). -/
def armedStart (d : Dev) : Dev :=
  if beatsRun d.c && !d.c.time.inGuard && !stepOpen d.c && d.c.ret.armed == some (getF d.c R.BEAT_NOW.BEAT) then
    let d := onCtl (fun c => setB R.VOTE_STATE.HALTED false (setAttempt 0 (onRet (fun r => { r with armed := none }) c))) d
    startRecovery (getF d.c R.REC_FAULT_STEP.STEP) d
  else d

/-- DRAFT_START_AT: at the boundary that opens the chosen beat the first step opens, or the device is late (R423). -/
def startAt (d : Dev) : Dev :=
  let b := getF d.c R.DRAFT_START_AT.BEAT
  if b = 0 ∨ !getB d.c R.DRAFT_STATUS.LOADED ∨ d.c.step.opened ∨ d.c.draft.startDone ∨ (myPos d.c).isNone then d
  else
    let done := onCtl (fun c => { c with draft := { c.draft with startDone := true } }) d
    if beatsRun d.c && !d.c.time.inGuard && getF d.c R.BEAT_NOW.BEAT == b then
      (if getF d.c R.REC_STATE.STATE = recIdle then beginStep (firstStep d.c) done else done)
    else if !getB d.c R.BEAT_STATUS.RUNNING || decide (b < getF d.c R.BEAT_NOW.BEAT) then onCtl (setB R.DRAFT_STATUS.START_LATE true) done
    else d

/-- JITTERED_SEGMENT_START: j nanoseconds after the boundary (R468). -/
def jitterEnd (c : Ctl) : Ctl := if c.jitter && !c.time.inGuard then segmentsStart { c with jitter := false } else c

/-- GUARD_START. -/
def execGuardStart (s : State) (cycle : Nat := 0) : Host.Outcome State Fault Refusal := runDev (guardStart cycle) s

/-- REPLAY_START. -/
def execReplayStart (s : State) : Host.Outcome State Fault Refusal := runDev replayStart s

/-- ARMED_RECOVERY_START. -/
def execArmedRecoveryStart (s : State) : Host.Outcome State Fault Refusal := runDev armedStart s

/-- DRAFT_START_AT. -/
def execDraftStartAt (s : State) : Host.Outcome State Fault Refusal := runDev startAt s

/-- JITTERED_SEGMENT_START. -/
def execJitteredSegmentStart (s : State) : Host.Outcome State Fault Refusal := runCtl jitterEnd s

end Sys2Proof.Machine
end

