-- ==== Sys2Proof/Machine/Beat.lean ====
section
/-! DEFINITION. The beat boundary (R19) and the local boundary (R257), in the order of R19; frames that tension has held (R468) and frames that fit no command (R255). -/

namespace Sys2Proof.Machine

/-! ### Before step 1: the engines' records (R79, R93) -/

/-- Detail of a NONFINITE event, from ENG_FNF0 (R455). -/
def fnfDetail (c : Ctl) (p e : Nat) : Nat :=
  let g (f : Fld) : Nat := getF c (engF f p e)
  g R.ENG_FNF0.KIND + g R.ENG_FNF0.SLOT * 2 ^ 3 + g R.ENG_FNF0.OUT_ROW * 2 ^ 6 + g R.ENG_FNF0.OUT_COL * 2 ^ 13 + (g R.ENG_FNF0.BROW + 32 * g R.ENG_FNF0.BLOCK) * 2 ^ 20 +
    g R.ENG_FNF0.PICK * 2 ^ 27 + g R.ENG_FNF0.A_NONFIN * 2 ^ 38 + g R.ENG_FNF0.W_NONFIN * 2 ^ 39 + g R.ENG_FNF0.FROM_TILE * 2 ^ 40 +
    g R.ENG_FNF0.OPP_ROW * 2 ^ 41

/-- Detail of an ARITH_CHECK event, from ENG_CKF0 (R455). -/
def ckfDetail (c : Ctl) (p e : Nat) : Nat :=
  let g (f : Fld) : Nat := getF c (engF f p e)
  g R.ENG_CKF0.KIND + g R.ENG_CKF0.SLOT * 2 + g R.ENG_CKF0.OUT_ROW * 2 ^ 4 + g R.ENG_CKF0.DISAGREE * 2 ^ 11 + g R.ENG_CKF0.KPASS * 2 ^ 15 +
    g R.ENG_CKF0.COL * 2 ^ 18 + g R.ENG_CKF0.PICK * 2 ^ 25

/-- The engine's word at `f` copied to the word at `g`. -/
def copyWord (f g : Fld) (p e : Nat) (c : Ctl) : Ctl := setReg (engF g p e).off (getReg c (engF f p e).off) c

/-- ENG_FNF moves to its PREV registers, with an event (R79). -/
def moveFnf (p e : Nat) (c : Ctl) : Ctl :=
  if getB c (engF R.ENG_FNF0.VALID p e) then
    let c := copyWord R.ENG_FNF1.BEAT R.ENG_FNF_PREV1.BEAT p e (copyWord R.ENG_FNF0.VALID R.ENG_FNF_PREV0.VALID p e c)
    setB (engF R.ENG_FNF0.VALID p e) false (raise evNonfinite 0x01 (srcEngine p e) (fnfDetail c p e) c)
  else c

/-- ENG_CKF moves to its PREV registers, with an event of its cause (R93, R318). -/
def moveCkf (p e : Nat) (c : Ctl) : Ctl :=
  if getB c (engF R.ENG_CKF0.VALID p e) then
    let c := copyWord R.ENG_CKF1.BEAT R.ENG_CKF_PREV1.BEAT p e (copyWord R.ENG_CKF0.VALID R.ENG_CKF_PREV0.VALID p e c)
    setB (engF R.ENG_CKF0.VALID p e) false
      (raise evArith (1 + getF c (engF R.ENG_CKF0.KIND p e)) (srcEngine p e) (ckfDetail c p e) c)
  else c

/-- The records of every engine. -/
def moveRecords (c : Ctl) : Ctl := forN 72 (fun p c => forN 4 (fun e c => moveCkf p e (moveFnf p e c)) c) c

/-! ### Step 1: timeouts (R263) -/

/-- The boundaries counted, in which deadlines are measured (R263). -/
def tick (c : Ctl) : Ctl := { c with ticks := c.ticks + 1 }

/-- Deadlines of requests, handshakes, idle flow contexts (R244, R263). -/
def deadlines (d : Dev) : Dev := onCtl (fun c => flowsDue (admissionsDue c)) (reqsDue d)

/-- A guard without TIME_DOWN (R261, R279, R318). -/
def downMissed (c : Ctl) : Ctl :=
  let src := match upPorts c with
    | q :: _ => ((physPort c q).map srcPort).getD srcDevice
    | [] => srcDevice
  let c := setB R.BEAT_STATUS.ALIGNED false (satF R.TB_LINK.DOWN_MISSED 1 c)
  enterFailed (faultIfOpen 0x11 src (raiseLink 0x0B src 0 c))

/-- Whether a member below the root has had no TIME_DOWN in this guard (R261). -/
def noDown (c : Ctl) : Bool := getB c R.BEAT_STATUS.RUNNING && (myPos c).isSome && !isRoot c && !c.time.gotDown

/-- The values the boundary acts on: the combined ones, or the own count where there are none (R261). -/
def boundaryValues (c : Ctl) : Combined := c.time.comb.getD { next := getF c R.BEAT_NOW.BEAT + 1, snap := 0, stretch := 0, fault := false, lost := none }

/-- Before steps 1 and in step 1: records, the root's own combination, timeouts. -/
def boundaryStart (d : Dev) : Dev :=
  let d := onCtl (fun c => moveRecords (fanCfgTake (tick (gatherStart c)))) d
  let d := if getB d.c R.BEAT_STATUS.RUNNING && isRoot d.c then rootCombine d else d
  let d := onCtl timeUpsDue (deadlines d)
  if noDown d.c then onCtl downMissed d else d

/-! ### Step 3: staged changes (R13, R19) -/

/-- A snapshot boundary of step s: repairs staged, a pending re-key, then the snapshot, whose start abandons a generation whose stripes are not all acknowledged (R211, R216, R354, R361, R393). -/
def snapshotBoundary (s : Nat) (d : Dev) : Dev :=
  let d := onCtl (fun c => rekeyStart (repairBoundary c)) d
  if (mySeat d.c).isNone then d
  else
    let d := if d.c.snap.drain.isNone then onCtl (tailAbandon (fun x => tailPhase x == tailStriping)) d else d
    snapBoundary s (liveDig d.c) d

/-- What a boundary changes whether or not beats run: the heddle map, ports, control processors, re-key, quiesced cores (R13, R216, R233, R238, R434, R474). -/
def stagedChanges (c : Ctl) : Ctl := quiesceBoundary (rekeyBoundary (cpBoundary (portsBoundary (fanHeddle c))))

/-- The heddle map, ports, control processors, re-key, tension and quiesced cores change (R13, R216, R233, R238, R434, R466, R474). -/
def heddleBoundary (c : Ctl) : Ctl := quiesceBoundary (tenTake (rekeyBoundary (cpBoundary (portsBoundary (fanHeddle c)))))

/-- Step 3 of R19, with the snapshot that a seal has brought. -/
def changeBoundary (sealed : Option Nat) (d : Dev) : Dev :=
  let d := onCtl heddleBoundary d
  match sealed with
  | some s => if s % max 1 ((d.c.job.map (·.snap.interval)).getD 1) = 0 then snapshotBoundary s d else d
  | none => d

/-! ### Step 4: the beat and its stretch (R17, R30, R31, R262) -/

/-- The new beat is latched; requests that came too late for this guard's message stand for the next, as do those that no message has carried (R17, R31); the timebase takes its correction (R262). -/
def latchBeat (x : Combined) (stretch : Nat) (c : Ctl) : Ctl :=
  let c := setF R.BEAT_NOW.BEAT x.next (setF R.BEAT_STRETCH.CUR stretch (setB R.BEAT_STRETCH.NEXT_VALID false c))
  let c := onTime (fun t => { t with
    inGuard := false, joined := false, adj := t.adj - t.corr, corr := 0, ask := if t.sent then t.askLater else max t.ask t.askLater, askLater := 0, reqLate := false }) c
  setB R.BEAT_STATUS.RUNNING true c

/-- The jitter of the new beat: its segment start is delayed while one is in force and its delay is above 0 (R468). -/
def jitterBoundary (c : Ctl) : Ctl :=
  let m := tenF c R.TEN_JITTER.MAX_NS
  if m = 0 then { c with jitter := false }
  else
    let l := c.lfsr
    { c with jitter := decide (0 < l % (m + 1)), lfsr := (if l % 2 = 1 then (l / 2) ^^^ 0xB400 else l / 2) }

/-! ### The boundary -/

/-- What is measured and counted at the boundary: the unaligned beat, the fantail, the age of events, traffic, the porthole (R15, R215, R382, R457). -/
def measureBoundary (unaligned : Bool) (ending step : Nat) (r : Readings) (d : Dev) : Dev :=
  let d := if unaligned then onCtl chargeUnaligned d else d
  portRun (onCtl (fun c => r.upsets.foldl (fun c u => upset u c) (takeCounts r (hotCount (evtAge c)))) (fanBoundary ending step r d))

/-- The end of a boundary, from the roster's settlement `o` on: staged changes, the latched registers, measurements, then what the plan starts (R19). -/
def boundaryFinish (unaligned : Bool) (step : Nat) (r : Readings) (x : Combined) (stretch : Nat) (sealed : Option Nat) (o : Dev × Plan) : Dev :=
  onCtl gatherEnd (runPlan o.2 (measureBoundary unaligned (getF o.1.c R.BEAT_NOW.BEAT) step r (onCtl (fun c => jitterBoundary (latchBeat x stretch c)) (changeBoundary sealed o.1))))

/-- A running device's boundary, and that at which it joins the job (R19, R257). -/
def runBoundary (r : Readings) (d : Dev) : Dev :=
  let missed := noDown d.c
  let step := getF d.c R.STEP_NOW.STEP
  let d := boundaryStart d
  let x := boundaryValues d.c
  let stretch := if missed then 0 else max x.stretch (recordedNext d)
  let unaligned := getB d.c R.BEAT_STATUS.RUNNING && !getB d.c R.BEAT_STATUS.ALIGNED
  let d := onCtl (moveRollback x.snap) (firstBeatEnd d)
  let k := endStep x.fault missed d.c
  let d := heldReadsServe (onCtl (fun _ => moveRollback x.snap k.c) d)
  let d := onCtl (fun c => { c with place := { c.place with prevVer := none } }) d
  boundaryFinish unaligned step r x stretch k.sealed (rosterBoundary x.lost k.plan d)

/-- Whether a die or stack sensor has reached 125 °C, in eighths of a degree (R403, R487). -/
def tooHot (r : Readings) : Bool := r.temps.any (fun t => decide (1000 ≤ t.value))

/-- BEAT_BOUNDARY: after the guard of a running device, or where one has joined; a sensor at 125 °C switches the module off (R19, R257, R487). -/
def beatBoundary (r : Readings) (d : Dev) : Dev :=
  if !timeOn d.c then d
  else if (if getB d.c R.BEAT_STATUS.RUNNING then d.c.time.inGuard else d.c.time.joined) then
    (if tooHot r then overheat d else runBoundary r d)
  else d

/-- The root opens job beat 0, unless its clock has failed under this job (R495; log entry 166). Jitter may delay its segment start like any other (R257, R468). -/
def rootJoin (c : Ctl) : Ctl :=
  if isRoot c && !c.time.stopped then
    setB R.BEAT_STATUS.ALIGNED true (setF R.BEAT_STATUS.OFFSET_NS 0 (setB R.BEAT_STATUS.RUNNING true (setF R.BEAT_NOW.BEAT 0 (setF R.BEAT_STRETCH.CUR 0 (onTime (fun t => { t with inGuard := false }) (jitterBoundary c))))))
  else c

/-- LOCAL_BEAT_BOUNDARY: deadlines, the changes staged for a boundary, and the root joins (R13, R257, R263). -/
def localBoundary (d : Dev) : Dev :=
  if !timeOn d.c || getB d.c R.BEAT_STATUS.RUNNING || d.c.time.joined then d
  else onCtl (fun c => gatherEnd (rootJoin (stagedChanges c))) (deadlines (onCtl (fun c => fanCfgTake (tick (gatherStart c))) d))

/-! ### Frames that come by other ways (R255, R468) -/

/-- What a frame of no defined class or type is to the part: R255 lets none through. -/
def gotNothing : Handler := fun _ _ d => d

/-- The handler of a class and type. -/
def handlerOf (cls type : Nat) : Handler :=
  match cls, type with
  | 0, 0x01 => gotTimeUp
  | 0, 0x02 => gotTimeDown
  | 0, 0x10 => gotHello
  | 0, 0x11 => gotProve
  | 0, 0x12 => gotAdmitted
  | 0, 0x13 => gotReject
  | 1, 0x01 => gotPart
  | 1, 0x02 => gotData
  | 1, 0x03 => gotRing
  | 1, 0x04 => gotCready
  | 1, 0x05 => gotVoteUp
  | 1, 0x06 => gotVoteDown
  | 1, 0x10 => gotDigest
  | 2, 0x01 => gotReadReq
  | 2, 0x02 => gotResponse true
  | 2, 0x03 => gotWrite
  | 2, 0x04 => gotAddWrite
  | 2, 0x05 => gotResponse false
  | 3, 0x01 => gotImgData
  | 3, 0x02 => gotImgAck
  | 3, 0x03 => gotImgEnd
  | 3, 0x04 => gotImgDone
  | 3, 0x05 => gotImgReq
  | 3, 0x11 => gotStripeData
  | 3, 0x12 => gotStripeEnd
  | 3, 0x13 => gotStripeAck
  | 3, 0x14 => gotStripeReq
  | 3, 0x15 => gotRecData
  | 3, 0x16 => gotRecAck
  | 3, 0x17 => gotRecReq
  | _, _ => gotNothing

/-- A frame meets the checks and its own handler. -/
def receiveAny (rx : Rx) (d : Dev) : Dev := receive (handlerOf rx.frame.hdr.cls.toNat rx.frame.hdr.type.toNat) rx d

/-- INGRESS_DELAY_RELEASE: the oldest frame held on physical port p (R468). -/
def ingressRelease (p : Nat) (d : Dev) : Dev :=
  match d.c.ingress.find? (fun r => r.port == p) with
  | some rx => receiveAny rx { d with c := { d.c with ingress := d.c.ingress.eraseP (fun r => r.port == p) } }
  | none => d

/-- MALFORMED_FRAME: a frame as it stands, of whatever class and type (R255). -/
def anyFrame (rx : Rx) (d : Dev) : Dev :=
  arrive rx.frame.hdr.cls.toNat rx.frame.hdr.type.toNat (handlerOf rx.frame.hdr.cls.toNat rx.frame.hdr.type.toNat) rx d

/-- BEAT_BOUNDARY. -/
def execBeatBoundary (r : Readings) (s : State) : Host.Outcome State Fault Refusal := runDev (beatBoundary r) s

/-- LOCAL_BEAT_BOUNDARY. -/
def execLocalBeatBoundary (s : State) : Host.Outcome State Fault Refusal := runDev localBoundary s

/-- INGRESS_DELAY_RELEASE. -/
def execIngressDelayRelease (port : Nat) (s : State) : Host.Outcome State Fault Refusal := runDev (ingressRelease port) s

/-- MALFORMED_FRAME. -/
def execMalformedFrame (rx : Rx) (s : State) : Host.Outcome State Fault Refusal := runDev (anyFrame rx) s

end Sys2Proof.Machine
end

