-- ==== Sys2Proof/Machine/Dispatch.lean ====
section
/-! DEFINITION. One arm per command: the meaning it has. -/

namespace Sys2Proof.Machine

/-- What a command does to the block, on everything but the queue. -/
def exec (i : Instr) (s : State) : Host.Outcome State Fault Refusal :=
  match i with
  | .beatBoundary r => Sys2Proof.Machine.execBeatBoundary r s
  | .localBeatBoundary => Sys2Proof.Machine.execLocalBeatBoundary s
  | .guardStart cycle => Sys2Proof.Machine.execGuardStart s cycle
  | .beatStretchReq v => Sys2Proof.Machine.execBeatStretchReq v s
  | .timeUpSend now => Sys2Proof.Machine.execTimeUpSend now s
  | .timeDownSend now => Sys2Proof.Machine.execTimeDownSend now s
  | .timeUp rx => Sys2Proof.Machine.execTimeUp rx s
  | .timeDown rx => Sys2Proof.Machine.execTimeDown rx s
  | .timeUpTimeout child => Sys2Proof.Machine.execTimeUpTimeout child s
  | .listWordFetch p t => Sys2Proof.Machine.execListWordFetch p t s
  | .pickLoad p t cycle => Sys2Proof.Machine.execPickLoad p t s cycle
  | .pickStart p t cycle => Sys2Proof.Machine.execPickStart p t cycle s
  | .hollowRetire p t cycle => Sys2Proof.Machine.execHollowRetire p t s cycle
  | .nop p t => Sys2Proof.Machine.execNop p t s
  | .matmul p t => Sys2Proof.Machine.execMatmul p t s
  | .drain p t => Sys2Proof.Machine.execDrain p t s
  | .vmap p => Sys2Proof.Machine.execVmap p s
  | .vred p => Sys2Proof.Machine.execVred p s
  | .vupd p => Sys2Proof.Machine.execVupd p s
  | .move p => Sys2Proof.Machine.execMove p s
  | .moveAdd p => Sys2Proof.Machine.execMoveAdd p s
  | .cntload p => Sys2Proof.Machine.execCntload p s
  | .pload p => Sys2Proof.Machine.execPload p s
  | .flagPickSet p => Sys2Proof.Machine.execFlagPickSet p s
  | .flagPickClear p => Sys2Proof.Machine.execFlagPickClear p s
  | .reduceScatter p => Sys2Proof.Machine.execReduceScatter p s
  | .allReduce p => Sys2Proof.Machine.execAllReduce p s
  | .allGather p => Sys2Proof.Machine.execAllGather p s
  | .broadcast p => Sys2Proof.Machine.execBroadcast p s
  | .ringPass p => Sys2Proof.Machine.execRingPass p s
  | .vote p => Sys2Proof.Machine.execVote p s
  | .voteWaitExpiry => Sys2Proof.Machine.execVoteWaitExpiry s
  | .pickComplete p t cycle => Sys2Proof.Machine.execPickComplete p t s cycle
  | .knownAnswerPick k => Sys2Proof.Machine.execKnownAnswerPick k s
  | .seqCntWrite p n v => Sys2Proof.Machine.execSeqCntWrite p n v s
  | .seqLflagSet p v => Sys2Proof.Machine.execSeqLflagSet p v s
  | .seqLflagClr p v => Sys2Proof.Machine.execSeqLflagClr p v s
  | .faddI32 a => Sys2Proof.Machine.execFaddI32 a s
  | .faddI64 a => Sys2Proof.Machine.execFaddI64 a s
  | .faddF32 a => Sys2Proof.Machine.execFaddF32 a s
  | .cas64 a => Sys2Proof.Machine.execCas64 a s
  | .flagSet a => Sys2Proof.Machine.execFlagSet a s
  | .flagClr a => Sys2Proof.Machine.execFlagClr a s
  | .atomicOpUndefined op a => Sys2Proof.Machine.execAtomicOpUndefined op a s
  | .atomicSlotFill m off width v => Sys2Proof.Machine.execAtomicSlotFill m off width v s
  | .portholeRead off width => Sys2Proof.Machine.execPortholeRead off width s
  | .portholeWrite off width v => Sys2Proof.Machine.execPortholeWrite off width v s
  | .portholeReadTimeout => Sys2Proof.Machine.execPortholeReadTimeout s
  | .readReq rx => Sys2Proof.Machine.execReadReq rx s
  | .readRsp rx => Sys2Proof.Machine.execReadRsp rx s
  | .write rx => Sys2Proof.Machine.execWrite rx s
  | .addWrite rx => Sys2Proof.Machine.execAddWrite rx s
  | .ack rx => Sys2Proof.Machine.execAck rx s
  | .rmaDeadline tag => Sys2Proof.Machine.execRmaDeadline tag s
  | .hello rx => Sys2Proof.Machine.execHello rx s
  | .prove rx => Sys2Proof.Machine.execProve rx s
  | .admitted rx => Sys2Proof.Machine.execAdmitted rx s
  | .reject rx => Sys2Proof.Machine.execReject rx s
  | .admissionDeadline peer => Sys2Proof.Machine.execAdmissionDeadline peer s
  | .admissionRetry peer => Sys2Proof.Machine.execAdmissionRetry peer s
  | .clearQuar => Sys2Proof.Machine.execClearQuar s
  | .retry => Sys2Proof.Machine.execRetry s
  | .flowContextFree flow => Sys2Proof.Machine.execFlowContextFree flow s
  | .laneFail port lane => Sys2Proof.Machine.execLaneFail port lane s
  | .laserFail port lane dead => Sys2Proof.Machine.execLaserFail port lane dead s
  | .spareLaserSettled port lane lit => Sys2Proof.Machine.execSpareLaserSettled port lane lit s
  | .portTrainingDone port => Sys2Proof.Machine.execPortTrainingDone port s
  | .portTrainingTimeout port => Sys2Proof.Machine.execPortTrainingTimeout port s
  | .restart port => Sys2Proof.Machine.execRestart port s
  | .takeDown port => Sys2Proof.Machine.execTakeDown port s
  | .cvData8 u v => Sys2Proof.Machine.execCvData8 u v s
  | .cvData16 u v => Sys2Proof.Machine.execCvData16 u v s
  | .cvData32 u v => Sys2Proof.Machine.execCvData32 u v s
  | .cvStateWrite u v => Sys2Proof.Machine.execCvStateWrite u v s
  | .cvCfgWrite u v => Sys2Proof.Machine.execCvCfgWrite u v s
  | .cvExpect u v => Sys2Proof.Machine.execCvExpect u v s
  | .part rx => Sys2Proof.Machine.execPart rx s
  | .data rx => Sys2Proof.Machine.execData rx s
  | .ring rx => Sys2Proof.Machine.execRing rx s
  | .cready rx => Sys2Proof.Machine.execCready rx s
  | .voteUp rx => Sys2Proof.Machine.execVoteUp rx s
  | .voteDown rx => Sys2Proof.Machine.execVoteDown rx s
  | .digest rx => Sys2Proof.Machine.execDigest rx s
  | .digestSweepDone => Sys2Proof.Machine.execDigestSweepDone s
  | .retainFileDone => Sys2Proof.Machine.execRetainFileDone s
  | .restoreComplete => Sys2Proof.Machine.execRestoreComplete s
  | .replayStart => Sys2Proof.Machine.execReplayStart s
  | .recCtrlArm => Sys2Proof.Machine.execRecCtrlArm s
  | .armedRecoveryStart => Sys2Proof.Machine.execArmedRecoveryStart s
  | .voteCfgWrite v => Sys2Proof.Machine.execVoteCfgWrite v s
  | .govRecDataWrite v => Sys2Proof.Machine.execGovRecDataWrite v s
  | .govRecDataRead => Sys2Proof.Machine.execGovRecDataRead s
  | .govTelWrite => Sys2Proof.Machine.execGovTelWrite s
  | .govTelSizeWrite v => Sys2Proof.Machine.execGovTelSizeWrite v s
  | .snapshotLineCopy => Sys2Proof.Machine.execSnapshotLineCopy s
  | .snapshotComplete => Sys2Proof.Machine.execSnapshotComplete s
  | .channelMoveStart l => Sys2Proof.Machine.execChannelMoveStart l s
  | .moveJobUnitCopy job => Sys2Proof.Machine.execMoveJobUnitCopy job s
  | .channelMoveComplete => Sys2Proof.Machine.execChannelMoveComplete s
  | .retrain n pass => Sys2Proof.Machine.execRetrain n pass s
  | .calibration n eye => Sys2Proof.Machine.execCalibration n eye s
  | .scrub a f => Sys2Proof.Machine.execScrub a f s
  | .rekeyReq => Sys2Proof.Machine.execRekeyReq s
  | .rekeyComplete => Sys2Proof.Machine.execRekeyComplete s
  | .hotspot => Sys2Proof.Machine.execHotspot s
  | .mirrorExtentSend => Sys2Proof.Machine.execMirrorExtentSend s
  | .mirrorExtentResend extent => Sys2Proof.Machine.execMirrorExtentResend extent s
  | .imgData rx => Sys2Proof.Machine.execImgData rx s
  | .imgAck rx => Sys2Proof.Machine.execImgAck rx s
  | .imgEnd rx => Sys2Proof.Machine.execImgEnd rx s
  | .imgDone rx => Sys2Proof.Machine.execImgDone rx s
  | .imgReq rx => Sys2Proof.Machine.execImgReq rx s
  | .stripeData rx => Sys2Proof.Machine.execStripeData rx s
  | .stripeEnd rx => Sys2Proof.Machine.execStripeEnd rx s
  | .stripeAck rx => Sys2Proof.Machine.execStripeAck rx s
  | .stripeResend stripe => Sys2Proof.Machine.execStripeResend stripe s
  | .stripeReq rx => Sys2Proof.Machine.execStripeReq rx s
  | .tailCommitRecord => Sys2Proof.Machine.execTailCommitRecord s
  | .recData rx => Sys2Proof.Machine.execRecData rx s
  | .recAck rx => Sys2Proof.Machine.execRecAck rx s
  | .recReq rx => Sys2Proof.Machine.execRecReq rx s
  | .rstCtrlGo => Sys2Proof.Machine.execRstCtrlGo s
  | .coreMoveStart => Sys2Proof.Machine.execCoreMoveStart s
  | .coreMoveLineCopy => Sys2Proof.Machine.execCoreMoveLineCopy s
  | .coreMoveDrainDone => Sys2Proof.Machine.execCoreMoveDrainDone s
  | .heartbeat => Sys2Proof.Machine.execHeartbeat s
  | .heartbeatMiss => Sys2Proof.Machine.execHeartbeatMiss s
  | .standingDecision => Sys2Proof.Machine.execStandingDecision s
  | .spillWriteback => Sys2Proof.Machine.execSpillWriteback s
  | .heatStepDown c => Sys2Proof.Machine.execHeatStepDown c s
  | .underate => Sys2Proof.Machine.execUnderate s
  | .fanRetire => Sys2Proof.Machine.execFanRetire s
  | .fanClear => Sys2Proof.Machine.execFanClear s
  | .draftBegin => Sys2Proof.Machine.execDraftBegin s
  | .draftData v => Sys2Proof.Machine.execDraftData v s
  | .draftPull => Sys2Proof.Machine.execDraftPull s
  | .draftAbort => Sys2Proof.Machine.execDraftAbort s
  | .draftVerifyDone => Sys2Proof.Machine.execDraftVerifyDone s
  | .draftStartAt => Sys2Proof.Machine.execDraftStartAt s
  | .draftPinCtrlWrite v => Sys2Proof.Machine.execDraftPinCtrlWrite v s
  | .selfTestDone f r => Sys2Proof.Machine.execSelfTestDone f r s
  | .selfTestTimeout f => Sys2Proof.Machine.execSelfTestTimeout f s
  | .fwBegin => Sys2Proof.Machine.execFwBegin s
  | .fwData v => Sys2Proof.Machine.execFwData v s
  | .fwStage => Sys2Proof.Machine.execFwStage s
  | .fwStageDone => Sys2Proof.Machine.execFwStageDone s
  | .fwUpdate => Sys2Proof.Machine.execFwUpdate s
  | .fwSyncStart => Sys2Proof.Machine.execFwSyncStart s
  | .fwBoot => Sys2Proof.Machine.execFwBoot s
  | .fwCommitSecver => Sys2Proof.Machine.execFwCommitSecver s
  | .attGo => Sys2Proof.Machine.execAttGo s
  | .attDone => Sys2Proof.Machine.execAttDone s
  | .functionLevelReset => Sys2Proof.Machine.execFunctionLevelReset s
  | .hotReset => Sys2Proof.Machine.execHotReset s
  | .linkLoss => Sys2Proof.Machine.execLinkLoss s
  | .d3hot => Sys2Proof.Machine.execD3hot s
  | .evtPop => Sys2Proof.Machine.execEvtPop s
  | .evtAgeExpiry => Sys2Proof.Machine.execEvtAgeExpiry s
  | .irqStatusClear v => Sys2Proof.Machine.execIrqStatusClear v s
  | .irqEnableWrite v => Sys2Proof.Machine.execIrqEnableWrite v s
  | .registerWrite off width v => Sys2Proof.Machine.execRegisterWrite off width v s
  | .tenArm v => Sys2Proof.Machine.execTenArm v s
  | .tensionRegWrite off width v => Sys2Proof.Machine.execTensionRegWrite off width v s
  | .ingressDelayRelease port => Sys2Proof.Machine.execIngressDelayRelease port s
  | .tenLbStart => Sys2Proof.Machine.execTenLbStart s
  | .tenLbStop => Sys2Proof.Machine.execTenLbStop s
  | .loopbackRunEnd => Sys2Proof.Machine.execLoopbackRunEnd s
  | .dbgQuiesceWrite hi v => Sys2Proof.Machine.execDbgQuiesceWrite hi v s
  | .dbgAccRead => Sys2Proof.Machine.execDbgAccRead s
  | .dbgAccWrite v => Sys2Proof.Machine.execDbgAccWrite v s
  | .dbgTraceWrite => Sys2Proof.Machine.execDbgTraceWrite s
  | .dbgTraceSizeWrite v => Sys2Proof.Machine.execDbgTraceSizeWrite v s
  | .powerOn => Sys2Proof.Machine.execPowerOn s
  | .resetRelease => Sys2Proof.Machine.execResetRelease s
  | .sidebandReset => Sys2Proof.Machine.execSidebandReset s
  | .perst => Sys2Proof.Machine.execPerst s
  | .undervoltageOff => Sys2Proof.Machine.execUndervoltageOff s
  | .undervoltageRestart => Sys2Proof.Machine.execUndervoltageRestart s
  | .overvoltageOff => Sys2Proof.Machine.execOvervoltageOff s
  | .overcurrentOff => Sys2Proof.Machine.execOvercurrentOff s
  | .overtempOff => Sys2Proof.Machine.execOvertempOff s
  | .powerRemoved => Sys2Proof.Machine.execPowerRemoved s
  | .refclkLoss k => Sys2Proof.Machine.execRefclkLoss k s
  | .modId x => Sys2Proof.Machine.execModId s x
  | .vin x reading => Sys2Proof.Machine.execVin x s reading
  | .iin x reading => Sys2Proof.Machine.execIin x s reading
  | .pin x reading => Sys2Proof.Machine.execPin x s reading
  | .pinPeak x peak => Sys2Proof.Machine.execPinPeak s x peak
  | .pinPeakClear x => Sys2Proof.Machine.execPinPeakClear s x
  | .tempMax x => Sys2Proof.Machine.execTempMax s x
  | .plateIn x reading => Sys2Proof.Machine.execPlateIn x s reading
  | .plateOut x reading => Sys2Proof.Machine.execPlateOut x s reading
  | .modStatus x => Sys2Proof.Machine.execModStatus s x
  | .modStatusWrite x => Sys2Proof.Machine.execModStatusWrite x s
  | .malformedFrame rx => Sys2Proof.Machine.execMalformedFrame rx s
  | .restoreRequestTimeout idx => Sys2Proof.Machine.execRestoreRequestTimeout idx s
  | .captureReadoutDone => Sys2Proof.Machine.execCaptureReadoutDone s
  | .stripeSend => Sys2Proof.Machine.execStripeSend s
  | .reloadCopyDone p => Sys2Proof.Machine.execReloadCopyDone p s
  | .jitteredSegmentStart => Sys2Proof.Machine.execJitteredSegmentStart s
  | .delayedFlagSet p t => Sys2Proof.Machine.execDelayedFlagSet p t s
  | .pauseEnd port => Sys2Proof.Machine.execPauseEnd port s
  | .stageRestoreDone => Sys2Proof.Machine.execStageRestoreDone s
  | .fwSyncDone => Sys2Proof.Machine.execFwSyncDone s
  | .returnToD0 => Sys2Proof.Machine.execReturnToD0 s
  | .busMasterEnable w => Sys2Proof.Machine.execBusMasterEnable w s
  | .pcieLoopback b => Sys2Proof.Machine.execPcieLoopback b s
  | .hostLinkTrained rate width flit => Sys2Proof.Machine.execHostLinkTrained rate width flit s
  | .refclkReturn k => Sys2Proof.Machine.execRefclkReturn k s
  | .vinWarnChange uv ov => Sys2Proof.Machine.execVinWarnChange uv ov s
  | .coolWarnChange inlet outlet => Sys2Proof.Machine.execCoolWarnChange inlet s outlet

end Sys2Proof.Machine
end

