-- ==== Sys2Proof/WellFormed.lean ====
section
/-! DEFINITION. Well-formed commands: those whose operands name a unit, a register slot or a frame that can exist. A command that is not well-formed reaches no unit, and leaves the block as it is (log entry 42). -/

namespace Sys2Proof

/-- Physical cores (R12). -/
def isCore (p : Nat) : Bool := decide (p < 72)

/-- Treadles of a core (R128): four that feed engines, one for the vector unit, one for the shuttle. -/
def isTreadle (p t : Nat) : Bool := decide (p < 72) && decide (t < 6)

/-- Treadles that feed matrix engines (R128). -/
def isEngineTreadle (p t : Nat) : Bool := decide (p < 72) && decide (t < 4)

/-- Physical ports (R228). -/
def isPort (p : Nat) : Bool := decide (p < 38)

/-- Lanes of a port (R228). -/
def isLane (p l : Nat) : Bool := decide (p < 38) && decide (l < 8)

/-- Check-value units (R248). -/
def isUnit (u : Nat) : Bool := decide (u < 16)

/-- An access moves at least a byte; what other sizes than those a block takes do is the block's (R9, R184, R187). -/
def isWidth (w : Nat) : Bool := decide (1 ≤ w)

/-- A physical engine and column (R159, R387). -/
def KnownUnit.wf : KnownUnit → Bool
  | .engine e => decide (e < 4)
  | .column e col => decide (e < 4) && decide (col < 128)
  | .vector => true
  | .shuttle => true

/-- A frame arrives at a physical port (R228); what is wrong with the frame itself the selvedge judges (R255). -/
def Rx.wf (rx : Rx) : Bool := isPort rx.port

/-- A function with a READY bit (R444, R445). -/
def Func.wf : Func → Bool
  | .main b => decide (b < 64)
  | .port p => decide (p < 38)
  | .core p => decide (p < 72)

/-- Readings name cores, lanes and sensors that exist (R382, R383, R410). -/
def Readings.wf (r : Readings) : Bool :=
  r.temps.all (fun x => decide (x.idx < 104)) && r.cores.all (fun x => decide (x.core < 72)) &&
    r.lanes.all (fun x => decide (x.port < 38) && decide (x.lane < 8)) && r.mpEyes.all (fun x => decide (x.idx < 32)) &&
    r.fec.all (fun x => decide (x.idx < 38)) && r.links.all (fun x => decide (x.idx < 8))

/-- Whether a command's operands name things that exist. -/
def Instr.wf : Instr → Bool
  | .beatBoundary r => r.wf
  | .localBeatBoundary => true
  | .guardStart _ => true
  | .beatStretchReq _ => true
  | .timeUpSend _ => true
  | .timeDownSend _ => true
  | .timeUp rx => rx.wf
  | .timeDown rx => rx.wf
  | .timeUpTimeout _ => true
  | .listWordFetch p t => isTreadle p t
  | .pickLoad p t _ => isTreadle p t
  | .pickStart p t _ => isTreadle p t
  | .hollowRetire p t _ => isTreadle p t
  | .nop p t => isTreadle p t
  | .matmul p t => isEngineTreadle p t
  | .drain p t => isEngineTreadle p t
  | .vmap p => isCore p
  | .vred p => isCore p
  | .vupd p => isCore p
  | .move p => isCore p
  | .moveAdd p => isCore p
  | .cntload p => isCore p
  | .pload p => isCore p
  | .flagPickSet p => isCore p
  | .flagPickClear p => isCore p
  | .reduceScatter p => isCore p
  | .allReduce p => isCore p
  | .allGather p => isCore p
  | .broadcast p => isCore p
  | .ringPass p => isCore p
  | .vote p => isCore p
  | .voteWaitExpiry => true
  | .pickComplete p t _ => isTreadle p t
  | .knownAnswerPick k => isCore k.core && k.unit.wf
  | .seqCntWrite p n _ => isCore p && decide (n < 32)
  | .seqLflagSet p _ => isCore p
  | .seqLflagClr p _ => isCore p
  | .faddI32 _ => true
  | .faddI64 _ => true
  | .faddF32 _ => true
  | .cas64 _ => true
  | .flagSet _ => true
  | .flagClr _ => true
  | .atomicOpUndefined _ _ => true
  | .atomicSlotFill m off width _ => decide (m < 3) && decide (off < 0x20) && isWidth width
  | .portholeRead _ width => isWidth width
  | .portholeWrite _ width _ => isWidth width
  | .portholeReadTimeout => true
  | .readReq rx => rx.wf
  | .readRsp rx => rx.wf
  | .write rx => rx.wf
  | .addWrite rx => rx.wf
  | .ack rx => rx.wf
  | .rmaDeadline _ => true
  | .hello rx => rx.wf
  | .prove rx => rx.wf
  | .admitted rx => rx.wf
  | .reject rx => rx.wf
  | .admissionDeadline _ => true
  | .admissionRetry _ => true
  | .clearQuar => true
  | .retry => true
  | .flowContextFree _ => true
  | .laneFail port lane => isLane port lane
  | .laserFail port lane _ => isLane port lane
  | .spareLaserSettled port lane _ => isLane port lane
  | .portTrainingDone port => isPort port
  | .portTrainingTimeout port => isPort port
  | .restart port => isPort port
  | .takeDown port => isPort port
  | .cvData8 u _ => isUnit u
  | .cvData16 u _ => isUnit u
  | .cvData32 u _ => isUnit u
  | .cvStateWrite u _ => isUnit u
  | .cvCfgWrite u _ => isUnit u
  | .cvExpect u _ => isUnit u
  | .part rx => rx.wf
  | .data rx => rx.wf
  | .ring rx => rx.wf
  | .cready rx => rx.wf
  | .voteUp rx => rx.wf
  | .voteDown rx => rx.wf
  | .digest rx => rx.wf
  | .digestSweepDone => true
  | .retainFileDone => true
  | .restoreComplete => true
  | .replayStart => true
  | .recCtrlArm => true
  | .armedRecoveryStart => true
  | .voteCfgWrite _ => true
  | .govRecDataWrite _ => true
  | .govRecDataRead => true
  | .govTelWrite => true
  | .govTelSizeWrite _ => true
  | .snapshotLineCopy => true
  | .snapshotComplete => true
  | .channelMoveStart l => decide (l < 240)
  | .moveJobUnitCopy _ => true
  | .channelMoveComplete => true
  | .retrain n _ => decide (n < 256)
  | .calibration n _ => decide (n < 256)
  | .scrub _ _ => true
  | .rekeyReq => true
  | .rekeyComplete => true
  | .hotspot => true
  | .mirrorExtentSend => true
  | .mirrorExtentResend _ => true
  | .imgData rx => rx.wf
  | .imgAck rx => rx.wf
  | .imgEnd rx => rx.wf
  | .imgDone rx => rx.wf
  | .imgReq rx => rx.wf
  | .stripeData rx => rx.wf
  | .stripeEnd rx => rx.wf
  | .stripeAck rx => rx.wf
  | .stripeResend _ => true
  | .stripeReq rx => rx.wf
  | .tailCommitRecord => true
  | .recData rx => rx.wf
  | .recAck rx => rx.wf
  | .recReq rx => rx.wf
  | .rstCtrlGo => true
  | .coreMoveStart => true
  | .coreMoveLineCopy => true
  | .coreMoveDrainDone => true
  | .heartbeat => true
  | .heartbeatMiss => true
  | .standingDecision => true
  | .spillWriteback => true
  | .heatStepDown c => isCore c
  | .underate => true
  | .fanRetire => true
  | .fanClear => true
  | .draftBegin => true
  | .draftData _ => true
  | .draftPull => true
  | .draftAbort => true
  | .draftVerifyDone => true
  | .draftStartAt => true
  | .draftPinCtrlWrite _ => true
  | .selfTestDone f _ => f.wf
  | .selfTestTimeout f => f.wf
  | .fwBegin => true
  | .fwData _ => true
  | .fwStage => true
  | .fwStageDone => true
  | .fwUpdate => true
  | .fwSyncStart => true
  | .fwBoot => true
  | .fwCommitSecver => true
  | .attGo => true
  | .attDone => true
  | .functionLevelReset => true
  | .hotReset => true
  | .linkLoss => true
  | .d3hot => true
  | .evtPop => true
  | .evtAgeExpiry => true
  | .irqStatusClear _ => true
  | .irqEnableWrite _ => true
  | .registerWrite _ width _ => isWidth width
  | .tenArm _ => true
  | .tensionRegWrite _ width _ => isWidth width
  | .ingressDelayRelease port => isPort port
  | .tenLbStart => true
  | .tenLbStop => true
  | .loopbackRunEnd => true
  | .dbgQuiesceWrite _ _ => true
  | .dbgAccRead => true
  | .dbgAccWrite _ => true
  | .dbgTraceWrite => true
  | .dbgTraceSizeWrite _ => true
  | .powerOn => true
  | .resetRelease => true
  | .sidebandReset => true
  | .perst => true
  | .undervoltageOff => true
  | .undervoltageRestart => true
  | .overvoltageOff => true
  | .overcurrentOff => true
  | .overtempOff => true
  | .powerRemoved => true
  | .refclkLoss _ => true
  | .modId _ => true
  | .vin _ _ => true
  | .iin _ _ => true
  | .pin _ _ => true
  | .pinPeak _ _ => true
  | .pinPeakClear _ => true
  | .tempMax _ => true
  | .plateIn _ _ => true
  | .plateOut _ _ => true
  | .modStatus _ => true
  | .modStatusWrite _ => true
  | .malformedFrame rx => rx.wf
  | .restoreRequestTimeout _ => true
  | .captureReadoutDone => true
  | .stripeSend => true
  | .reloadCopyDone p => isCore p
  | .jitteredSegmentStart => true
  | .delayedFlagSet p t => isTreadle p t
  | .pauseEnd port => isPort port
  | .stageRestoreDone => true
  | .fwSyncDone => true
  | .returnToD0 => true
  | .busMasterEnable _ => true
  | .pcieLoopback _ => true
  | .hostLinkTrained _ _ _ => true
  | .refclkReturn _ => true
  | .vinWarnChange _ _ => true
  | .coolWarnChange _ _ => true

end Sys2Proof
end

