-- ==== Sys2Proof/Safety.lean ====
section
/-! DEFINITION. What counts as a sound state and a safe run, in the terms the claims use: memory in canonical form, and no more event records than the queue holds (R456). -/

namespace Sys2Proof.Machine

/-- The memory of the device is in canonical form. -/
def Dev.ok (d : Dev) : Prop := Memory.wf d.m = true

/-- The memory of the block is in canonical form. -/
def State.MemOk (s : State) : Prop := s.dev.ok

/-- The event queue holds at most 4,096 records (R456). -/
def State.QueueOk (s : State) : Prop := s.dev.c.host.evq.length ≤ evqMax

/-- The block with another control state: memory and queue as they are. -/
def State.withCtl (s : State) (c : Ctl) : State := { s with dev := { s.dev with c := c } }

/-- The block with another device: the queue as it is. -/
def State.withDev (s : State) (d : Dev) : State := { s with dev := d }

/-- Nothing of the host's waits: every read is answered, every write that has not completed is under way outside the register space, and there is room for another (R450). -/
def PortQuiet (c : Ctl) : Prop :=
  c.host.backlog = [] ∧ c.host.ops.length < writeMax ∧ ∀ o ∈ c.host.ops, o.isRead = false ∧ o.issued = true ∧ portReg c o = none

/-- The module in power-on state but for fuses, flash and the power state `p`: every register, queue, table and sequencer at its reset value, memory empty (R429, R487). -/
def State.poweredOn (s : State) (p : Power) : State :=
  s.withDev { c := { Ctl.reset with fuses := s.dev.c.fuses, flash := flashCut s.dev.c, pwr := p }, m := { gen := 0, cells := [] } }

/-- The block with another power state. -/
def State.withPwr (s : State) (p : Power) : State := s.withCtl { s.dev.c with pwr := p }

/-- A frame that arrives under a class and type is held by no ingress delay (R468) and passes every check of R255 with no frame of its flow lost; the checks leave control state `c`. -/
def Delivered (s : State) (cls type : Nat) (rx : Rx) (c : Ctl) : Prop :=
  running s.dev.c = true ∧ ingressHolds s.dev.c rx.port = false ∧ selvedge (rx.typed cls type) s.dev.c = (c, ⟨true, 0⟩)

end Sys2Proof.Machine

namespace Sys2Proof

/-- The commands that pins, the management controller and the supply give, which act whether or not the module runs (R485 to R498). -/
def Instr.isPin : Instr → Bool
  | .powerOn | .resetRelease | .sidebandReset | .undervoltageOff | .undervoltageRestart | .overvoltageOff | .overcurrentOff | .overtempOff
  | .powerRemoved | .refclkLoss _ | .refclkReturn _ | .vinWarnChange _ _ | .coolWarnChange _ _ | .modId _ | .vin _ _ | .iin _ _ | .pin _ _ | .pinPeak _ _
  | .pinPeakClear _ | .tempMax _ | .plateIn _ _ | .plateOut _ _ | .modStatus _ | .modStatusWrite _ => true
  | _ => false

/-- The commands that act on registers, flags, fields and queues alone, and on no memory. -/
def Instr.isControl : Instr → Bool
  | .beatStretchReq _ | .timeUpTimeout _ | .pickStart _ _ _ | .hollowRetire _ _ _ | .nop _ _ | .voteWaitExpiry | .pickComplete _ _ _
  | .knownAnswerPick _ | .seqCntWrite _ _ _ | .seqLflagSet _ _ | .seqLflagClr _ _ | .admissionDeadline _ | .admissionRetry _ | .clearQuar
  | .retry | .flowContextFree _ | .laneFail _ _ | .laserFail _ _ _ | .spareLaserSettled _ _ _ | .portTrainingDone _
  | .portTrainingTimeout _ | .restart _ | .takeDown _ | .cvData8 _ _ | .cvData16 _ _ | .cvData32 _ _ | .cvStateWrite _ _ | .cvCfgWrite _ _
  | .cvExpect _ _ | .recCtrlArm | .voteCfgWrite _ | .govRecDataWrite _ | .govTelSizeWrite _ | .channelMoveStart _
  | .channelMoveComplete | .retrain _ _ | .calibration _ _ | .scrub _ _ | .rekeyReq | .rekeyComplete | .hotspot | .tailCommitRecord
  | .coreMoveStart | .coreMoveDrainDone | .heartbeat | .heartbeatMiss | .standingDecision | .heatStepDown _ | .underate | .fanRetire
  | .fanClear | .draftBegin | .draftData _ | .draftAbort | .draftPinCtrlWrite _ | .selfTestDone _ _ | .selfTestTimeout _ | .fwBegin
  | .fwData _ | .fwStage | .fwStageDone | .fwUpdate | .fwSyncStart | .fwBoot | .fwCommitSecver | .attGo | .attDone
  | .d3hot | .evtPop | .evtAgeExpiry | .irqStatusClear _ | .irqEnableWrite _ | .tenArm _ | .tensionRegWrite _ _ _
  | .tenLbStart | .tenLbStop | .loopbackRunEnd | .dbgQuiesceWrite _ _ | .dbgAccWrite _ | .dbgTraceSizeWrite _
  | .modId _ | .vin _ _ | .iin _ _ | .pin _ _ | .pinPeak _ _ | .pinPeakClear _ | .tempMax _ | .plateIn _ _ | .plateOut _ _ | .modStatus _ | .modStatusWrite _
  | .reloadCopyDone _ | .jitteredSegmentStart | .delayedFlagSet _ _ | .pauseEnd _ | .fwSyncDone | .returnToD0 | .busMasterEnable _
  | .pcieLoopback _ | .hostLinkTrained _ _ _ | .vinWarnChange _ _ | .coolWarnChange _ _ => true
  | _ => false

end Sys2Proof
end

