-- ==== Sys2Proof/Certificates/Slice0/Obligations.lean ====
section
/-! DEFINITION. The statements for the provers. -/

open Sys2Proof Sys2Proof.Machine

/-! ### The block as a whole -/

/-- A step takes the command at the front of the queue and runs it with the queue's rest; on an empty queue the block idles. Derived: queue and idling are the model's (log entry 1). -/
def Obligations.FrontCommandRuns : Prop :=
  (∀ (s : State) (c : Instr) (rest : List Instr), s.pending = c :: rest → step s = exec c { s with pending := rest }) ∧
  (∀ s : State, s.pending = [] → step s = .next s)

/-- Every command is answered by a next state, and none touches the commands that wait: the spec makes every error a next state, never a stop (R2, R9, R153, R171). -/
def Obligations.CommandsAnswerAndKeepTheQueue : Prop :=
  ∀ (i : Instr) (s : State), ∃ t, exec i s = .next t ∧ t.pending = s.pending

/-- While the module does not run (regulators off, RESET_N low, no system clock), a command changes nothing unless it comes from a pin, the supply or SMBus. The rules say when the module holds power-on state and what the management controller still does then (R429, R487, R489, R495, R498); that no other command acts in it is the model's (log entry 19, DESIGN CHOICE). -/
def Obligations.OffModuleTakesOnlyPinCommands : Prop :=
  ∀ (i : Instr) (s : State), i.isPin = false → running s.dev.c = false → exec i s = .next s

/-- Every step keeps memory in canonical form: keys rising, no listed byte equal to what an unlisted one reads as, so that equal memories are equal data. -/
def Obligations.StepKeepsMemoryForm : Prop :=
  ∀ (s t : State), s.MemOk → step s = .next t → t.MemOk

/-- The commands that act on registers, flags, fields and queues alone leave every byte of memory as it was, in every state. -/
def Obligations.ControlCommandsKeepMemory : Prop :=
  ∀ (i : Instr) (s t : State), i.isControl = true → exec i s = .next t → t.dev.m = s.dev.m

/-- After reset every register word holds the value that the Reset columns and the tables as manufactured give it (R8): in `State.reset`, and in every state that RESET_N low or the removal of input power leaves; the fields listed are those that the columns give a value other than zero. In `State.reset` the module is without power and held in reset by its pull-down (R489), no step is open, no unit is READY, and nothing waits in any queue, the queue of commands among them (the model's, log entry 1). The values where the spec states none are the model's (log entry 3). -/
def Obligations.StateAfterReset : Prop :=
  let c := State.reset.dev.c
  (∀ off, getReg c off = regReset off) ∧
  (∀ (s : State) (i : Instr), i ∈ [Instr.sidebandReset, .powerRemoved] → ∃ t, exec i s = .next t ∧ t.pending = s.pending ∧ ∀ off, getReg t.dev.c off = regReset off) ∧
  (∀ x ∈ [(R.HOST_ID.DEVICE, 0xD101), (R.HOST_ID.LEVEL, 1), (R.PORTHOLE_BASE.DEVICE, 0xFFFF), (R.EVT_IRQ.LEVEL, 1), (R.EVT_IRQ.AGE, 4),
      (R.REC_CFG.MAX_ATTEMPTS, 3), (R.REC_CFG.RESTORE_BEATS, 2000), (R.VOTE_CFG.STRETCH_S, 16), (R.VOTE_CFG.WAIT_US, 50), (R.FAN_CFG.DECAY, 12),
      (R.FAN_CFG.UNIT_RETIRE, 192), (R.FAN_CFG.COND_MIN, 3), (R.FAN_CFG.T_BASE, 512), (R.FAN_CFG.RAISE, 128), (R.FAN_CFG.AUTO_SPARE, 1),
      (R.FAN_HEAT_CFG.STRETCH, 16), (R.FAN_HEAT_CFG.F_MIN, 2), (R.FAN_HEAT.F, 7), (R.FAN_CP.HB_MISS, 2), (R.CV_STATE.STATE, 0xFFFFFFFF),
      (R.MEM_HOT_CFG.RATIO, 96), (R.MEM_HOT_CFG.BEATS, 4000), (R.SEL_TMO.RMA, 2), (R.SEL_TMO.TIME, 8), (R.SEL_TMO.ADMIT, 400),
      (R.READY_MAIN.HOST, 0), (R.STEP_STATUS.OPEN, 0), (R.BEAT_STATUS.RUNNING, 0), (R.DRAFT_STATUS.STATE, 0), (R.EVT_STATUS.DROPS, 0)], getF c x.1 = x.2) ∧
  running c = false ∧ c.pwr.modStatus = 0 ∧ getReg c R.READY_PORT.PORTS.off = 0 ∧ getReg c R.READY_CORE0.CORES.off = 0 ∧
    getReg c R.READY_CORE1.CORES.off = 0 ∧ getReg c R.IRQ_STATUS.adr = 0 ∧ getReg c R.IRQ_ENABLE.adr = 0 ∧
    c.host.evq = [] ∧ c.host.ops = [] ∧ c.reqs = [] ∧ c.txq = [] ∧ c.treadles = [] ∧ c.job = none ∧ State.reset.MemOk ∧ State.reset.QueueOk ∧ State.reset.pending = []

/-! ### Power, pins and SMBus -/

/-- Input power and RESET_N (R485, R487, R488, R489, R429): applying power turns the regulators on, a latched switch-off forgotten; releasing RESET_N lets the functions begin, with the units of the repair records left out once the module runs (R428); either does nothing where it is so already. RESET_N low, and power removed, leave power-on state: every register, queue, treadle, table and memory as after reset, but for fuses, flash and what the pins and the management controller hold. A firmware write under way spoils the slot it was writing. The regulators switch off (R487): each of the four conditions leaves power-on state with its cause in LAST_OFF, an overtemperature with HOT besides, the warnings of a voltage that is gone cleared; an undervoltage restarts by itself once VIN is back, the other three are latched, and a restart does nothing then. -/
def Obligations.PowerPinsAndRegulators : Prop :=
  (∀ s : State,
      let p := s.dev.c.pwr
      let begin_ (q : Power) : State := s.withDev (startUp { s.dev with c := { s.dev.c with pwr := q } })
      (p.input = false → exec .powerOn s = .next (begin_ { p with input := true, on := true, latched := false })) ∧
      (p.input = true → exec .powerOn s = .next s) ∧
      (p.released = false → exec .resetRelease s = .next (begin_ { p with released := true })) ∧
      (p.released = true → exec .resetRelease s = .next s) ∧
      exec .sidebandReset s = .next (s.poweredOn { p with released := false, held := p.held && p.noSystem }) ∧
      exec .powerRemoved s = .next (s.poweredOn
        { p with input := false, on := false, latched := false, held := p.held && p.noSystem, modStatus := 0, pinPeak := 0, plateIn := none, plateOut := none })) ∧
  (∀ d : Dev, (running d.c = false → startUp d = d) ∧ (running d.c = true → startUp d = { d with c := applyRepairs d.c })) ∧
  (∀ c : Ctl, (c.fw.staging = false → flashCut c = c.flash) ∧
    (c.fw.staging = true → getF c R.FW_STATUS.ACTIVE_SLOT = 1 → flashCut c = { c.flash with badA := true }) ∧
    (c.fw.staging = true → getF c R.FW_STATUS.ACTIVE_SLOT = 0 → flashCut c = { c.flash with badB := true })) ∧
  (∀ s : State, s.dev.c.pwr.input = true →
      let p := s.dev.c.pwr
      let off (m : BitVec 16) (why : Nat) (latch : Bool) : State :=
        s.poweredOn { p with on := false, latched := latch, modStatus := m ||| BitVec.ofNat 16 (why * 256) }
      (p.on = true →
        exec .undervoltageOff s = .next (off (p.modStatus &&& 0xF8FC) 1 false) ∧
        exec .overvoltageOff s = .next (off (p.modStatus &&& 0xF8FC) 2 true) ∧
        exec .overcurrentOff s = .next (off (p.modStatus &&& 0xF8FF) 3 true) ∧
        exec .overtempOff s = .next (off ((p.modStatus ||| 8) &&& 0xF8FF) 4 true)) ∧
      (p.on = false → ∀ i ∈ [Instr.undervoltageOff, .overvoltageOff, .overcurrentOff], exec i s = .next s) ∧
      (p.on = false → p.latched = true → exec .undervoltageRestart s = .next s) ∧
      (p.on = false → p.latched = false → exec .undervoltageRestart s = .next
        (s.withDev (startUp { s.dev with c := { s.dev.c with pwr := { p with on := true, modStatus := p.modStatus &&& ~~~ 3#16 } } }))))

/-- Reference clocks (R495): losing PCI Express takes the host link down with the effects of a link loss. Losing the fabric reference takes down every port of a running module that trains, is up or paused, with cause LANES, since no lane keeps lock; no port is up then, and the timebase has stopped, so that the device takes no part in the job's beats. Losing the system clock returns the module to the state that RESET_N gives it; the module then stays there until the clock is back and RESET_N has been low. MOD_STATUS shows each loss. That the device takes part again only with another draft is the model's (log entry 166). -/
def Obligations.ReferenceClocks : Prop :=
  ∀ s : State, s.dev.c.pwr.input = true →
    let c := s.dev.c
    let p := c.pwr
    (running c = true → c.host.linkUp = true → exec (.refclkLoss .pcie) s = .next (s.withDev (hostResetRun true true
      { s.dev with c := { c with pwr := { p with noPcie := true, modStatus := p.modStatus ||| 0x10 } } }))) ∧
    (running c = false ∨ c.host.linkUp = false → exec (.refclkLoss .pcie) s = .next (s.withPwr { p with noPcie := true, modStatus := p.modStatus ||| 0x10 })) ∧
    (running c = true → ∃ t, exec (.refclkLoss .fabric) s = .next t ∧ t.dev.m = s.dev.m ∧ t.pending = s.pending ∧
      t.dev.c.pwr = { p with noFabric := true, modStatus := p.modStatus ||| 0x20 } ∧
      (∀ q, q < 38 → portLive t.dev.c q = false ∧ (getF c (portF R.PORT_STATUS.STATE q) ∈ [1, 2, 3] →
        getF t.dev.c (portF R.PORT_STATUS.STATE q) = 4 ∧ getF t.dev.c (portF R.PORT_STATUS.DOWN_CAUSE q) = 1)) ∧
      getB t.dev.c R.BEAT_STATUS.RUNNING = false ∧ getB t.dev.c R.BEAT_STATUS.ALIGNED = false ∧ getB t.dev.c R.BEAT_STRETCH.NEXT_VALID = false ∧
      t.dev.c.time.stopped = true ∧ t.dev.c.time.inGuard = false ∧ t.dev.c.time.joined = false) ∧
    (running c = false → exec (.refclkLoss .fabric) s = .next (s.withPwr { p with noFabric := true, modStatus := p.modStatus ||| 0x20 })) ∧
    exec (.refclkLoss .system) s = .next (s.poweredOn { p with noSystem := true, held := true, modStatus := p.modStatus ||| 0x40 }) ∧
    (∀ t : State, t.dev.c.pwr.held = true → running t.dev.c = false) ∧
    exec (.refclkReturn .pcie) s = .next (s.withPwr { p with noPcie := false }) ∧
    exec (.refclkReturn .fabric) s = .next (s.withPwr { p with noFabric := false }) ∧
    exec (.refclkReturn .system) s = .next (s.withPwr { p with noSystem := false, held := p.held && p.released })

/-- SMBus reads (R498): the management controller, at the address that the pins SMB_ADDR give, answers each command with its contents while input power is there, whatever the state of RESET_N and the regulators, with a packet error code if the host takes one (the CRC-8 of SMBus, log entry 167), and nothing else changes but PIN_PEAK, which keeps the highest input power measured, and the coolant temperatures with COOL_WARN, which follows the limits of R492. SMBus writes and the conditions behind MOD_STATUS (R487, R492, R498): any write of PIN_PEAK clears it; a write of MOD_STATUS clears the W1C bits 3 to 6 where it has ones; a write whose packet error code is wrong changes nothing; UV_WARN, OV_WARN and COOL_WARN follow their conditions. Transfers for another address change nothing. -/
def Obligations.SmbusCommands : Prop :=
  (∀ (s : State) (x : SmbRead) (v : BitVec 16), s.dev.c.pwr.input = true → x.addr.toNat = 0x58 + s.dev.c.pwr.smbAddr.toNat →
      let p := s.dev.c.pwr
      let pec (cmd : Nat) (bs : List Byte) : List Byte :=
        if x.pec then [BitVec.ofNat 8 (pecOf ([BitVec.ofNat 8 (2 * x.addr.toNat), BitVec.ofNat 8 cmd, BitVec.ofNat 8 (2 * x.addr.toNat + 1)] ++ bs))] else []
      let answer (q : Power) (cmd : Nat) (bs : List Byte) : State := s.withPwr { q with smb := q.smb ++ [(cmd, bs ++ pec cmd bs)] }
      let peak : BitVec 16 := if p.pinPeak ≤ v then v else p.pinPeak
      let cool (q : Power) (i o : Option Nat) : Power :=
        { q with plateIn := i, plateOut := o, modStatus := (q.modStatus &&& ~~~ 4#16) ||| (if coolShort i o then 4#16 else 0#16) }
      let id := leBytes 8 s.dev.c.fuses.serial.toNat ++ leBytes 1 (gradeCode s.dev.c.fuses.grade) ++ leBytes 1 s.dev.c.fuses.stepping.toNat ++ [0, 0, 0, 0, 0, 0]
      exec (.modId x) s = .next (s.withPwr { p with smb := p.smb ++ [(0x00, id ++ pec 0x00 (16 :: id))] }) ∧
      exec (.vin x v) s = .next (answer p 0x10 (leBytes 2 v.toNat)) ∧
      exec (.iin x v) s = .next (answer p 0x11 (leBytes 2 v.toNat)) ∧
      exec (.pin x v) s = .next (answer { p with pinPeak := peak } 0x12 (leBytes 2 v.toNat)) ∧
      exec (.pinPeak x v) s = .next (answer { p with pinPeak := peak } 0x13 (leBytes 2 peak.toNat)) ∧
      exec (.tempMax x) s = .next (answer p 0x20 (leBytes 2 (if running s.dev.c && mainReady s.dev.c 7 then
        (List.range 104).foldl (fun m i => max m (sensorT s.dev.c i)) 0 else 0xFFFF))) ∧
      exec (.plateIn x v) s = .next (answer (cool p (some v.toNat) p.plateOut) 0x21 (leBytes 2 v.toNat)) ∧
      exec (.plateOut x v) s = .next (answer (cool p p.plateIn (some v.toNat)) 0x22 (leBytes 2 v.toNat)) ∧
      exec (.modStatus x) s = .next (answer p 0x30 (leBytes 2
        ((p.modStatus &&& ~~~ 0x80#16) ||| (if p.on && p.released then 0x80#16 else 0#16)).toNat))) ∧
  (∀ (s : State) (x : SmbWrite) (uv ov : Bool) (inlet outlet : BitVec 16), s.dev.c.pwr.input = true →
      let p := s.dev.c.pwr
      let code (cmd : Nat) : Nat := pecOf ([BitVec.ofNat 8 (2 * x.addr.toNat), BitVec.ofNat 8 cmd] ++ leBytes 2 x.value.toNat)
      let right (cmd : Nat) : Prop := x.addr.toNat = 0x58 + p.smbAddr.toNat ∧ ∀ b, x.pec = some b → b.toNat = code cmd
      let hot : Bool := decide (336 < inlet.toNat) || decide (inlet.toNat + 96 < outlet.toNat)
      (right 0x13 → exec (.pinPeakClear x) s = .next (s.withPwr { p with pinPeak := 0 })) ∧
      (right 0x30 → exec (.modStatusWrite x) s = .next (s.withPwr { p with modStatus := p.modStatus &&& ~~~ (x.value &&& 0x78) })) ∧
      (¬ right 0x13 → exec (.pinPeakClear x) s = .next s) ∧ (¬ right 0x30 → exec (.modStatusWrite x) s = .next s) ∧
      exec (.vinWarnChange uv ov) s = .next (s.withPwr { p with
        modStatus := (((p.modStatus &&& ~~~ 1#16) ||| (if uv then 1#16 else 0#16)) &&& ~~~ 2#16) ||| (if ov then 2#16 else 0#16) }) ∧
      exec (.coolWarnChange inlet outlet) s = .next (s.withPwr
        { p with plateIn := some inlet.toNat, plateOut := some outlet.toNat, modStatus := (p.modStatus &&& ~~~ 4#16) ||| (if hot then 4#16 else 0#16) }))

/-! ### The host port -/

/-- The four resets of the host port (R452, R489): the event queue, Bus Master Enable, MSI-X Enable and the power state go, the HOST block's registers take their reset values with HOST_LINK.RESETS counting all but PERST, reads outstanding are dropped; every other block, memory and the module's power stay, but for the accepted writes, which are still performed: with none that waits, memory is as it was. A function-level reset leaves the link up. Power states and the link (R446 to R448, R473): D3hot entered and left, a register of configuration space written, Loopback entered or left, the link trained at a rate and width. Messages that were held are tried again, and nothing else changes. The model's: that the return from D3hot resets nothing (log entry 89), that PERST_N has the effects of a hot reset without its count (88), that RATE, WIDTH and FLIT take their reset values at every one of the resets (87), and the registers of configuration space beyond R446 (4). -/
def Obligations.HostPortAndLink : Prop :=
  (∀ (s : State) (x : Instr × Bool × Bool), running s.dev.c = true → s.dev.c.host.linkUp = true → s.dev.c.host.loopback = false →
      x ∈ [(Instr.functionLevelReset, false, true), (.hotReset, true, true), (.linkLoss, true, true), (.perst, true, false)] →
      exec x.1 s = .next (s.withDev (portRun { s.dev with c := hostReset x.2.1 x.2.2 s.dev.c })) ∧
      ((∀ o ∈ s.dev.c.host.ops, o.isRead = false → o.issued = true) → exec x.1 s = .next (s.withCtl (hostReset x.2.1 x.2.2 s.dev.c)))) ∧
  (∀ (c : Ctl) (down counted : Bool),
      let t := hostReset down counted c
      t.pwr = c.pwr ∧ t.host.evq = [] ∧ masterOn t = false ∧ t.host.cfg.msixEn = false ∧ t.host.cfg.funcMask = false ∧ t.host.d3 = false ∧
        t.host.linkUp = (c.host.linkUp && !down) ∧ t.host.rsp = c.host.rsp ∧ t.host.backlog = [] ∧ (∀ o, o ∈ t.host.ops ↔ o ∈ c.host.ops ∧ o.isRead = false) ∧
        (∀ off, 0x10000 ≤ off → getReg t off = getReg c off) ∧
        (∀ off, off < 0x10000 → off ≠ R.HOST_LINK.RESETS.off → getReg t off = regReset off) ∧
        getF t R.HOST_LINK.RESETS = (if counted then min 0xFFFF (getF c R.HOST_LINK.RESETS + 1) else getF c R.HOST_LINK.RESETS)) ∧
  (∀ (s : State) (b flit enable mask : Bool) (w : CfgWrite) (v : BitVec 16) (rate width : Nat), running s.dev.c = true →
      let c := s.dev.c
      let written (g : Cfg) : State := s.withCtl (msixRetry { c with host := { c.host with cfg := g } })
      (hostLink c = true → exec .d3hot s = .next (s.withCtl { c with host := { c.host with d3 := true } })) ∧
      (hostLink c = true → exec .returnToD0 s = .next (s.withCtl (msixRetry { c with host := { c.host with d3 := false } }))) ∧
      (hostLink c = true → exec (.busMasterEnable w) s = .next (written (cfgWrite w c.host.cfg))) ∧
      (hostLink c = true → exec (.busMasterEnable (.command v)) s = .next (written { c.host.cfg with command := v &&& 0x0546 })) ∧
      (hostLink c = true → exec (.busMasterEnable (.msix enable mask)) s = .next (written { c.host.cfg with msixEn := enable, funcMask := mask })) ∧
      (hostLink c = false → exec (.busMasterEnable w) s = .next s) ∧
      (c.host.linkUp = true → exec (.pcieLoopback b) s = .next (s.withCtl (msixRetry { c with host := { c.host with loopback := b } }))) ∧
      (c.pwr.noPcie = false → exec (.hostLinkTrained rate width flit) s = .next (s.withCtl (msixRetry (onHost (fun h => { h with linkUp := true })
        (setF R.HOST_LINK.RATE rate (setF R.HOST_LINK.WIDTH width (setB R.HOST_LINK.FLIT flit c))))))) ∧
      (c.host.linkUp = false → exec .d3hot s = .next s ∧ exec .hotReset s = .next s))

/-- The event queue and the interrupts (R456 to R458, R461, R462): EVT_POP removes the oldest record and no other; a record that has waited EVT_IRQ.AGE beats is a cause of vector 0; a write of IRQ_STATUS clears the bits written as 1; a write of IRQ_ENABLE changes the enables and sends one message on each vector that it enables whose status bit is 1. In D3hot the three that the host writes are Unsupported Requests (R448; that they come through BAR0 is the model's, log entry 156), and a host that does not reach the function changes nothing (R428, R473). -/
def Obligations.EventQueueAndInterrupts : Prop :=
  ∀ (s : State) (v : Dword) (e : Event) (rest : List Event), running s.dev.c = true →
    let c := s.dev.c
    let new := (getReg c R.IRQ_ENABLE.adr &&& ~~~ 0xFFFFF) ||| (v &&& 0xFFFFF)
    (c.host.evq = e :: rest → 0 < getF c R.EVT_IRQ.AGE → e.entered + getF c R.EVT_IRQ.AGE ≤ c.ticks →
      exec .evtAgeExpiry s = .next (s.withCtl (cause 0 c))) ∧
    (hostReaches c = true → c.host.d3 = false → PortQuiet c →
      exec .evtPop s = .next (s.withCtl { c with host := { c.host with evq := c.host.evq.drop 1 } }) ∧
      exec (.irqStatusClear v) s = .next (s.withCtl (setReg R.IRQ_STATUS.adr (getReg c R.IRQ_STATUS.adr &&& ~~~ (v &&& 0xFFFFF)) c)) ∧
      exec (.irqEnableWrite v) s = .next (s.withCtl (forN 20 (fun i c' =>
        if (new &&& ~~~ getReg c R.IRQ_ENABLE.adr &&& getReg c R.IRQ_STATUS.adr).getLsbD i then msixSend i c' else c')
        (setReg R.IRQ_ENABLE.adr new c)))) ∧
    (hostReaches c = true → c.host.d3 = true → PortQuiet c → ∀ i ∈ [Instr.evtPop, .irqStatusClear v, .irqEnableWrite v],
      exec i s = .next (s.withCtl (hostUnsupported false c))) ∧
    (hostReaches c = false → ∀ i ∈ [Instr.evtPop, .irqStatusClear v, .irqEnableWrite v], exec i s = .next s)

/-- A cause of a vector (R458): it sets the status bit, and sends at most one message, when the bit was 0 and the vector is enabled; a vector that may not send now records its pending bit instead (R447, R448). A record raised outside a gathered cycle (R456): with room it enters behind every record already there, with the beat and step it carries (R453); on a full queue it is dropped, counted in EVT_STATUS.DROPS, and the queue stays. -/
def Obligations.CausesAndEventRecords : Prop :=
  (∀ (c : Ctl) (v : Nat), v < 20 →
      ((getReg c R.IRQ_STATUS.adr).getLsbD v = true → cause v c = c) ∧
      ((getReg c R.IRQ_STATUS.adr).getLsbD v = false →
        (getReg (cause v c) R.IRQ_STATUS.adr).getLsbD v = true ∧
        ((getReg c R.IRQ_ENABLE.adr).getLsbD v = false → (cause v c).host.msix = c.host.msix) ∧
        ((getReg c R.IRQ_ENABLE.adr).getLsbD v = true → msixOpen v c = true →
          ∃ m : MsixMsg, m.vector = v ∧ (cause v c).host.msix = c.host.msix ++ [m]) ∧
        ((getReg c R.IRQ_ENABLE.adr).getLsbD v = true → msixOpen v c = false →
          (cause v c).host.msix = c.host.msix ∧ (getReg (cause v c) pbaOff).getLsbD v = true))) ∧
  (∀ (c : Ctl) (beat step cls sub src detail : Nat), c.host.gather = none →
      (c.host.evq.length < 4096 →
        (raiseAt beat step cls sub src detail c).host.evq = c.host.evq ++ [{
          dw0 := BitVec.ofNat 64 (cls + sub % 256 * 2 ^ 8 + src % 65536 * 2 ^ 16 + beat % 2 ^ 32 * 2 ^ 32)
          dw1 := BitVec.ofNat 64 (step % 65536 + detail % 2 ^ 48 * 2 ^ 16), entered := c.ticks }]) ∧
      (4096 ≤ c.host.evq.length →
        raiseAt beat step cls sub src detail c = satF R.EVT_STATUS.DROPS 1 c))

/-- Register writes of the host (R3, R8, R9, R171, R187, R428, R448): an access of a size or alignment that BAR0 does not take changes no register, raises a PROGRAM event and sets PORTHOLE_STATUS.BAD_ACCESS; one that BAR0 takes, of another width than its register's, raises the event alone; one outside every block is unmapped; one to a block that is not READY changes nothing; a plain register takes the value in its RW bits and clears its W1C bits where the value has ones; a register with an action of its own acts (here BEAT_STRETCH, SEQ_CNT and FAN_CTRL.UNDERATE). In D3hot the write is an Unsupported Request and has no effect, and where the host does not reach the function nothing happens. That the command is the host's write is the model's (log entry 156). -/
def Obligations.RegisterWrites : Prop :=
  ∀ (s : State) (off width : Nat) (v : Dword) (b : Block), running s.dev.c = true →
    let c := s.dev.c
    (hostReaches c = false → exec (.registerWrite off width v) s = .next s) ∧
    (hostReaches c = true → c.host.d3 = true → PortQuiet c → exec (.registerWrite off width v) s = .next (s.withCtl (hostUnsupported false c))) ∧
    (hostReaches c = true → c.host.d3 = false → PortQuiet c →
      (¬ (width = 4 ∨ width = 8) ∨ off % width ≠ 0 → exec (.registerWrite off width v) s =
        .next (s.withCtl (raise evProgram 0x10 srcDevice (0x80000000000 + off) (cause 19 (setB R.PORTHOLE_STATUS.BAD_ACCESS true c))))) ∧
      (width = 4 ∨ width = 8 → off % width = 0 → regTest off width = false → exec (.registerWrite off width v) s =
        .next (s.withCtl (raise evProgram 0x10 srcDevice (0x80000000000 + off) c))) ∧
      (regTest off width = true → blockAt off = none →
        exec (.registerWrite off width v) s = .next (s.withCtl (raise evMemory 0x01 srcDevice (0x80000000000 + off) c))) ∧
      (regTest off width = true → blockAt off = some b → writesReach c off b = false → exec (.registerWrite off width v) s = .next s) ∧
      (regTest off width = true → off ∈ [R.PORTHOLE_BASE.adr, R.VOTE_CTRL.adr, R.REC_AT.adr, R.REC_CFG.adr] →
        exec (.registerWrite off width v) s = .next (s.withCtl (maskWrite off v c))) ∧
      (mainReady c 4 = true → exec (.registerWrite R.BEAT_STRETCH.adr 4 v) s = exec (.beatStretchReq (v.setWidth 32)) s) ∧
      (coreReady c 5 = true → exec (.registerWrite (R.SEQ_CNT.adr + 0x10000 * 5 + 4 * 7) 4 v) s = exec (.seqCntWrite 5 7 (v.setWidth 32)) s) ∧
      (mainReady c 7 = true → exec (.registerWrite R.FAN_CTRL.adr 4 1) s = exec .underate s))

/-! ### Firmware, attestation, self-tests -/

/-- An image comes in (R431, R433, R442): FW_CTRL.BEGIN empties the store and PHASE is RECEIVING; FW_DATA appends its four bytes, low byte first; STAGE writes the image to the slot not in use; at the end of staging the phase is STAGED for an authenticated image, else FAILED with AUTH_FAIL and the slot marked. -/
def Obligations.FirmwareStaging : Prop :=
  ∀ (s : State) (v : Word), running s.dev.c = true → (mainReady s.dev.c 1 || mainReady s.dev.c 2) = true → s.dev.c.fw.dead = false →
    let c := s.dev.c
    let slot := 1 - getF c R.FW_STATUS.ACTIVE_SLOT
    let done : Ctl := { c with fw := { c.fw with staging := false } }
    (fwPhase c ≠ 3 → fwPhase c ≠ 4 →
      exec .fwBegin s = .next (s.withCtl (setPhase 1 { c with fw := { c.fw with recv := [], staging := false } }))) ∧
    (fwPhase c = 1 → c.fw.staging = false → c.fw.recv.length + 4 ≤ 0x1000000 →
      exec (.fwData v) s = .next (s.withCtl { c with fw := { c.fw with recv := c.fw.recv ++ leBytes 4 v.toNat } })) ∧
    (fwPhase c = 1 → mainReady c 3 = true →
      exec .fwStage s = .next (s.withCtl { setFlash slot c.fw.recv false c with fw := { c.fw with staging := true } })) ∧
    (c.fw.staging = true → exec .fwStageDone s = .next (s.withCtl (if fwAuthentic done (flashSlot done slot) then setPhase 2 done
      else setB R.FW_STATUS.AUTH_FAIL true (setPhase 5 (setFlash slot (flashSlot done slot) true done)))))

/-- An update goes on (R431, R433, R442): UPDATE on a STAGED image with a standby has it LOADING; the standby starts the authenticated image and synchronises, being no standby the while; synchronised, it waits for the boundary while beats run; BOOT runs the received image where FW_AUTH is 0, and is ignored otherwise. The fused minimum security version (R432): a write of FW_CTRL.COMMIT_SECVER raises it to the SECVER of the image running on the active processor, and a write that would lower it changes nothing. -/
def Obligations.FirmwareUpdate : Prop :=
  (∀ s : State, running s.dev.c = true → (mainReady s.dev.c 1 || mainReady s.dev.c 2) = true → s.dev.c.fw.dead = false →
      let c := s.dev.c
      let slot := 1 - getF c R.FW_STATUS.ACTIVE_SLOT
      let bs := flashSlot c slot
      (fwPhase c = 2 → getB c R.FAN_CP.STANDBY_OK = true → exec .fwUpdate s = .next (s.withCtl (setPhase 3 c))) ∧
      (fwPhase c ≠ 2 → exec .fwUpdate s = .next s) ∧
      (fwPhase c = 3 → getB c R.FAN_CP.STANDBY_OK = true → exec .fwSyncStart s = .next (s.withCtl (if fwAuthentic c bs then
        setPhase 4 (setB R.FAN_CP.STANDBY_OK false
          { c with fw := { c.fw with cps := c.fw.cps.put (1 - getF c R.FAN_CP.ACTIVE) (fwImage bs), synced := false } })
        else setB R.FW_STATUS.AUTH_FAIL true (setPhase 5 c)))) ∧
      (fwPhase c = 4 → getB c R.BEAT_STATUS.RUNNING = true →
        exec .fwSyncDone s = .next (s.withCtl { c with fw := { c.fw with synced := true } })) ∧
      (mainReady c 3 = false → exec .fwBoot s = .next (s.withCtl (if fwAuthentic c c.fw.recv then setPhase 0 (fwStart c.fw.recv c)
        else setB R.FW_STATUS.AUTH_FAIL true c))) ∧
      (mainReady c 3 = true → exec .fwBoot s = .next s)) ∧
  (∀ (s : State) (x : FwImage), running s.dev.c = true → (mainReady s.dev.c 1 || mainReady s.dev.c 2) = true → s.dev.c.fw.dead = false →
      s.dev.c.fw.cps.look (getF s.dev.c R.FAN_CP.ACTIVE) = some x →
      let c := s.dev.c
      exec .fwCommitSecver s = .next (s.withCtl { c with fuses := { c.fuses with minSecver := max c.fuses.minSecver x.secver } }) ∧
      (x.secver ≤ c.fuses.minSecver → exec .fwCommitSecver s = .next s))

/-- Heartbeats (R394): a heartbeat of the active control processor is noted; one that has been missing for HB_MISS beats (0 acting as 1) has the processor charged as kind CP where a standby takes over, and retired (when, and that only then it is charged: log entry 120). Attestation (R435): ATT_CTRL.GO begins a report unless one is under way; when it is done the report stands signed with the identity key over all that precedes the signature, DONE reads 1, and it is a cause of vector 16 (that it is built at GO is the model's reading, log entry 140). Self-tests (R427 to R429): one that passes sets the READY bit of a function, and a mapped port that is OFF starts to train, a control processor that is late boots from flash (R431; the model's reading, log entry 157); one that fails, or does not conclude in its time, sets the FAIL bit and has the unit spared. -/
def Obligations.HeartbeatsReportsAndSelfTests : Prop :=
  (∀ s : State, running s.dev.c = true → mainReady s.dev.c 7 = true → s.dev.c.fw.dead = false →
      let c := s.dev.c
      let k := srcCp (getF c R.FAN_CP.ACTIVE)
      exec .heartbeat s = .next (s.withCtl { c with fan := { c.fan with beatSeen := true } }) ∧
      (heartbeatDue c = true → getB c R.FAN_CP.STANDBY_OK = true → fwPhase c ≠ 4 →
        exec .heartbeatMiss s = .next (s.withCtl
          (retireCp k (getF c R.FAN_CP.ACTIVE) (chargeUnit kCp k { c with fan := { c.fan with missed := 0 } }))))) ∧
  (∀ (s : State) (bs : List Byte), running s.dev.c = true → (mainReady s.dev.c 1 || mainReady s.dev.c 2) = true → s.dev.c.fw.dead = false →
      let c := s.dev.c
      (mainReady c 3 = true → c.att.next = none →
        ∃ t, exec .attGo s = .next t ∧ t.dev.m = s.dev.m ∧ t.dev.c.att.next = some (attBody c) ∧ getB t.dev.c R.ATT_CTRL.DONE = false ∧
          t.dev.c.att.report = c.att.report) ∧
      (c.att.next = some bs →
        exec .attDone s = .next (s.withCtl (cause 16 (setB R.ATT_CTRL.DONE true
          { c with att := { next := none, report := bs ++ signMessage (leBytes 32 c.fuses.idSeed.toNat) bs } }))))) ∧
  (∀ (s : State) (f : Func), running s.dev.c = true → testOpen s.dev.c f = true →
      let c := s.dev.c
      ((∀ p, f ≠ .port p) → f ≠ .main 1 → f ≠ .main 2 → f ≠ .main 3 → exec (.selfTestDone f .pass) s = .next (s.withCtl (setReady f c))) ∧
      (∀ i, i < 2 → f = .main (1 + i) → exec (.selfTestDone f .pass) s = .next (s.withCtl (fwJoin i (setReady f c)))) ∧
      (∀ p, f = .port p → getB c (portF R.PORT_STATUS.MAPPED p) = true → getF c (portF R.PORT_STATUS.STATE p) = 0 →
        exec (.selfTestDone f .pass) s = .next (s.withCtl (setF (portF R.PORT_STATUS.STATE p) 1 (setReady f c)))) ∧
      exec (.selfTestDone f .fail) s = .next (s.withCtl (inCycle (testFailed f) (setFail f c))) ∧
      exec (.selfTestTimeout f) s = .next (s.withCtl (inCycle (testFailed f) (setFail f c))))

/-! ### The draft -/

/-- The receiving store (R419, R420, R441): BEGIN and ABORT empty it, with STATE RECEIVING or as it stood before; a word of DRAFT_DATA is appended and, while verifying, ignored with a PROGRAM event; PULL copies DRAFT_PULL_LEN bytes from DRAFT_SRC, in every state; DRAFT_PIN_CTRL is written only while LOCK is 0. -/
def Obligations.DraftReceiving : Prop :=
  ∀ (s : State) (v : Word), running s.dev.c = true → mainReady s.dev.c 3 = true → s.dev.c.fw.dead = false →
    let c := s.dev.c
    let st := getF c R.DRAFT_STATUS.STATE
    exec .draftBegin s = .next (s.withCtl (setDraftState 1 (setRecv [] c))) ∧
    exec .draftAbort s = .next (s.withCtl (setDraftState (draftRest c) (setRecv [] c))) ∧
    (st = 1 → exec (.draftData v) s = .next (s.withCtl (draftAppend (leBytes 4 v.toNat) c))) ∧
    (st = 2 → exec (.draftData v) s = .next (s.withCtl (raise evProgram 0x15 srcDevice 0 c))) ∧
    exec .draftPull s = .next (s.withDev
      (let r := readLong (getF c R.DRAFT_SRC.ADDR * 8) (min draftMax (getF c R.DRAFT_PULL_LEN.BYTES)) s.dev
       { r.2 with c := draftAppend r.1 (setDraftState 1 (setRecv [] r.2.c)) })) ∧
    ((mainReady c 1 || mainReady c 2) = true → getB c R.DRAFT_PIN_CTRL.LOCK = false →
      exec (.draftPinCtrlWrite v) s = .next (s.withCtl (setF R.DRAFT_PIN_CTRL.LOCK (v.toNat / 2 % 2) (setF R.DRAFT_PIN_CTRL.SET (v.toNat % 2) c)))) ∧
    (getB c R.DRAFT_PIN_CTRL.LOCK = true → exec (.draftPinCtrlWrite v) s = .next s)

/-- Verification concludes (R420 to R427): a failed check leaves STATE FAILED with the code and offset and raises a PROGRAM event; a verified FULL draft is applied once every self-test it needs has concluded, and then LOADED reads 1; a verified RELOAD is PENDING for its step; a copy of a RELOAD that is complete releases its core; the first step opens at the beat written to DRAFT_START_AT, and a beat that has passed sets START_LATE. -/
def Obligations.DraftConcludes : Prop :=
  ∀ (s : State) (p : Nat), running s.dev.c = true →
    let c := s.dev.c
    let j := draftRead c c.draft.recv
    let failed (code off : Nat) : State := s.withCtl (raise evProgram 0x12 srcDevice (code + off % 2 ^ 32 * 2 ^ 8)
      (setDraftState 5 (setF R.DRAFT_STATUS.ERR_OFFSET off (setF R.DRAFT_STATUS.ERROR code c))))
    let pending (old : Draft) : State := s.withCtl (setDraftState 4 (setRecv [] { c with draft := { c.draft with
      reload := some { job := reloadOver old j, digest := j.digest, group := j.group, step := getF c R.DRAFT_APPLY.STEP } } }))
    (loaderOn c = true → getF c R.DRAFT_STATUS.STATE = 2 → exec .draftVerifyDone s = .next
      (match verifyDraft c c.draft.recv, j.reload, c.job with
       | some (code, off), _, _ => failed code off
       | none, true, some old => pending old
       | none, true, none => s
       | none, false, _ => if testsDone c then s.withDev (applyFull j s.dev) else s)) ∧
    (getF c R.DRAFT_STATUS.STATE ≠ 2 → exec .draftVerifyDone s = .next s) ∧
    (∀ (x : Draft) (d : Dev), getB (applyFull x d).c R.DRAFT_STATUS.LOADED = true ∧ (applyFull x d).c.draft.recv = []) ∧
    exec (.reloadCopyDone p) s = .next (s.withCtl { c with copying := c.copying.filter (· != p) }) ∧
    (getF c R.DRAFT_START_AT.BEAT ≠ 0 → getB c R.DRAFT_STATUS.LOADED = true → c.step.opened = false → c.draft.startDone = false → (myPos c).isSome = true →
      beatsRun c = true →
      (c.time.inGuard = false → getF c R.BEAT_NOW.BEAT = getF c R.DRAFT_START_AT.BEAT → getF c R.REC_STATE.STATE = 0 →
        exec .draftStartAt s = .next (s.withDev (beginStep (firstStep c) { s.dev with c := { c with draft := { c.draft with startDone := true } } }))) ∧
      (getF c R.DRAFT_START_AT.BEAT < getF c R.BEAT_NOW.BEAT →
        exec .draftStartAt s = .next (s.withCtl (setB R.DRAFT_STATUS.START_LATE true { c with draft := { c.draft with startDone := true } }))))

/-! ### Check-value units -/

/-- The general units in register use (R248 to R250, R280 to R283): a DATA register feeds 1, 2 or 4 bytes, low byte first, and counts them, and does nothing in a unit that belongs to the tailrace; CV_STATE replaces the state in the width of the function; CV_CFG loads the initial state and clears the count; CV_EXPECT sets MATCH or MISMATCH and clears the other. A check value may be computed in parts (R249): feeding a string of bytes in two pieces leaves the state that feeding it whole leaves, for each of the three functions; so a unit's saved state, written back, resumes the computation. The check values of the nine bytes "123456789" are those of R247. -/
def Obligations.CheckValueUnits : Prop :=
  (∀ (s : State) (u : Nat) (v : Word) (w : Dword), running s.dev.c = true → u < 16 → mainReady s.dev.c (48 + u) = true →
      let c := s.dev.c
      let poly := getF c (cvF R.CV_CFG.POLY u)
      let st := getF c (cvF R.CV_STATE.STATE u)
      (∀ x ∈ [(Instr.cvData8 u v, 1), (.cvData16 u v, 2), (.cvData32 u v, 4)],
        (getB c (cvF R.CV_CFG.OWNER u) = false → exec x.1 s = .next (s.withCtl
          (incF (cvF R.CV_COUNT.BYTES u) x.2 (setF (cvF R.CV_STATE.STATE u) (crcFeedAll poly st (leBytes x.2 v.toNat)) c)))) ∧
        (getB c (cvF R.CV_CFG.OWNER u) = true → exec x.1 s = .next s)) ∧
      exec (.cvStateWrite u w) s = .next (s.withCtl (setF (cvF R.CV_STATE.STATE u) (w.toNat % 2 ^ crcWidth poly) c)) ∧
      (∃ t, exec (.cvCfgWrite u v) s = .next t ∧ t.dev.m = s.dev.m ∧ getF t.dev.c (cvF R.CV_CFG.POLY u) = v.toNat % 4 ∧
        getF t.dev.c (cvF R.CV_CFG.OWNER u) = v.toNat / 4 % 2 ∧ getF t.dev.c (cvF R.CV_STATE.STATE u) = crcInit (v.toNat % 4) ∧
        getF t.dev.c (cvF R.CV_COUNT.BYTES u) = 0 ∧
        (∀ off, off ≠ (cvF R.CV_CFG.POLY u).off → off ≠ (cvF R.CV_STATE.STATE u).off → off ≠ (cvF R.CV_COUNT.BYTES u).off →
          getReg t.dev.c off = getReg c off)) ∧
      (∃ t, exec (.cvExpect u w) s = .next t ∧ t.dev.m = s.dev.m ∧ getB t.dev.c (cvF R.CV_STATUS.MATCH u) = (w.toNat == crcResult poly st) ∧
        getB t.dev.c (cvF R.CV_STATUS.MISMATCH u) = (w.toNat != crcResult poly st) ∧
        (∀ off, off ≠ (cvF R.CV_STATUS.MATCH u).off → getReg t.dev.c off = getReg c off))) ∧
  (∀ (poly st : Nat) (a b : List Byte), crcFeedAll poly (crcFeedAll poly st a) b = crcFeedAll poly st (a ++ b)) ∧
  (∀ nine : List Byte, nine = [0x31, 0x32, 0x33, 0x34, 0x35, 0x36, 0x37, 0x38, 0x39] →
    crc32c nine = 0xE3069283 ∧ crc64 nine = 0x6C40DF5F0B497347 ∧ crc16 nine = 0x29B1)

/-! ### Tension, loopback, debug -/

/-- Arming (R465, R466): the two keys in turn arm, any other value disarms, and a write to another TENSION register between them ends the sequence; a perturbation register is written, and while no beats run every change is in force at once. The loopback tester (R472, R481): START begins a run on a unit that is in loopback, with nothing counted, and does nothing to another; the run of a length ends with LENGTH × 2^20 bits checked; STOP ends it at once. What the checkers find, and the bits at a STOP, are free values (log entry 6). -/
def Obligations.TensionAndLoopback : Prop :=
  (∀ (s : State) (v : Word) (w : Dword) (off : Nat), running s.dev.c = true →
      let c := s.dev.c
      let moved (c : Ctl) : Ctl := if getB c R.BEAT_STATUS.RUNNING then c else tenTake c
      exec (.tenArm 0x54454E31) s = .next (s.withCtl (moved { setB R.TEN_STATUS.STAGE true c with tenKey := true })) ∧
      (c.tenKey = true → exec (.tenArm 0x41524D32) s = .next (s.withCtl (moved { setB R.TEN_STATUS.ARMED true c with tenKey := false }))) ∧
      (v ≠ 0x54454E31 → v ≠ 0x41524D32 ∨ c.tenKey = false →
        exec (.tenArm v) s = .next (s.withCtl (moved { setB R.TEN_STATUS.ARMED false (setB R.TEN_STATUS.STAGE false c) with tenKey := false }))) ∧
      (off ∈ tenOffsets → regTest off 8 = true → exec (.tensionRegWrite off 8 w) s = .next (s.withCtl (moved (tenOther (maskWrite off w c))))) ∧
      (off ∈ tenOffsets → regTest off 4 = true → exec (.tensionRegWrite off 4 w) s = .next (s.withCtl (moved (tenOther (maskWrite off w c)))))) ∧
  (∀ s : State, running s.dev.c = true →
      let c := s.dev.c
      let n := getF c R.TEN_LB_CTRL.LENGTH
      (loopSelected (tenOther c) = true → ∃ t, exec .tenLbStart s = .next t ∧ t.dev.m = s.dev.m ∧ getB t.dev.c R.TEN_LB_STATUS.RUNNING = true ∧
        getB t.dev.c R.TEN_LB_STATUS.LOCKED = false ∧ getF t.dev.c R.TEN_LB_STATUS.BITS = 0 ∧
        (∀ l, l < 8 → getF t.dev.c (idxF R.TEN_LB_ERR.ERRORS 8 l) = 0)) ∧
      (loopSelected (tenOther c) = false → exec .tenLbStart s = .next (s.withCtl (tenOther c))) ∧
      (getB c R.TEN_LB_STATUS.RUNNING = true → 0 < n →
        exec .loopbackRunEnd s = .next (s.withCtl (loopFound (setF R.TEN_LB_STATUS.BITS (n * 2 ^ 20) c)))) ∧
      (getB (tenOther c) R.TEN_LB_STATUS.RUNNING = true →
        exec .tenLbStop s = .next (s.withCtl (loopFound (drawn (setF R.TEN_LB_STATUS.BITS (freeValue (tenOther c)).toNat (tenOther c)))))))

/-- Debug mode (R474 to R476, R483, R484): a core that may quiesce is noted for the next boundary, or quiesces at once while no beats run; one that may not has the request refused with QREFUSED; the accumulator window answers the host, with no other access of its waiting, the selected entry or status word, takes a write of an entry (INDEX below 131,072) or of a tile's status word (131,072 to 131,079), and a refused access reads zero, writes nothing and sets WIN_REFUSED, the index advancing with AUTOINC either way (for the read, log entry 12); in D3hot the read is an Unsupported Request (R448); a new trace size empties the ring's head; the oldest trace entry goes to the ring at HEAD or is counted as dropped. Which entries the ring still takes is the model's (log entry 13: HEAD equal to TAIL means empty), and so is that a ring of size 0 counts a drop (log entry 99). -/
def Obligations.DebugMode : Prop :=
  ∀ (s : State) (hi : Bool) (v : Dword) (w : Word) (e : TraceEnt) (es : List TraceEnt), running s.dev.c = true →
    let c := s.dev.c
    let after (c : Ctl) : Ctl := if getB c R.DBG_ACC_SEL.AUTOINC then incF R.DBG_ACC_IDX.INDEX 1 c else c
    (exec (.dbgQuiesceWrite hi v) s = .next (s.withCtl (quiesceWrite hi v c))) ∧
    (∀ (x : Ctl) (p : Nat), p < 64 →
      let y := quiesceWrite false (1 <<< p) x
      (getB x (quiesceBit p) = true ∨ quiesceAccepted x p = true → getB y (quiesceBit p) = true ∧
        (getB x R.BEAT_STATUS.RUNNING = true → quiesced y p = quiesced x p) ∧ (getB x R.BEAT_STATUS.RUNNING = false → quiesced y p = true)) ∧
      (getB x (quiesceBit p) = false → quiesceAccepted x p = false → getB y R.DBG_STATUS.QREFUSED = true ∧ getB y (quiesceBit p) = false)) ∧
    (PortQuiet c → hostServes c = true → accOpen c = true →
      exec .dbgAccRead s = .next (s.withCtl (after { c with host := { c.host with rsp := c.host.rsp ++ [.data (accWindow c)] } }))) ∧
    (PortQuiet c → hostServes c = true → accOpen c = false → exec .dbgAccRead s = .next (s.withCtl
      (after (setB R.DBG_STATUS.WIN_REFUSED true { c with host := { c.host with rsp := c.host.rsp ++ [.data 0] } })))) ∧
    (PortQuiet c → hostReaches c = true → c.host.d3 = true →
      exec .dbgAccRead s = .next (s.withCtl (onHost (fun h => { h with rsp := h.rsp ++ [.unsupported] }) (hostUnsupported true c)))) ∧
    (accOpen c = true → (accSelected c).2.2 < 131072 → exec (.dbgAccWrite v) s = .next (s.withCtl (after
      (setAcc (accSelected c).1 (accSelected c).2.1 ((accSelected c).2.2 / 16384) ((accSelected c).2.2 / 128 % 128) ((accSelected c).2.2 % 128) (v.toNat % 2 ^ 48) c)))) ∧
    (accOpen c = true → 131072 ≤ (accSelected c).2.2 → exec (.dbgAccWrite v) s = .next (s.withCtl (after
      (setF (tileStatus (accSelected c).1 (accSelected c).2.1 ((accSelected c).2.2 - 131072)) (v &&& 0x13F).toNat c)))) ∧
    (accOpen c = false → exec (.dbgAccWrite v) s = .next (s.withCtl (after (setB R.DBG_STATUS.WIN_REFUSED true c)))) ∧
    exec (.dbgTraceSizeWrite w) s = .next (s.withCtl (setF R.DBG_TRACE_HEAD.HEAD 0 (setF R.DBG_TRACE_SIZE.ENTRIES w.toNat c))) ∧
    (c.trace = e :: es →
      let size := getF c R.DBG_TRACE_SIZE.ENTRIES
      let head := getF c R.DBG_TRACE_HEAD.HEAD
      (ringFree size head (getF c R.DBG_TRACE_TAIL.TAIL) = 0 →
        exec .dbgTraceWrite s = .next (s.withCtl (satF R.DBG_TRACE_DROPS.COUNT 1 { c with trace := es }))) ∧
      (size ≠ 0 → ringFree size head (getF c R.DBG_TRACE_TAIL.TAIL) ≠ 0 →
        ∃ t, exec .dbgTraceWrite s = .next t ∧ t.pending = s.pending ∧
          t.dev = onCtl (setF R.DBG_TRACE_HEAD.HEAD ((head + 1) % size))
            (writeUnit (getF c R.DBG_TRACE_BASE.BASE * 16 + 16 * head) (leBytes 8 e.dw0.toNat ++ leBytes 8 e.dw1.toNat) .nobody
              { s.dev with c := { c with trace := es } }).1))

/-! ### The sequencer's, the beat's, the vote's and recovery's registers -/

/-- Registers that act when they are written (R17, R31, R137, R166, R299, R338): a count register takes its value while no step is OPEN, else it is left, REFUSED of TS is set and a PROGRAM event raised; local flags are set and cleared where the word has ones; a stretch request in the guard is late; POLICY is left while a step is OPEN; ARM, where heeded, arms recovery at REC_AT or is late. -/
def Obligations.ActingRegisters : Prop :=
  ∀ (s : State) (p n : Nat) (v : Word) (w : Dword), running s.dev.c = true →
    let c := s.dev.c
    (coreReady c p = true → n < 32 → stepOpen c = false →
      exec (.seqCntWrite p n v) s = .next (s.withCtl (setF (coreF (idxF R.SEQ_CNT.COUNT 4 n) p) v.toNat c))) ∧
    (coreReady c p = true → n < 32 → stepOpen c = true →
      exec (.seqCntWrite p n v) s = .next (s.withCtl (raise evProgram 0x13 (srcTreadle p 5) 0 (setB (trF R.TR_STATE.REFUSED p 5) true c)))) ∧
    (coreReady c p = true → ∃ t, exec (.seqLflagSet p w) s = .next t ∧ t.dev.m = s.dev.m ∧ t.dev.c.chip = c.chip ∧
      localFlags t.dev.c p = localFlags c p ||| w ∧
      (∀ off, off ≠ (coreF R.SEQ_LFLAGS.FLAGS p).off → (∀ k, off ≠ (trF R.TR_STATE.STATE p k).off) → getReg t.dev.c off = getReg c off)) ∧
    (coreReady c p = true → exec (.seqLflagClr p w) s = .next (s.withCtl (setLocalFlags p (localFlags c p &&& ~~~ w) c))) ∧
    (mainReady c 4 = true → c.time.inGuard = false → exec (.beatStretchReq v) s = .next (s.withCtl (setF R.BEAT_STRETCH.REQ v.toNat c))) ∧
    (mainReady c 4 = true → c.time.inGuard = true → 0 < v.toNat % 32 →
      exec (.beatStretchReq v) s = .next (s.withCtl (setB R.BEAT_STATUS.LATE_STRETCH true
        { setF R.BEAT_STRETCH.REQ v.toNat c with time := { c.time with reqLate := true } }))) ∧
    (∃ t, exec (.voteCfgWrite v) s = .next t ∧ t.dev.m = s.dev.m ∧
      getF t.dev.c R.VOTE_CFG.POLICY = (if stepOpen c then getF c R.VOTE_CFG.POLICY else v.toNat % 2) ∧
      getF t.dev.c R.VOTE_CFG.STRETCH_S = fldGet (v.setWidth 64) R.VOTE_CFG.STRETCH_S ∧
      (∀ off, off ≠ R.VOTE_CFG.adr → getReg t.dev.c off = getReg c off)) ∧
    (armHeeded c = true → getF c R.BEAT_NOW.BEAT < getF c R.REC_AT.BEAT →
      exec .recCtrlArm s = .next (s.withCtl { c with ret := { c.ret with armed := some (getF c R.REC_AT.BEAT) } })) ∧
    (armHeeded c = true → getF c R.REC_AT.BEAT ≤ getF c R.BEAT_NOW.BEAT →
      exec .recCtrlArm s = .next (s.withCtl (setB R.REC_STATUS.ARM_LATE true c))) ∧
    (armHeeded c = false → exec .recCtrlArm s = .next s)

/-! ### The governor -/

/-- The record window and the telemetry ring (R97, R98, R116, R122, R126): a write of a record word takes effect while no step is OPEN, and is rejected with REC_WR_REJ and a PROGRAM event while one is; the selector advances with AUTOINC after a write and a read (for the read, which the host makes with no other access of its waiting, log entry 12; in D3hot it is an Unsupported Request); a new ring size sets HEAD to 0; the telemetry of the last seal goes to the ring whole, or is dropped whole with TEL_DROP and an event. Which entries the ring still takes is the model's: HEAD equal to TAIL means empty, and one entry stays unused (log entry 13). -/
def Obligations.GovernorWindow : Prop :=
  ∀ (s : State) (v : Word), running s.dev.c = true → mainReady s.dev.c 6 = true →
    let c := s.dev.c
    let id := getF c R.GOV_REC_SEL.ID
    let w := getF c R.GOV_REC_SEL.WORD
    let size := getF c R.GOV_TEL_SIZE.ENTRIES
    let head := getF c R.GOV_TEL_HEAD.HEAD
    let l := c.gov.tel
    let d0 : Dev := { s.dev with c := { c with gov := { c.gov with tel := [] } } }
    (0 < id → id < getF c R.GOV_CFG.RECORDS → recWordRw w = true → stepOpen c = false → w = 0 ∧ v.toNat % 16 ≤ 4 ∨ 0 < w →
      exec (.govRecDataWrite v) s = .next (s.withCtl (recAdvance (updRec id (fun r => recWrite r w v.toNat) c)))) ∧
    (0 < id → id < getF c R.GOV_CFG.RECORDS → recWordRw w = true → stepOpen c = true →
      exec (.govRecDataWrite v) s = .next (s.withCtl (recAdvance (raise evProgram 0x13 srcGovernor 0 (setB R.GOV_STATUS.REC_WR_REJ true c))))) ∧
    (id = 0 → exec (.govRecDataWrite v) s = .next (s.withCtl (recAdvance c))) ∧
    (PortQuiet c → hostServes c = true → exec .govRecDataRead s =
      .next (s.withCtl (recAdvance { c with host := { c.host with rsp := c.host.rsp ++ [.data (BitVec.ofNat 64 (recSelected c))] } }))) ∧
    (PortQuiet c → hostReaches c = true → c.host.d3 = true →
      exec .govRecDataRead s = .next (s.withCtl (onHost (fun h => { h with rsp := h.rsp ++ [.unsupported] }) (hostUnsupported true c)))) ∧
    exec (.govTelSizeWrite v) s = .next (s.withCtl (setF R.GOV_TEL_HEAD.HEAD 0 (setF R.GOV_TEL_SIZE.ENTRIES v.toNat c))) ∧
    (stepOpen c = true → l ≠ [] → size ≠ 0 → l.length ≤ ringFree size head (getF c R.GOV_TEL_TAIL.TAIL) →
      exec .govTelWrite s = .next (s.withDev (onCtl (fun c => cause 18 (setF R.GOV_TEL_HEAD.HEAD ((head + l.length) % size) c))
        (telStore (getF c R.GOV_TEL_BASE.BASE * 256) size head l d0)))) ∧
    (stepOpen c = true → l ≠ [] → size ≠ 0 → ringFree size head (getF c R.GOV_TEL_TAIL.TAIL) < l.length →
      exec .govTelWrite s = .next (s.withCtl (govEvent 6 0 (leNat (((l.headD []).drop 4).take 4))
        (setB R.GOV_STATUS.TEL_DROP true (satF R.GOV_TEL_DROPS.COUNT 1 d0.c)))))

/-- What a seal leaves of a tensor record (R104, R105): the counts of the step are cleared whatever its kind, the totals gain them at a sealed step that was not a measuring one and keep their values at a measuring one, and an abandoned step clears the counts, of every record, and changes nothing else of it. -/
def Obligations.RecordsAtTheSeal : Prop :=
  (∀ (k : SealKind) (r : TRec),
    let n := sealRec k r
    n.conv = 0 ∧ n.sat = 0 ∧ n.van = 0 ∧ n.nf = 0 ∧ n.amax = 0 ∧ n.sharedAmax = 0 ∧ n.written = false ∧ n.nonfin = false ∧ n.sharedWr = false ∧
    n.fmt = r.fmt ∧ n.auto = r.auto ∧ n.carry = r.carry ∧ n.shared = r.shared ∧ n.nfAllow = r.nfAllow ∧ n.hlenM1 = r.hlenM1 ∧ n.margin = r.margin ∧
    (k ≠ .measured → n.totSat = sat32 r.totSat r.sat ∧ n.totVan = sat32 r.totVan r.van ∧ n.totNf = sat32 r.totNf r.nf) ∧
    (k = .measured → n.totSat = r.totSat ∧ n.totVan = r.totVan ∧ n.totNf = r.totNf ∧ n.hist = r.hist ∧ n.head = r.head ∧ n.samples = r.samples ∧
      n.penalty = r.penalty ∧ n.cleanRun = r.cleanRun ∧ n.cold = r.cold) ∧
    (r.carry = false → n.readScale = n.scale) ∧
    (k = .skipped → n.hist = r.hist ∧ n.samples = r.samples ∧ n.head = r.head ∧ n.cold = r.cold) ∧
    (k = .clean → r.written = false → n.scale = r.scale ∧ n.penalty = r.penalty ∧ n.hist = r.hist)) ∧
  (∀ r : TRec,
    let n := recClear r
    n.conv = 0 ∧ n.sat = 0 ∧ n.van = 0 ∧ n.nf = 0 ∧ n.amax = 0 ∧ n.sharedAmax = 0 ∧ n.written = false ∧ n.nonfin = false ∧ n.sharedWr = false ∧
    { n with conv := r.conv, sat := r.sat, van := r.van, nf := r.nf, amax := r.amax, sharedAmax := r.sharedAmax, written := r.written, nonfin := r.nonfin,
             sharedWr := r.sharedWr } = r) ∧
  (∀ (c : Ctl) (id : Nat), (govAbandon c).gov.recs.look id = (c.gov.recs.look id).map recClear)

/-! ### Ports, lanes, lasers -/

/-- Lanes and lasers (R232 to R234, R268, R384): a receive lane that fails is out of service at once and charged once; a laser that fails is charged and its spare lit, a lane whose old laser is dead being out of service until the switch; a spare that has settled waits for the boundary, one that fails leaves the lane out of service for good. Ports train, go down and come back (R233, R263, R266, R267): a port that has trained reads UP at once and takes part from the next boundary, and none trains without the fabric clock (R495); one that has not within 50 ms goes down with cause TRAIN; a host's restart trains a port that is DOWN and not in loopback, and its take-down waits for the boundary; after a pause a port sends again. -/
def Obligations.LanesLasersAndPorts : Prop :=
  (∀ (s : State) (p l : Nat) (dead : Bool), running s.dev.c = true → l < 8 → portReady s.dev.c p = true →
      let c := s.dev.c
      ((portSt c p).rxOut.getLsbD l = false → exec (.laneFail p l) s = .next (s.withCtl (chargeUnit kLane (srcPort p)
        (setF (lanesF R.PORT_LANES.RX_ACTIVE p l) 0 (setPortSt p (fun x => { x with rxOut := x.rxOut ||| laneBit l }) c))))) ∧
      ((portSt c p).rxOut.getLsbD l = true → exec (.laneFail p l) s = .next s) ∧
      (exec (.laserFail p l false) s = .next (s.withCtl (inCycle (fun c => lightSpare p l (chargeUnit kLaser (srcPort p) c)) c))) ∧
      (dead = true → getF c (lanesF R.PORT_LANES.SPARE_LASER p l) = 0 →
        exec (.laserFail p l dead) s = .next (s.withCtl (inCycle (fun c => txLaneOut p l (lightSpare p l (chargeUnit kLaser (srcPort p) c))) c))) ∧
      ((portSt c p).lighting.getLsbD l = true → exec (.spareLaserSettled p l true) s = .next (s.withCtl
        (setPortSt p (fun x => { x with lighting := x.lighting &&& ~~~ laneBit l, settled := x.settled ||| laneBit l }) c))) ∧
      ((portSt c p).lighting.getLsbD l = true →
        exec (.spareLaserSettled p l false) s = .next (s.withCtl (laserDead p l (chargeUnit kLaser (srcPort p) c))))) ∧
  (∀ (s : State) (p : Nat), running s.dev.c = true → p < 38 →
      let c := s.dev.c
      let st := getF c (portF R.PORT_STATUS.STATE p)
      (st = 1 → c.pwr.noFabric = true → exec (.portTrainingDone p) s = .next s) ∧
      (st = 1 → c.pwr.noFabric = false → laneWidth (portSt c p).txOut ≠ 0 → laneWidth (portSt c p).rxOut ≠ 0 →
        ∃ t, exec (.portTrainingDone p) s = .next t ∧ t.dev.m = s.dev.m ∧ getF t.dev.c (portF R.PORT_STATUS.STATE p) = 2 ∧
          getF t.dev.c (portF R.PORT_STATUS.DOWN_CAUSE p) = 0 ∧ getF t.dev.c (portF R.PORT_STATUS.TX_WIDTH p) = laneWidth (portSt c p).txOut ∧
          getF t.dev.c (portF R.PORT_STATUS.RX_WIDTH p) = laneWidth (portSt c p).rxOut ∧ (portSt t.dev.c p).fresh = true) ∧
      (st = 1 → exec (.portTrainingTimeout p) s = .next (s.withCtl (portDown p 2 c))) ∧
      (portReady c p = true → st = 4 → portLoop c p = false → exec (.restart p) s = .next (s.withCtl (setF (portF R.PORT_STATUS.STATE p) 1 c))) ∧
      (portReady c p = true → exec (.takeDown p) s = .next (s.withCtl (setPortSt p (fun x => { x with takeDown := true }) c))) ∧
      (st = 3 → exec (.pauseEnd p) s = .next (s.withCtl (flushWait (setF (portF R.PORT_STATUS.STATE p) 2 c)))))

/-! ### Frames -/

/-- The header (R239): the 32 bytes of a header spell that header again, every field and reserved bit at every value. -/
def Obligations.HeaderRoundTrip : Prop :=
  ∀ h : Header, (headerBytes h).length = 32 ∧ headerOf (headerBytes h) = h

/-- The checks on a received frame in their order (R240, R255): one whose check value differs is discarded and counted; one from outside the roster takes its port down, counted, or is discarded silently where no roster is loaded; one from a quarantined peer is dropped; one for another device raises a LINK event; one that is no admission frame, from a peer not admitted, quarantines that peer, and so does a malformed one; one of a roster version that is neither the current one nor, within the beat of its advance, the previous one is discarded and counted; one that came by another port than its PORT names is delivered, counted, with a LINK event; any other meets the alive test, which decides whether it is delivered. Each clause assumes that the checks before its own have passed. -/
def Obligations.ReceivedFrameChecks : Prop :=
  ∀ (rx : Rx) (c : Ctl), c.ten = none → portHears c rx.port = true →
    let h := rx.frame.hdr
    let peer := h.src.toNat
    let q := (logPort c rx.port).getD 0
    let known := (member c peer).isSome = true ∧ peerIs c peer 3 = false
    let mine := known ∧ some h.dst.toNat = c.place.me
    let heard := mine ∧ (isAdmission h = true ∨ peerIs c peer 2 = true)
    let formed := heard ∧ malformed c rx.frame = false
    let ver := h.rosterVer.toNat
    let fresh := formed ∧ (ver = getF c R.PLACE_STATUS.ROSTER_VER ∨ some ver = c.place.prevVer)
    let no (c : Ctl) : Ctl × Arrival := (c, ⟨false, 0⟩)
    (frameCrc rx.frame ≠ rx.crc → selvedge rx c = no (satF (portF R.PORT_ERR0.CRC rx.port) 1 c)) ∧
    (frameCrc rx.frame = rx.crc →
      (member c peer = none → getB c R.SEL_STATUS.ROSTER = true → selvedge rx c = no (portDown rx.port 3 (satF R.SEL_CNT.OUT_OF_ROSTER 1 c))) ∧
      (member c peer = none → getB c R.SEL_STATUS.ROSTER = false → selvedge rx c = no c) ∧
      ((member c peer).isSome = true → peerIs c peer 3 = true → selvedge rx c = no c) ∧
      (known → some h.dst.toNat ≠ c.place.me → selvedge rx c = no (raiseLinkPeer 0x06 (srcPort rx.port) peer 0 c)) ∧
      (mine → isAdmission h = false → peerIs c peer 2 = false → selvedge rx c = no (quarantine peer 0x7 rx.port (satF R.SEL_CNT.UNAUTH 1 c))) ∧
      (heard → malformed c rx.frame = true → selvedge rx c = no (quarantine peer 0x6 rx.port (satF R.SEL_CNT.MALFORMED 1 c))) ∧
      (formed → ver ≠ getF c R.PLACE_STATUS.ROSTER_VER → some ver ≠ c.place.prevVer → selvedge rx c = no (satF R.SEL_CNT.STALE 1 c)) ∧
      (fresh → h.port.toNat ≠ q → selvedge rx c =
        (lpeCount R.LPE_RX.COUNT q (raiseLinkPeer 0x08 (srcPort rx.port) peer rx.port (satF R.SEL_CNT2.MISPLANE 1 c)), ⟨true, 0⟩)) ∧
      (fresh → h.port.toNat = q →
        let r := aliveTest peer h.cls.toNat q rx.port h c
        (r.2.1 = true → selvedge rx c = (lpeCount R.LPE_RX.COUNT q r.1, ⟨true, r.2.2⟩)) ∧ (r.2.1 = false → selvedge rx c = no r.1)) ∧
      ((selvedge rx c).2.deliver = true → fresh))

/-- A frame of any class and type meets the same checks: a malformed one from a peer that may send it quarantines that peer with reason 6 and counts (R255, R256). A frame under an ingress delay, or behind one, is held with its delay added and released oldest first (R255, R468). -/
def Obligations.FramesHeldAndReleased : Prop :=
  ∀ (s : State) (rx : Rx), running s.dev.c = true →
    let c := s.dev.c
    let cls := rx.frame.hdr.cls.toNat
    let type := rx.frame.hdr.type.toNat
    (ingressHolds c rx.port = true → exec (.malformedFrame rx) s = .next (s.withCtl
      { c with ingress := c.ingress ++ [{ rx.typed cls type with time := rx.time + ingressDelay c rx.port }] })) ∧
    (ingressHolds c rx.port = false → exec (.malformedFrame rx) s = .next (s.withDev (receive (handlerOf cls type) (rx.typed cls type) s.dev))) ∧
    (ingressHolds c rx.port = false → c.ten = none → portHears c rx.port = true → frameCrc rx.frame = rx.crc →
      (member c rx.peer).isSome = true → peerIs c rx.peer 3 = false → some rx.frame.hdr.dst.toNat = c.place.me →
      (isAdmission rx.frame.hdr = true ∨ peerIs c rx.peer 2 = true) → malformed c rx.frame = true →
      exec (.malformedFrame rx) s = .next (s.withCtl (quarantine rx.peer 0x6 rx.port (satF R.SEL_CNT.MALFORMED 1 c)))) ∧
    (∀ p, c.ingress.find? (fun r => r.port == p) = some rx →
      exec (.ingressDelayRelease p) s = .next (s.withDev
        (receiveAny rx { s.dev with c := { c with ingress := c.ingress.eraseP (fun r => r.port == p) } })))

/-! ### Admission -/

/-- Admission frames (R253, R254, R256): a HELLO that answers this device's own is answered with PROVE; one without a common level is rejected with reason 5; a PROVE that fails a check has its sender rejected and quarantined, one that passes is answered with ADMITTED; ADMITTED is noted, and a REJECT quarantines its sender with the reason it carries. That a HELLO without a common level quarantines its sender as well is the model's reading (log entry 84), and so is that the first HELLO to come under way answers this device's own (log entry 81). -/
def Obligations.AdmissionFrames : Prop :=
  ∀ (s : State) (rx : Rx) (c : Ctl) (p : Peer),
    let n := rx.peer
    let pay := rx.frame.payload
    peerOf c n = some p →
    (Delivered s 0 0x10 rx c → levelOk (leNat (pay.take 4) % 16) = false →
      exec (.hello rx) s = .next (s.withCtl (admitReject n 5 rx.port c))) ∧
    (Delivered s 0 0x10 rx c → levelOk (leNat (pay.take 4) % 16) = true → p.active = true → p.theirs = none →
      let theirs := BitVec.ofNat 256 (leNat ((pay.drop 72).take 32))
      let c := onPeer n (fun x => { x with theirs := some (theirs, leNat (pay.take 4) % 16) }) c
      exec (.hello rx) s = .next (s.withCtl (admitWait n (sendAny (out 0 0x11 n (provePayload c n p.nonce theirs)) c)))) ∧
    (∀ theirs al, Delivered s 0 0x11 rx c → p.active = true → p.theirs = some (theirs, al) →
      exec (.prove rx) s = .next (s.withCtl (match proveCheck c n p theirs al rx.frame.hdr.ver.toNat pay with
        | some r => admitReject n r rx.port c
        | none => admitDone n (admitWait n (onPeer n (fun x => { x with sentAdmitted := true })
            (sendAny (out 0 0x12 n (leBytes 4 (min 1 al))) c)))))) ∧
    (Delivered s 0 0x12 rx c → p.active = true →
      exec (.admitted rx) s = .next (s.withCtl (admitDone n (onPeer n (fun x => { x with gotAdmitted := true }) c)))) ∧
    (Delivered s 0 0x13 rx c →
      exec (.reject rx) s = .next (s.withCtl (handshakeFill (quarantine n (leNat (pay.take 4) % 16) rx.port c))))

/-- Deadlines and the host's part (R244, R252, R263, R274): with 64 handshakes under way a new one waits; a handshake past its deadline is tried again up to three times, and then the peer is UNREACHABLE with a LINK event; an UNREACHABLE peer is tried again every 16 deadlines, and by RETRY; CLEAR_QUAR ends a quarantine and starts a handshake; a flow context without outstanding request is freed when its flow has carried no frame for 16 beats. -/
def Obligations.AdmissionTimers : Prop :=
  ∀ (s : State) (n k : Nat) (p : Peer) (f : Flow), running s.dev.c = true →
    let c := s.dev.c
    let later (c : Ctl) : Ctl := onPeer n (fun x => { x with deadline := some (c.ticks + 16 * admitBeats c) }) c
    let cleared : Ctl := onPeer n (fun x => { x with attempts := 0, reason := 0 }) (setPeerState n 1 c)
    peerOf c n = some p →
    (peerDue c n 1 = true → p.attempts < 3 → exec (.admissionDeadline n) s = .next (s.withCtl (sendHello n c))) ∧
    (peerDue c n 1 = true → 3 ≤ p.attempts → exec (.admissionDeadline n) s = .next (s.withCtl
      (handshakeFill (raiseLinkPeer 0x0C srcSelvedge n 0 (onPeer n (fun x => { x with deadline := some (c.ticks + 16 * admitBeats c) }) (setPeerState n 4 c)))))) ∧
    (peerDue c n 4 = true → handshakeFree c n = true → exec (.admissionRetry n) s = .next (s.withCtl (sendHello n (later c)))) ∧
    (handshakeFree c n = false → exec (.admissionRetry n) s = .next s) ∧
    (mainReady c 9 = true → getF c R.SEL_PEER_SEL.DEVICE = n → p.state = 3 → handshakeFree cleared n = true →
      exec .clearQuar s = .next (s.withCtl (sendHello n cleared))) ∧
    (mainReady c 9 = true → getF c R.SEL_PEER_SEL.DEVICE = n → p.state = 3 → handshakeFree cleared n = false →
      exec .clearQuar s = .next (s.withCtl cleared)) ∧
    (mainReady c 9 = true → getF c R.SEL_PEER_SEL.DEVICE = n → p.state = 4 → handshakeFree c n = true →
      exec .retry s = .next (s.withCtl (sendHello n (later c)))) ∧
    (mainReady c 9 = true → getF c R.SEL_PEER_SEL.DEVICE = n → p.state = 4 → handshakeFree c n = false →
      exec .retry s = .next (s.withCtl (onPeer n (fun x => { x with deadline := some c.ticks }) c))) ∧
    (mainReady c 9 = true → getF c R.SEL_PEER_SEL.DEVICE = n → p.state = 2 → exec .clearQuar s = .next s ∧ exec .retry s = .next s) ∧
    (c.flows.look k = some f → flowBusy c f = false → f.last + 16 ≤ c.ticks →
      exec (.flowContextFree k) s = .next (s.withCtl (flushWait { c with flows := c.flows.del k })))

/-! ### Time and beats -/

/-- Time messages (R15, R18, R257 to R263): a child's TIME_UP is held for this guard's combination, and one of another beat counts towards no guard; the first TIME_DOWN of the guard, from the parent, is taken, and one outside the guard or from another is not; a member below the root combines once in a guard and sends TIME_UP to its parent if that is admitted, which carries its stretch request and commit-fault bit (R31, R32), the root sends TIME_DOWN to its children; a child missing for SEL_TMO.TIME guards, as it stood at the first of them (R275), is reported lost. The model's readings: that a TIME_UP of another beat is dropped whole (log entry 22), what TIME_UP carries as commit fault (log entry 21), and the source of LINK cause 0x0A (log entry 23). -/
def Obligations.TimeMessages : Prop :=
  ∀ (s : State) (rx : Rx) (c : Ctl) (now n : Nat),
    (Delivered s 0 0x01 rx c → beatsRun c = true → c.time.inGuard = true → c.time.mine = none → (treeChildren c).contains rx.peer = true →
      timeField (rx.typed 0 1) 0 8 = getF c R.BEAT_NOW.BEAT →
      exec (.timeUp rx) s = .next (s.withCtl { c with time := { c.time with
        ups := c.time.ups.put rx.peer (upOf rx (tbAt c rx.time)), lastSnap := c.time.lastSnap.put rx.peer (upOf rx (tbAt c rx.time)).snap } })) ∧
    (Delivered s 0 0x01 rx c → timeField (rx.typed 0 1) 0 8 ≠ getF c R.BEAT_NOW.BEAT → exec (.timeUp rx) s = .next (s.withCtl c)) ∧
    (Delivered s 0 0x02 rx c → timeOn c = true → treeParent c = some rx.peer → getB c R.BEAT_STATUS.RUNNING = true → c.time.inGuard = true →
      c.time.gotDown = false → exec (.timeDown rx) s = .next (s.withCtl (downInJob (rx.typed 0 2) c))) ∧
    (Delivered s 0 0x02 rx c → treeParent c ≠ some rx.peer → exec (.timeDown rx) s = .next (s.withCtl c)) ∧
    (running s.dev.c = true → beatsRun s.dev.c = true → s.dev.c.time.inGuard = true → s.dev.c.time.mine = none → treeParent s.dev.c = some n →
      let x := (treeChildren s.dev.c).foldl (combineChild s.dev.c) (ownValues s.dev)
      let c := (takeUps s.dev).c
      let tx := tbAt c now
      let c1 : Ctl := { c with time := { c.time with sentAt := some tx } }
      c.time.mine = some x ∧
      (peerIs c n 2 = true → exec (.timeUpSend now) s = .next (s.withCtl
        (timeSent x (sendLowest 1 (out 0 0x01 n (upPayload (getF c R.BEAT_NOW.BEAT) tx (commitBeat c) x)) c1)))) ∧
      (peerIs c n 2 = false → exec (.timeUpSend now) s = .next (s.withCtl c))) ∧
    (running s.dev.c = true → beatsRun s.dev.c = true → s.dev.c.time.inGuard = true → isRoot s.dev.c = true →
      exec (.timeDownSend now) s = .next (s.withDev (onCtl (fun c => sendDown (tbAt c now) c) (rootCombine s.dev)))) ∧
    (running s.dev.c = true → beatsRun s.dev.c = true → s.dev.c.time.missLimit.getD n (timeGuards s.dev.c) ≤ s.dev.c.time.misses.getD n 0 →
      exec (.timeUpTimeout n) s = .next (s.withCtl (reportLost n (raiseLinkPeer 0x0A srcTimebase n 0
        { s.dev.c with time := { s.dev.c.time with misses := s.dev.c.time.misses.put n 0 } }))))

/-- The combination of time messages is monotonic (R18, R261): with each child's message the combined snapshot report can only fall and the combined stretch only rise, and a commit fault once combined stays; so the job's stretch is at least every device's request and its snapshot report at most every device's. -/
def Obligations.CombiningIsMonotonic : Prop :=
  ∀ (c : Ctl) (x : Combined) (l : List Nat),
    let y := l.foldl (combineChild c) x
    y.snap ≤ x.snap ∧ x.stretch ≤ y.stretch ∧ (x.fault = true → y.fault = true) ∧ y.next = x.next ∧
    (∀ n ∈ l, ∀ m, c.time.ups.look n = some m → y.snap ≤ m.snap ∧ m.stretch ≤ y.stretch ∧ (m.fault = true → y.fault = true))

/-- Beat boundaries (R16, R17, R19, R22, R23, R257, R261, R468, R487). A running device's boundary comes after its guard, and joins one that waits to; a sensor at 125 °C switches the module off instead. Its order is that of R19: timeouts and what is due before them, the transitions of the step at the end of a commit beat, the reads held over it, the roster's change, the staged changes and the snapshot of a sealed step, the new beat's number and stretch, measurements, and then what starts. BEAT_NOW and CUR take the combined values, RUNNING is 1 and the guard is over. The steps (R22, R23): a beat that is no commit beat leaves them; at the end of a commit beat the step is sealed if the combined commit fault is 0, TIME_DOWN has come and the vote carries neither STOP nor CKFAIL nor NONFIN under HALT, counted as skipped with NONFIN, and then the next step of the job opens; else it is abandoned, and the job halts or recovers from it, or goes on where only TIME_DOWN was missing. A device without a job's beats has local boundaries, at which deadlines and staged changes come due and the root begins job beat 0. GUARD_START opens the guard with nothing received in it, cancels the known-answer picks that still run (R157), stops what has not completed and gathers its records (R456); a jittered segment start happens after its delay. What comes before part 1 of R19 and how a device goes on without TIME_DOWN (log entries 51, 28, 26), and that local boundaries apply staged changes (39), are the model's readings. -/
def Obligations.BoundariesAndGuard : Prop :=
  (∀ (s : State) (r : Readings), running s.dev.c = true → timeOn s.dev.c = true →
    let c := s.dev.c
    let due := if getB c R.BEAT_STATUS.RUNNING then c.time.inGuard else c.time.joined
    let d1 := boundaryStart s.dev
    let x := boundaryValues d1.c
    let stretch := if noDown c then 0 else max x.stretch (recordedNext d1)
    let d2 := firstBeatEnd d1
    let k := endStep x.fault (noDown c) (moveRollback x.snap d2.c)
    let d3 := heldReadsServe { d2 with c := moveRollback x.snap k.c }
    let o := rosterBoundary x.lost k.plan { d3 with c := { d3.c with place := { d3.c.place with prevVer := none } } }
    let d4 := changeBoundary k.sealed o.1
    let d5 : Dev := { d4 with c := jitterBoundary (latchBeat x stretch d4.c) }
    let d6 := measureBoundary (getB d1.c R.BEAT_STATUS.RUNNING && !getB d1.c R.BEAT_STATUS.ALIGNED) (getF o.1.c R.BEAT_NOW.BEAT) (getF c R.STEP_NOW.STEP) r d5
    (due = true → tooHot r = false → exec (.beatBoundary r) s = .next (s.withDev (onCtl gatherEnd (runPlan o.2 d6)))) ∧
    (due = true → tooHot r = true → exec (.beatBoundary r) s = exec .overtempOff s) ∧
    (due = false → exec (.beatBoundary r) s = .next s)) ∧
  (∀ (x : Combined) (stretch : Nat) (c : Ctl), x.next < 2 ^ 64 → stretch ≤ 16 →
    let t := latchBeat x stretch c
    getF t R.BEAT_NOW.BEAT = x.next ∧ getF t R.BEAT_STRETCH.CUR = stretch ∧ getB t R.BEAT_STRETCH.NEXT_VALID = false ∧ getB t R.BEAT_STATUS.RUNNING = true ∧
      t.time.inGuard = false ∧ t.time.joined = false ∧ t.step = c.step ∧
      (∀ off, off ≠ R.BEAT_NOW.adr → off ≠ R.BEAT_STRETCH.adr → off ≠ R.BEAT_STATUS.adr → getReg t off = getReg c off)) ∧
  (∀ (fault missed : Bool) (c : Ctl),
    let s := getF c R.STEP_NOW.STEP
    let v := decidingVote c
    let k := endStep fault missed c
    let abandons : Bool := v.getLsbD trStop || v.getLsbD trCkfail || (v.getLsbD trNonfin && v.getLsbD trHalt)
    let latched : Bool := c.step.hasVote && getB c R.VOTE_STATE.VOTE_VALID
    (commitBeat c = false → k = ⟨c, .stay, none⟩) ∧
    (commitBeat c = true → stepOpen k.c = false ∧ getB k.c R.STEP_STATUS.COMMIT = false ∧ getB k.c R.VOTE_STATE.VOTE_VALID = false) ∧
    (commitBeat c = true → fault = false → missed = false → abandons = false →
      k.sealed = some s ∧ k.plan = (if s < lastOpened c then .next (s + 1) else .stay) ∧ getF k.c R.STEP_SEALED.STEP = s ∧
      (v.getLsbD trNonfin = false → getF k.c R.VOTE_COUNTS.SKIPS = getF c R.VOTE_COUNTS.SKIPS) ∧
      (v.getLsbD trNonfin = true → getF c R.VOTE_COUNTS.SKIPS < 0xFFFFFFFF → getF k.c R.VOTE_COUNTS.SKIPS = getF c R.VOTE_COUNTS.SKIPS + 1)) ∧
    (commitBeat c = true → fault = true ∨ missed = true ∨ abandons = true →
      k.sealed = none ∧ getF k.c R.STEP_SEALED.STEP = getF c R.STEP_SEALED.STEP ∧
      (latched = true → v.getLsbD trStop = true → k.plan = .halt (some s)) ∧
      (latched = true → v.getLsbD trStop = false → v.getLsbD trCkfail = true → k.plan = .recover s) ∧
      (missed = false → abandons = false → k.plan = .recover s) ∧
      (missed = true → abandons = false → k.plan = (if s < lastOpened c then .next (s + 1) else .stay) ∧ k.c.step.ckNext = true))) ∧
  (∀ (d : Dev) (n : Nat) (f : Option Nat), n < 2 ^ 64 →
    (let t := runPlan (.next n) d
     stepOpen t.c = true ∧ getF t.c R.STEP_NOW.STEP = n ∧ t.c.step.opened = true ∧ t.c.step.beat = 0) ∧
    (stepOpen d.c = false → runPlan .stay d = d) ∧
    (let t := runPlan (.halt f) d
     getF t.c R.REC_STATE.STATE = 3 ∧ getB t.c R.VOTE_STATE.HALTED = true ∧ t.m = d.m)) ∧
  (∀ (s : State) (cycle : Nat), running s.dev.c = true →
    let c := s.dev.c
    (timeOn c = true → getB c R.BEAT_STATUS.RUNNING = false → c.time.joined = false →
      let d : Dev := deadlines { s.dev with c := fanCfgTake (tick (gatherStart c)) }
      let t := stagedChanges d.c
      exec .localBeatBoundary s = .next (s.withDev { d with c := gatherEnd (if isRoot t = true ∧ t.time.stopped = false then
        setB R.BEAT_STATUS.ALIGNED true (setF R.BEAT_STATUS.OFFSET_NS 0 (setB R.BEAT_STATUS.RUNNING true (setF R.BEAT_NOW.BEAT 0 (setF R.BEAT_STRETCH.CUR 0
          (let u := jitterBoundary t
           { u with time := { u.time with inGuard := false } })))))
        else t) })) ∧
    (timeOn c = false ∨ getB c R.BEAT_STATUS.RUNNING = true ∨ c.time.joined = true → exec .localBeatBoundary s = .next s) ∧
    (beatsRun c = true → c.time.inGuard = false →
      let time : TimeSt := { c.time with
        inGuard := true, sentAt := none, sent := false, mine := none, comb := none, gotDown := false, sentDown := [], ups := [], ask := max c.time.ask (hostStretch c) }
      let opened : Dev := { s.dev with c := kapGuard { gatherStart c with time := time } }
      exec (.guardStart cycle) s = .next (s.withDev (onCtl (fun c => gatherEnd (moveGuard (if stepOpen c && commitBeat c then fileLate (digestLate c) else c)))
        (sampleGuard (guardStops cycle opened))))) ∧
    (beatsRun c = false ∨ c.time.inGuard = true → exec (.guardStart cycle) s = .next s) ∧
    (c.jitter = true → c.time.inGuard = false → exec .jitteredSegmentStart s = .next (s.withCtl (segmentsStart { c with jitter := false }))) ∧
    (c.jitter = false ∨ c.time.inGuard = true → exec .jitteredSegmentStart s = .next s))

/-! ### The sequencer -/

/-- A treadle reads its list and loads (R129, R141, R143, R149, R150): the next list word is taken from the core store, at most 16 ahead, and none while a new program is being copied into the core (R425); the image of the next word is copied, and refused with the lowest REASON that it fails with, or held ready to start. -/
def Obligations.TreadleFetchAndLoad : Prop :=
  ∀ (s : State) (p t cycle : Nat) (w : Word) (rest : List Word), running s.dev.c = true → p < 72 → t < 6 →
    let c := s.dev.c
    let x := trAt c p t
    let img := pickImage s.dev.m p (wordIndex w)
    let ld : Loaded := { image := img, idx := wordIndex w, word := headIdx x, segEnd := wordSegEnd w, stepEnd := wordStepEnd w, due := 0 }
    let c0 := setF (trF R.TR_STATE.PICK p t) (wordIndex w) (setTr p t (fun x => { x with ahead := rest, early := x.closed }) c)
    (x.active = true → x.ended = false → x.ahead.length < 16 → x.ahead.any wordStepEnd = false → stepOpen c = true → c.copying.contains p = false → x.off + 4 * x.next < coreBytes →
      exec (.listWordFetch p t) s = .next (s.withCtl (settle p t (setTr p t (fun y =>
        { y with ahead := y.ahead ++ [BitVec.ofNat 32 (leNat (readBytes s.dev.m (coreKey p + (x.off + 4 * x.next)) 4))], next := y.next + 1 }) c)))) ∧
    (x.ahead.length = 16 ∨ c.copying.contains p = true → exec (.listWordFetch p t) s = .next s) ∧
    (x.ahead = w :: rest → mayLoad c p x = true → wordEmpty w = false → stepOpen c = true → x.hollow = false →
      (refusal c0 (cntOf c0 p) (logCore c0 p) t img = none →
        exec (.pickLoad p t cycle) s = .next (s.withCtl (setTr p t (fun y => { y with load := some ld }) c0))) ∧
      (∀ reason, refusal c0 (cntOf c0 p) (logCore c0 p) t img = some reason → x.closed = false →
        exec (.pickLoad p t cycle) s = .next (s.withCtl (takeWord p t (headIdx x) (wordSegEnd w) (wordStepEnd w)
          (tracePick p t evRefused (wordIndex w) (headIdx x) cycle (faultNow p t causeRefused reason (wordIndex w) (headIdx x) (imgWaitGrp img) c0))))))

/-- A wait tests all its flags together (R146): a loaded pick whose treadle and beat allow it starts when every flag named in WAIT_LOCAL and WAIT_CHIP is set, and stays loaded, with the block unchanged, while any is clear; with both masks zero it does not wait; setting a flag that is set, or clearing one that is clear, changes no register. A pick of an absent engine takes the fault of R151 when it would start, a NOP too (the model's reading, log entry 65). That CONSUME leaves the flags whose set in that very cycle let the pick start is the model's reading of R144 and R147 (log entry 152). -/
def Obligations.WaitsTestTheirFlagsTogether : Prop :=
  ∀ (s : State) (p t cycle : Nat) (ld : Loaded) (v : Dword), running s.dev.c = true → p < 72 → t < 6 →
    let c := s.dev.c
    let x := trAt c p t
    (x.load = some ld → beatAllows c p = true → prevAllows t x = true → x.hollow = false →
      (localPending c p cycle ld.image ≠ 0 ∨ chipPending c ld.image ≠ 0 → exec (.pickStart p t cycle) s = .next s) ∧
      (localPending c p cycle ld.image = 0 → chipPending c ld.image = 0 →
        let c1 := setF (trF R.TR_POS.WORD p t) ld.word (setTr p t (fun x => { x with load := none }) c)
        let c2 := if imgConsume ld.image then consume p cycle (BitVec.ofNat 64 (imgWaitLocal ld.image)) ld.due c1 else c1
        let counts := loopCounts (cntOf c2 p) ld.image
        let run : Running := { image := ld.image, idx := ld.idx, word := ld.word, segEnd := ld.segEnd, stepEnd := ld.stepEnd, hollow := false,
                               counts := counts, mTail := cntOf c2 p (imgMTailCnt ld.image), worked := noWork ld.image counts, lost := false,
                               todo := [], waiting := 0, got := [] }
        (engineAbsent c1 p t = false → exec (.pickStart p t cycle) s = .next (s.withCtl (takeWord p t ld.word ld.segEnd ld.stepEnd
          (tracePick p t evStart ld.idx ld.word cycle (setTr p t (fun x => { x with runs := x.runs ++ [run] }) c2))))) ∧
        (engineAbsent c1 p t = true → exec (.pickStart p t cycle) s = .next (s.withCtl
          (takeWord p t ld.word ld.segEnd ld.stepEnd (faultNow p t causeAbsent 0 ld.idx ld.word (imgWaitGrp ld.image) c1)))))) ∧
    (imgWaitLocal ld.image = 0 → imgWaitChip ld.image = 0 → localPending c p cycle ld.image = 0 ∧ chipPending c ld.image = 0) ∧
    (∀ off, v &&& ~~~ localFlags c p = 0 → getReg (setLocal p v c) off = getReg c off) ∧
    (∀ off, v &&& localFlags c p = 0 → getReg (clearLocal p v c) off = getReg c off) ∧
    (∀ g, v &&& ~~~ chipGroup c g = 0 → g < 64 → setChip g v c = c)

/-- A pick completes and sets its flags (R145, R153, R468): the oldest started pick whose work is done leaves its treadle and sets its local and chip flags; a loaded pick of a treadle that retires hollow sets its flags without work; a delayed set occurs later; a NOP has no work. -/
def Obligations.PicksCompleteAndSetFlags : Prop :=
  ∀ (s : State) (p t cycle : Nat) (r : Running) (rest : List Running) (ld : Loaded) (e : DelayedSet), running s.dev.c = true → p < 72 → t < 6 →
    let c := s.dev.c
    let x := trAt c p t
    (x.runs = r :: rest → runComplete c r = true → c.time.inGuard = false → exec (.pickComplete p t cycle) s = .next (s.withCtl
      (segCheck p t (tracePick p t evComplete r.idx r.word cycle (setFlags p t r.image (setTr p t (fun x => { x with runs := rest }) c)))))) ∧
    (x.runs = r :: rest → runComplete c r = false → exec (.pickComplete p t cycle) s = .next s) ∧
    (x.load = some ld → x.hollow = true → fullWhenHollow (imgOp ld.image) = false → beatAllows c p = true → prevAllows t x = true →
      exec (.hollowRetire p t cycle) s = .next (s.withCtl (takeWord p t ld.word ld.segEnd ld.stepEnd (tracePick p t evHollow ld.idx ld.word cycle
        (setFlags p t ld.image (setF (trF R.TR_POS.WORD p t) ld.word (setTr p t (fun x => { x with load := none }) c))))))) ∧
    (c.delayed.find? (fun e => e.p == p && e.t == t) = some e → exec (.delayedFlagSet p t) s = .next (s.withCtl
      (setChip e.grp e.chip (setLocal p e.loc { c with delayed := c.delayed.erase e })))) ∧
    (curRun c p t 0x00 = some r → exec (.nop p t) s = .next (s.withCtl (workDone p t c))) ∧
    (curRun c p t 0x00 = none → exec (.nop p t) s = .next s)

/-! ### Engines and vector unit -/

/-- MATMUL and DRAIN (R59, R69, R135, R136): the started pick runs its whole loop nest, K passes of each tile iteration in ascending LOOP0 and a drain where DRAIN selects one, and its work is then done; a pick whose slot has not been read out since the last capture waits (R355); a MATMUL that does not drain leaves memory as it was. M of a tile iteration (R136): with M_TAIL, every LOOP1 iteration of a MATMUL uses M_M1 + 1 rows but the last, which uses ((CNT[M_TAIL_CNT] + 127) mod 128) + 1; the iteration's K passes and its drain use the same M. -/
def Obligations.EnginePicks : Prop :=
  (∀ (s : State) (p t : Nat) (r : Running), running s.dev.c = true → p < 72 → t < 6 →
      let n (l : Nat) : Nat := r.counts.getD l 0
      let d0 : Dev := { s.dev with c := drawn s.dev.c }
      (curRun s.dev.c p t 0x10 = some r → slotReading s.dev.c p t r.image = false →
        exec (.matmul p t) s = .next (s.withDev (onCtl (workDone p t)
          ((tileIters (n 1) (n 2) (n 3)).foldl (fun x it => tileIteration p t r (n 0) (n 1) it x) (d0, 0)).1))) ∧
      (curRun s.dev.c p t 0x10 = some r → slotReading s.dev.c p t r.image = false → imgDrain r.image = false →
        ∃ u, exec (.matmul p t) s = .next u ∧ u.dev.m = s.dev.m ∧ u.pending = s.pending) ∧
      (curRun s.dev.c p t 0x10 = some r → slotReading s.dev.c p t r.image = true → exec (.matmul p t) s = .next s) ∧
      (curRun s.dev.c p t 0x11 = some r → slotReading s.dev.c p t r.image = false →
        exec (.drain p t) s = .next (s.withDev (onCtl (workDone p t)
          ((tileIters (n 1) (n 2) (n 3)).foldl (fun d it => drainTile p t r it.1 it.2.1 it.2.2 (imgM r.image) d) d0))))) ∧
  (∀ (p t n0 n1 i1 i2 i3 j : Nat) (r : Running) (d : Dev),
      let img := r.image
      let m := if imgB img 4 23 = true ∧ i1 + 1 = n1 then (r.mTail + 127) % 128 + 1 else imgF img 4 0 7 + 1
      tileIteration p t r n0 n1 (i1, i2, i3) (d, j) =
        (let d := forN n0 (fun i0 d => kPass p t r (j + i0) i0 i1 i2 i3 m d) d
         (if imgB img 1 22 = true then drainTile p t r i1 i2 i3 m d else d, j + n0)) ∧ 1 ≤ m ∧ m ≤ 128)

/-- VMAP, VRED and VUPD (R21, R110, R131 to R133, R297, R324): the rows of the started pick run in ascending ordinal, and its work is then done; a VUPD writes only where the vote allows it, the persistent shard in the commit beat only, and completes at once without a write where it may not; while the digest sweep runs, one that writes the shard waits. A pick with AMAX delivers the last magnitude that its rows gave. That a VUPD of the shard outside the commit beat completes without a write is the model's reading (log entry 62). -/
def Obligations.VectorPicks : Prop :=
  ∀ (s : State) (p : Nat) (r : Running), running s.dev.c = true → p < 72 →
    let c := s.dev.c
    (∀ x ∈ [(Instr.vmap p, 0x20), (.vred p, 0x21)], curRun c p 4 x.2 = some r → imgAmax r.image = false →
      exec x.1 s = .next (s.withDev (onCtl (workDone p 4) ((runRows r).foldl (fun acc it =>
        ((vectorRow p 4 r it acc.1).1, if (vectorRow p 4 r it acc.1).2.isEmpty then acc.2 else (vectorRow p 4 r it acc.1).2))
        ({ s.dev with c := drawn c }, [])).1))) ∧
    (∀ x ∈ [(Instr.vmap p, 0x20), (.vred p, 0x21)], curRun c p 4 x.2 = some r → imgAmax r.image = true →
      let y := (runRows r).foldl (fun acc it =>
        ((vectorRow p 4 r it acc.1).1, if (vectorRow p 4 r it acc.1).2.isEmpty then acc.2 else (vectorRow p 4 r it acc.1).2)) (({ s.dev with c := drawn c } : Dev), [])
      (∀ code, y.2.getLast? = some code → exec x.1 s = .next (s.withDev (onCtl (fun c => workDone p 4 (deliverAmax r.image code c)) y.1))) ∧
      (y.2 = [] → exec x.1 s = .next (s.withDev (onCtl (workDone p 4) y.1)))) ∧
    (curRun c p 4 0x22 = some r → updWrites c p r = false → exec (.vupd p) s = .next (s.withCtl (workDone p 4 c))) ∧
    (curRun c p 4 0x22 = some r → updWrites c p r = true → getB c R.CHK_DIG_STATUS.SWEEP = true → updShard c p r = true → exec (.vupd p) s = .next s) ∧
    (curRun c p 4 0x22 = some r → updWrites c p r = true → getB c R.CHK_DIG_STATUS.SWEEP = false ∨ updShard c p r = false →
      let x := (runRows r).foldl (fun acc it => if acc.2 then acc else updateRow p 4 r it acc.1) (({ s.dev with c := drawn c } : Dev), false)
      x.2 = false → exec (.vupd p) s = .next (s.withDev (onCtl (workDone p 4) x.1)))

/-! ### The shuttle -/

/-- MOVE, MOVE with ADD, CNTLOAD and PLOAD (R138, R140, R176 to R178): a started pick of TS has its pieces listed in issue order and as many issued as may be outstanding; without a started pick of the opcode the command does nothing. FLAG picks (R185): a pick that sets, or clears, a chip flag of this device does so and its work is done, leaving memory and the other flags; one for a peer is sent to that device's atomic port; the other command of the pair leaves such a pick alone. -/
def Obligations.ShuttleAndFlagPicks : Prop :=
  (∀ (s : State) (p : Nat) (r : Running), running s.dev.c = true → p < 72 →
      let c := s.dev.c
      let started (todo : List Piece) : State := s.withDev (pump p (onCtl (fun c => updTs p (fun r => { r with worked := true, todo := todo }) (drawn c)) s.dev))
      (curRun c p 5 0x30 = some r → imgAdd r.image = false → exec (.move p) s = .next (started (movePieces r))) ∧
      (curRun c p 5 0x30 = some r → imgAdd r.image = true → exec (.moveAdd p) s = .next (started (movePieces r))) ∧
      (curRun c p 5 0x31 = some r → exec (.cntload p) s = .next (started (gatherPieces r))) ∧
      (curRun c p 5 0x32 = some r → exec (.pload p) s = .next (started (gatherPieces r))) ∧
      (curRun c p 5 0x30 = none → exec (.move p) s = .next s ∧ exec (.moveAdd p) s = .next s)) ∧
  (∀ (s : State) (p : Nat) (r : Running) (clear : Bool), running s.dev.c = true → p < 72 → curRun s.dev.c p 5 0x33 = some r →
      (imgOparg r.image / 2 ^ 12 % 2 == 1) = clear →
      let cmd (b : Bool) : Instr := if b then .flagPickClear p else .flagPickSet p
      let dev := imgBase r.image 2 / 2 ^ 48
      let f := imgOparg r.image % 4096
      let m : BitVec 4096 := 1 <<< f
      let c := workDone p 5 s.dev.c
      exec (cmd !clear) s = .next s ∧
      (targetOf c dev = .here → mainReady c 5 = true →
        exec (cmd clear) s = .next (s.withCtl { c with chip := if clear then c.chip &&& ~~~ m else c.chip ||| m })) ∧
      (∀ n, targetOf c dev = .peer n →
        exec (cmd clear) s = .next (s.withCtl (tsWait p (issueWrite n (dev * 2 ^ 48 + atomicPort) (flagRequest clear f) (.write (.pick p 5)) c)))))

/-- The pieces of a row of a MOVE (R176, R177): they cover the row in order, each starts where the one before it ended in source and destination, and outside the register space none is empty or crosses a 256-byte boundary of source or destination. -/
def Obligations.MovePiecesCoverTheRow : Prop :=
  ∀ (add : Option Nat) (a b n : Nat),
    ((cutRow add (n + 1) a b n).map (·.len)).sum = n ∧
    (∀ x ∈ cutRow add (n + 1) a b n, 0 < x.len ∧
      (inRegSpace x.src = false → inRegSpace x.dst = false → x.src % 256 + x.len ≤ 256 ∧ x.dst % 256 + x.len ≤ 256)) ∧
    (0 < n → ∃ x l, cutRow add (n + 1) a b n = x :: l ∧ x.src = a ∧ x.dst = b) ∧
    (∀ l₁ x y l₂, cutRow add (n + 1) a b n = l₁ ++ x :: y :: l₂ → y.src = (x.src + x.len) % 2 ^ 64 ∧ y.dst = (x.dst + x.len) % 2 ^ 64)

/-! ### Atomics, the porthole, remote memory access -/

/-- Commons atomics (R182, R183, R185): each replaces its word or double-word of the commons by the new value of R183 in one step, and a flag operation sets or clears its chip flag; without RET no other byte of memory and no register changes; an undefined OP changes nothing and raises a MEMORY event. The staging slots of the host and the control processors (R184): double-words at 0x00, 0x08 and 0x10 fill the master's slot, the one at 0x18 issues the request from it and clears it, and a write of any other width or offset performs nothing and raises a MEMORY event; with the commons out of service the port is unmapped (R171, R428), and a host that the function does not serve fills nothing. -/
def Obligations.AtomicsAndStagingSlots : Prop :=
  (∀ (s : State) (a : AtomicReq) (op : BitVec 8), running s.dev.c = true → mainReady s.dev.c 5 = true → a.ret = false →
      let c := s.dev.c
      let v := a.operand.toNat
      let at' (n : Nat) : Nat := commonsBase + a.target.toNat / n * n
      let old (n : Nat) : Nat := leNat (readBytes s.dev.m (at' n) n)
      let put (n x : Nat) : State := s.withDev { s.dev with m := writeBytes s.dev.m (at' n) (leBytes n x) }
      let m : BitVec 4096 := 1 <<< (v % 4096)
      exec (.faddI32 a) s = .next (put 4 ((old 4 + v) % 2 ^ 32)) ∧
      exec (.faddI64 a) s = .next (put 8 ((old 8 + v) % 2 ^ 64)) ∧
      exec (.faddF32 a) s = .next (put 4 (addF32 (old 4) (v % 2 ^ 32))) ∧
      exec (.cas64 a) s = .next (put 8 (if old 8 = a.compare.toNat then v else old 8)) ∧
      exec (.flagSet a) s = .next (s.withCtl { c with chip := c.chip ||| m }) ∧
      exec (.flagClr a) s = .next (s.withCtl { c with chip := c.chip &&& ~~~ m }) ∧
      (op.toNat % 16 = 0 ∨ 6 < op.toNat % 16 →
        exec (.atomicOpUndefined op a) s = .next (s.withCtl (raise evMemory 0x06 srcDevice atomicPort c)))) ∧
  (∀ (s : State) (m off width : Nat) (v : Dword), running s.dev.c = true → m < 3 → off < 0x20 →
      let c := s.dev.c
      let slots (f : Tab Nat → Tab Nat) : Dev := { s.dev with c := { c with host := { c.host with slots := f c.host.slots } } }
      let slot (k : Nat) : Nat := c.host.slots.getD (4 * m + k) 0
      (m = 0 → hostServes c = false → exec (.atomicSlotFill m off width v) s = .next s) ∧
      (m = 0 → hostServes c = true → mainReady c 5 = false → exec (.atomicSlotFill m off width v) s =
        .next (s.withCtl (raise evMemory 0x01 srcDevice (atomicPort + off) (cause 19 (setB R.PORTHOLE_STATUS.UNMAPPED true c))))) ∧
      (0 < m → mainReady c 5 = false → exec (.atomicSlotFill m off width v) s = .next (s.withCtl (raise evMemory 0x01 srcDevice (atomicPort + off) c))) ∧
      (m = 0 → hostServes c = true) → mainReady c 5 = true →
        (off ∈ [0x00, 0x08, 0x10] → exec (.atomicSlotFill m off 8 v) s = .next (s.withDev (slots (fun t => t.put (4 * m + off / 8) v.toNat)))) ∧
        exec (.atomicSlotFill m 0x18 8 v) s = .next (s.withDev
          (let q := atomicOf (slot 0) (slot 1) (slot 2) v.toNat
           (atomicDo q.1 q.2 .nobody (slots (fun t => ((t.del (4 * m)).del (4 * m + 1)).del (4 * m + 2)))).1)) ∧
        (width ≠ 8 ∨ off ∉ [0x00, 0x08, 0x10, 0x18] →
          exec (.atomicSlotFill m off width v) s = .next (s.withCtl (raise evMemory 0x05 srcDevice (atomicPort + off) c))))

/-- Each commons atomic on data, FADD_I32, FADD_I64, FADD_F32 and CAS64, read back (R182, R183): the location holds the new value afterwards, every byte outside it reads as before, and nothing but memory changes. -/
def Obligations.AtomicsChangeTheirLocationOnly : Prop :=
  ∀ (s : State) (a : AtomicReq) (x : Instr × Nat × Nat), running s.dev.c = true → mainReady s.dev.c 5 = true → a.ret = false →
    let v := a.operand.toNat
    let old (n : Nat) : Nat := leNat (readBytes s.dev.m (commonsBase + a.target.toNat / n * n) n)
    x ∈ [(Instr.faddI32 a, 4, (old 4 + v) % 2 ^ 32), (.faddI64 a, 8, (old 8 + v) % 2 ^ 64), (.faddF32 a, 4, addF32 (old 4) (v % 2 ^ 32)),
      (.cas64 a, 8, if old 8 = a.compare.toNat then v else old 8)] →
    let k := commonsBase + a.target.toNat / x.2.1 * x.2.1
    ∃ t, exec x.1 s = .next t ∧ readBytes t.dev.m k x.2.1 = leBytes x.2.1 x.2.2 ∧
      (∀ key, key < k ∨ k + x.2.1 ≤ key → storeGet t.dev.m key = storeGet s.dev.m key) ∧ t.dev.c = s.dev.c ∧ t.pending = s.pending

/-- Requests of peers (R27, R184, R243): a read is answered with the bytes of its address, held over a commit beat of a tight weave when it touches WEIGHTS or OPTIM; a write is performed and then acknowledged, and refused with STATUS 2 where it touches the shard once a step has opened; an add-write adds in its format. -/
def Obligations.RemoteRequests : Prop :=
  ∀ (s : State) (rx : Rx) (c : Ctl),
    let d : Dev := { s.dev with c := c }
    let a := rx.addr % 2 ^ 48
    let k := max 1 (codeBits rx.frame.hdr.fmt.toNat / 8)
    let held := getB c R.STEP_STATUS.COMMIT && !getB c R.BEAT_CFG.WEAVE && inShard c a rx.arg
    let shut := c.step.opened && inShard c a rx.frame.payload.length
    let refused : Dev := onCtl (fun c => respond rx.peer 0x05 rx.tag 2 0 [] (raise evMemory 0x03 srcDevice a c)) d
    (Delivered s 2 0x01 rx c → held = false → exec (.readReq rx) s = .next (s.withDev
      (let r := readRun false a rx.arg d
       onCtl (respond rx.peer 0x02 rx.tag (if r.2.1 then 0 else 1) rx.addr r.1) r.2.2))) ∧
    (Delivered s 2 0x01 rx c → held = true → exec (.readReq rx) s = .next (s.withCtl { c with heldReads := c.heldReads ++ [rx.typed 2 1] })) ∧
    (Delivered s 2 0x03 rx c → shut = false → exec (.write rx) s = .next (s.withDev
      (let r := writeRun a rx.frame.payload (.remote rx.peer rx.tag 0) d
       acknowledge rx r.2 r.1))) ∧
    (Delivered s 2 0x03 rx c → shut = true → exec (.write rx) s = .next (s.withDev refused)) ∧
    (Delivered s 2 0x04 rx c → shut = false → exec (.addWrite rx) s = .next (s.withDev
      (let r := addRun rx.frame.hdr.fmt.toNat (a / k * k) rx.frame.payload (.remote rx.peer rx.tag 0) d
       acknowledge rx r.2 r.1))) ∧
    (Delivered s 2 0x04 rx c → shut = true → exec (.addWrite rx) s = .next (s.withDev refused))

/-- Responses and deadlines (R243, R263 to R265, R469): a response is matched by tag, peer and kind, and completes its request, unless forced coincidence holds it for the boundary; one that matches none is discarded and PORT_ERR1.LATE counted, with no other effect; at its deadline a request without a response answers zeros, with a LINK event and a check failure of the OPEN step, and before it nothing happens. -/
def Obligations.RemoteResponses : Prop :=
  ∀ (s : State) (rx : Rx) (c : Ctl) (r : Req) (tag : Nat),
    let late : Ctl := satF (portF R.PORT_ERR1.LATE rx.port) 1 c
    let freed : Dev := { s.dev with c := { c with reqs := c.reqs.del rx.tag } }
    (∀ x ∈ [(Instr.readRsp rx, 0x02, true), (.ack rx, 0x05, false)], Delivered s 2 x.2.1 rx c →
      (c.reqs.look rx.tag = none → exec x.1 s = .next (s.withCtl late)) ∧
      (c.reqs.look rx.tag = some r → r.peer ≠ rx.peer ∨ r.isRead ≠ x.2.2 → exec x.1 s = .next (s.withCtl late)) ∧
      (c.reqs.look rx.tag = some r → r.peer = rx.peer → r.isRead = x.2.2 → r.held = none → coincides c r = false →
        exec x.1 s = .next (s.withDev (reqAnswer r rx.status rx.frame.payload freed))) ∧
      (c.reqs.look rx.tag = some r → r.peer = rx.peer → r.isRead = x.2.2 → coincides c r = true →
        exec x.1 s = .next (s.withCtl (tenSpend R.TEN_COINCIDE.COUNT
          { c with reqs := c.reqs.put rx.tag { r with held := some ⟨rx.port, rx.status, rx.frame.payload⟩ } })))) ∧
    (running s.dev.c = true → s.dev.c.reqs.look tag = some r → s.dev.c.ticks < r.deadline → exec (.rmaDeadline tag) s = .next s) ∧
    (running s.dev.c = true → s.dev.c.reqs.look tag = some r → r.deadline ≤ s.dev.c.ticks → r.held = none →
      exec (.rmaDeadline tag) s = .next (s.withDev (reqNext r.cont (inCycleDev (fun d => reqTake r 0 (zeros (if r.isRead then r.len else 0))
        (onCtl (fun c => faultIfOpen 0x0A 0 (raiseLinkPeer 0x09 srcDevice r.peer 0 { c with reqs := c.reqs.del tag })) d)) s.dev))))

/-- The porthole (R186 to R188, R448, R450). An access joins the host's requests; with nothing of the host's before it, one of the two forms is carried out at once at the global address that PORTHOLE_BASE gives: a read here answers its data, zero with UNMAPPED where nothing answers; a write here is performed; either goes to the device that the address names as a request; to a device that cannot be reached it is not sent, and a read answers zero. One of another form sets BAD_ACCESS and raises a PROGRAM event, a read of it answers zero, and a write of it is discarded. In D3hot both are Unsupported Requests, and a read is answered so; while the function is not reached nothing is taken; one that finds no room is held back (log entry 91). The oldest read that times out is answered zero with PORTHOLE_STATUS.TIMEOUT and a MEMORY event, and what waited behind it goes on. -/
def Obligations.PortholeAccesses : Prop :=
  ∀ (s : State) (off width : Nat) (v : Dword) (o : PortOp), running s.dev.c = true →
    let c := s.dev.c
    let addr := getF c R.PORTHOLE_BASE.DEVICE * 2 ^ 48 + (getF c R.PORTHOLE_BASE.BASE * 4096 + off % 2 ^ 30) % 2 ^ 48
    let bad : Ctl := raise evProgram 0x11 srcHost (addr % 2 ^ 48) (cause 19 (setB R.PORTHOLE_STATUS.BAD_ACCESS true c))
    let unmapped (c : Ctl) : Ctl := cause 19 (setB R.PORTHOLE_STATUS.UNMAPPED true c)
    let op (isRead issued : Bool) : PortOp :=
      { isRead := isRead, bar0 := false, addr := addr, width := width, data := if isRead then 0 else v, issued := issued, unsup := false, num := 0 }
    let joined (x : PortOp) : Dev := { s.dev with c := { c with host := { c.host with ops := [x] } } }
    let quiet := hostServes c = true ∧ c.host.ops = [] ∧ c.host.backlog = []
    let more (q : HostReq) : Ctl := { c with host := { c.host with backlog := c.host.backlog ++ [q] } }
    let rd : HostReq := { isRead := true, bar0 := false, off := off, width := width, data := 0 }
    let wr : HostReq := { isRead := false, bar0 := false, off := off, width := width, data := v }
    let aRead (o : PortOp) : Bool := o.isRead && !o.bar0
    (quiet → width = 4 ∨ width = 8 → off % width = 0 →
      (targetOf c (addr / 2 ^ 48) = .here →
        let r := readHere false (addr % 2 ^ 48) width (joined (op true false))
        exec (.portholeRead off width) s = .next (s.withDev (onCtl (fun c => readDone 0 (BitVec.ofNat 64 (leNat r.1)) (if r.2.1 then c else unmapped c)) r.2.2)) ∧
        (let w := match locate c (addr % 2 ^ 48) with
           | .atomic a => slotWrite 0 a width v (.porthole 0) (joined (op false false))
           | _ => writeHere (addr % 2 ^ 48) (leBytes width v.toNat) (.porthole 0) (joined (op false false))
         (∀ st, w.2 = .now st → exec (.portholeWrite off width v) s =
           .next (s.withDev (onCtl (fun c => portDone 0 (if st = 1 then unmapped c else c)) w.1))) ∧
         (∀ st, w.2 = .later st → exec (.portholeWrite off width v) s = .next (s.withDev (onCtl (opIssue 0) w.1))))) ∧
      (∀ n, targetOf c (addr / 2 ^ 48) = .peer n →
        exec (.portholeRead off width) s = .next (s.withCtl (issueRead n addr width (.portRead width) (joined (op true true)).c)) ∧
        exec (.portholeWrite off width v) s =
          .next (s.withCtl (issueWrite n addr (leBytes width v.toNat) (.write (.porthole 0)) (joined (op false true)).c))) ∧
      (targetOf c (addr / 2 ^ 48) = .nowhere →
        exec (.portholeRead off width) s = .next (s.withCtl (readDone 0 0 (notSent (addr / 2 ^ 48) (joined (op true false)).c))) ∧
        exec (.portholeWrite off width v) s = .next (s.withCtl (portDone 0 (notSent (addr / 2 ^ 48) (joined (op false false)).c))))) ∧
    (quiet → portholeForm off width = false →
      exec (.portholeRead off width) s = .next (s.withCtl (hostAnswer 0 bad)) ∧ exec (.portholeWrite off width v) s = .next (s.withCtl bad)) ∧
    (hostReaches c = true → c.host.d3 = true → c.host.ops = [] → c.host.backlog = [] →
      exec (.portholeRead off width) s = .next (s.withCtl (onHost (fun h => { h with rsp := h.rsp ++ [.unsupported] }) (hostUnsupported true c))) ∧
      exec (.portholeWrite off width v) s = .next (s.withCtl (hostUnsupported false c))) ∧
    (hostReaches c = false → exec (.portholeRead off width) s = .next s ∧ exec (.portholeWrite off width v) s = .next s) ∧
    (hostReaches c = true → opNext c [] c.host.ops = none →
      (hostNext (more rd).host = none → exec (.portholeRead off width) s = .next (s.withCtl (more rd))) ∧
      (hostNext (more wr).host = none → exec (.portholeWrite off width v) s = .next (s.withCtl (more wr)))) ∧
    (c.host.ops.find? aRead = some o →
      let c1 : Ctl := raise evMemory 0x07 srcHost (o.addr % 2 ^ 48) (cause 19 (setB R.PORTHOLE_STATUS.TIMEOUT true { c with reqs := dropPortReads c.reqs }))
      exec .portholeReadTimeout s = .next (s.withDev (portRun { s.dev with c := hostAnswer 0 { c1 with
        host := { c1.host with ops := c1.host.ops.filter (fun x => x.num != o.num) } } }))) ∧
    (c.host.ops.find? aRead = none → exec .portholeReadTimeout s = .next s)

/-! ### Collectives and the vote -/

/-- A collective starts (R288 to R290, R293): a started COLL pick of the type, of a group this seat is in, reads its input, tells its sources that it is ready, and begins; the same start serves REDUCE_SCATTER, ALL_REDUCE, ALL_GATHER, BROADCAST and RING_PASS by TYPE. A COLL_ID used again leaves the output of the collective that has it undefined, and a footprint that meets that of another running pick its own (R156). Input that lies at an absent unit stops the pick. That it reads its input when it starts is the model's choice (log entry 105), and BASE_O stands in words 26 and 27 (R287; log entry 151). -/
def Obligations.CollectivesStart : Prop :=
  ∀ (s : State) (p rank : Nat) (members : List Nat) (run : Running) (x : Instr × Nat), running s.dev.c = true → p < 72 →
    x ∈ [(Instr.reduceScatter p, 1), (.allReduce p, 2), (.allGather p, 3), (.broadcast p, 4), (.ringPass p, 5)] →
    curRun s.dev.c p 5 opColl = some run → groupRank s.dev.c (imgF run.image 52 0 12) = some (members, rank) →
    let r0 := collOf s.dev.c run members rank
    let r1 := { r0 with undef := r0.undef || collClash s.dev.c p run r0 }
    let again (q : CollRun) : CollRun := if q.id = r0.id then { q with undef := true } else q
    let marked : Dev := onCtl (fun c => onColl (fun x => { x with started := r0.id :: x.started, runs := x.runs.map (fun e => (e.1, again e.2)) })
      (updRun p 5 (fun (q : Running) => { q with worked := true, waiting := q.waiting + 1 }) c)) s.dev
    let fetched : Dev := inCycleDev (fun d =>
      let i := collInput run.image r1 d
      onCtl (if i.2.1 then onColl (fun x => { x with runs := Tab.put x.runs p { r1 with input := i.1 } }) else tsAbsent p 0) i.2.2) marked
    (imgF run.image 22 0 8 = x.2 →
      (∀ r, fetched.c.coll.runs.look p = some r → exec x.1 s = .next (s.withDev (collSettle p (collBegin p r
        (onCtl (fun c => r.sources.foldl (fun c q => collSend r ⟨q, 0x04, 0, []⟩ c) c) fetched))))) ∧
      (fetched.c.coll.runs.look p = none → exec x.1 s = .next (s.withDev fetched))) ∧
    (imgF run.image 22 0 8 ≠ x.2 → exec x.1 s = .next s) ∧
    (r0.base = imgBase run.image 1 % 2 ^ 48 ∧ r0.id = imgW run.image 53 ∧ r0.members = members ∧ r0.rank = rank)

/-- Frames of collectives (R292, R293, R326): one of another step, or of a collective that this seat has not started, is discarded, counted in COLL_STATUS.STRAY and raises a LINK event; CREADY marks its sender ready; PART enters the sums of a reduction; DATA goes to its place in the output of an ALL_REDUCE, an ALL_GATHER and a BROADCAST, and has no place in a REDUCE_SCATTER or a RING_PASS; RING and DIGEST go to theirs. The trailer of every frame heard is ORed into the step's. -/
def Obligations.CollectiveFrames : Prop :=
  ∀ (s : State) (rx : Rx) (c : Ctl) (p q : Nat) (r : CollRun),
    let bits := codeBits r.fmt
    let heard : Dev := { s.dev with c := hear (BitVec.ofNat 5 rx.arg) c }
    let then_ (f : Dev → Dev) : State := s.withDev (inCycleDev (fun d => collSettle p (f d)) heard)
    let v := payloadCodes 32 rx.frame.payload
    (∀ x ∈ [(Instr.part rx, 0x01), (.data rx, 0x02), (.ring rx, 0x03), (.cready rx, 0x04), (.digest rx, 0x10)],
      Delivered s 1 x.2 rx c → collStray .across rx c = true →
      exec x.1 s = .next (s.withCtl (raiseLinkPeer 0x0D (srcPort rx.port) rx.peer 0 (satF R.COLL_STATUS.STRAY 1 c)))) ∧
    (collStray .across rx c = false → c.coll.runs.find? (fun e => e.2.id == rx.word4) = some (p, r) →
      (List.range r.ranks).find? (fun q => (r.members[q]?).bind (deviceOf (hear (BitVec.ofNat 5 rx.arg) c)) == some rx.peer) = some q →
      (Delivered s 1 0x01 rx c → r.reduces = true → exec (.part rx) s = .next (then_
        (sumsOut p ((List.range v.length).foldl (fun x i => sumGot q (rx.word5 + i) (v.getD i 0) x) ⟨r, [], []⟩)))) ∧
      (Delivered s 1 0x02 rx c → r.type = 2 ∨ r.type = 3 ∧ r.digest = false ∨ r.type = 4 → exec (.data rx) s = .next (then_
        (collWrite p rx.word5 (payloadCodes bits rx.frame.payload)))) ∧
      (Delivered s 1 0x02 rx c → r.type = 1 ∨ r.type = 5 ∨ r.type = 3 ∧ r.digest = true → exec (.data rx) s = .next (then_ id)) ∧
      (Delivered s 1 0x03 rx c → r.type = 5 → exec (.ring rx) s = .next (then_
        (collWrite p rx.word5 (payloadCodes bits rx.frame.payload)))) ∧
      (Delivered s 1 0x04 rx c → exec (.cready rx) s = .next (then_ (onCtl (onCollRun p (fun r => { r with ready := q :: r.ready }))))) ∧
      (Delivered s 1 0x10 rx c → r.digest = true → exec (.digest rx) s = .next (then_ (fun d =>
        collWrite p (4 * q) v (onCtl (onCollRun p (fun r => { r with digs := Tab.put r.digs q rx.frame.payload })) d)))))

/-- The vote (R295, R296): a VOTE pick of TS waits for the trailers of its children, a child's VOTE_UP is kept, and with WAIT_US past the vote goes without those missing; VOTE_DOWN from the parent is latched, also by a member that still waits for a child and by one that serves no seat, passed on, and a STRETCH in it makes a stretch request. A member without a seat has no pick that gives a COLL_ID, and takes the one of its children's VOTE_UPs (log entry 169). -/
def Obligations.VoteCommands : Prop :=
  ∀ (s : State) (rx : Rx) (c : Ctl) (p id : Nat) (o : Option Nat) (run : Running),
    (running s.dev.c = true → p < 72 → curRun s.dev.c p 5 opColl = some run → imgF run.image 22 0 8 = 6 →
      exec (.vote p) s = .next (s.withCtl (voteTry (onColl (fun x => { x with started := imgW run.image 53 :: x.started, vote := some (some p, imgW run.image 53) })
        (updRun p 5 (fun (q : Running) => { q with worked := true, waiting := q.waiting + 1 }) { s.dev.c with step := { s.dev.c.step with hasVote := true } }))))) ∧
    (running s.dev.c = true → s.dev.c.coll.vote = some (o, id) → s.dev.c.step.voteSent = false → votesMissing s.dev.c ≠ [] →
      exec .voteWaitExpiry s = .next (s.withCtl (voteSend o id s.dev.c))) ∧
    (Delivered s 1 0x05 rx c → collStray .up rx c = false → (treeChildren (hear (BitVec.ofNat 5 rx.arg) c)).contains rx.peer = true →
      exec (.voteUp rx) s = .next (s.withCtl (voteTry (onColl (fun x => { x with ups := Tab.put x.ups rx.peer (BitVec.ofNat 5 rx.arg), upId := max x.upId rx.word4 })
        (hear (BitVec.ofNat 5 rx.arg) c))))) ∧
    (Delivered s 1 0x06 rx c → collStray .down rx c = false → c.coll.vote = some (some p, rx.word4) →
      treeParent (hear (BitVec.ofNat 5 rx.arg) c) = some rx.peer →
      exec (.voteDown rx) s = .next (s.withCtl (voteLatch (some p) rx.word4 (BitVec.ofNat 5 rx.arg) (hear (BitVec.ofNat 5 rx.arg) c)))) ∧
    (Delivered s 1 0x06 rx c → collStray .down rx c = false → c.coll.vote = some (none, id) → treeParent (hear (BitVec.ofNat 5 rx.arg) c) = some rx.peer →
      exec (.voteDown rx) s = .next (s.withCtl (voteLatch none rx.word4 (BitVec.ofNat 5 rx.arg) (hear (BitVec.ofNat 5 rx.arg) c)))) ∧
    (∀ c : Ctl, voteSend none id c = voteSend none c.coll.upId c)

/-! ### Recovery and restores -/

/-- Filing, replay and armed recovery (R329, R333, R338): the stage content goes to its slot and the record is then kept; a stage that has been restored sets its targets' chip flags and is one fewer; replay opens step u + 1 at A + RESTORE_BEATS; an armed recovery starts at the beat it was armed for, as attempt 1: that ATTEMPT is set to 0 first is the model's reading (log entry 33). -/
def Obligations.RecoverySteps : Prop :=
  ∀ (s : State) (t a : Nat) (rest : List Nat), running s.dev.c = true →
    let c := s.dev.c
    (c.ret.filing = some (t, true) → exec .retainFileDone s = .next (s.withDev
      (let r := readLong (retStage c) (stageLen c) s.dev
       onCtl (onRet (fun x => { x with filing := none, kept := x.kept ++ [t] })) (writeLong (slotBase c t + slotStage) r.1 r.2)))) ∧
    (c.ret.filing = none → exec .retainFileDone s = .next s) ∧
    (c.ret.restoring = t :: rest →
      let l := (restoreTargets c).filter (targetOfStep t)
      let copied : Dev := l.foldl (fun d x =>
        let r := readRun false (slotBase d.c t + slotStage + x.off) x.len d
        (writeRunPlain x.addr r.1 .nobody r.2.2).1) s.dev
      exec .stageRestoreDone s = .next (s.withDev (onCtl (fun c => setB R.RET_STATUS.RESTORING (!rest.isEmpty) (onRet (fun r => { r with restoring := rest })
        (l.foldl (fun c x => setChip 0 (BitVec.ofNat 64 x.flags) c) c))) copied))) ∧
    (c.ret.restoring = [] → exec .stageRestoreDone s = .next s) ∧
    (c.ret.resume = some a → beatsRun c = true → c.time.inGuard = false → getF c R.REC_STATE.STATE = 1 → a ≤ getF c R.BEAT_NOW.BEAT →
      restoreWhole c = true →
      let ready := setRecState (if c.ret.restart then recIdle else recReplay) (onRet (fun r => { r with resume := none }) c)
      exec .replayStart s = .next (s.withDev
        (let d : Dev := { s.dev with c := if ready.step.hasRollback then measRestored ready else ready }
         let d := openStep d.c.ret.point d
         onCtl segmentsStart (noteStretch 0 (getF d.c R.BEAT_STRETCH.CUR) d)))) ∧
    (c.ret.resume = none → exec .replayStart s = .next s) ∧
    (beatsRun c = true → c.time.inGuard = false → stepOpen c = false → c.ret.armed = some (getF c R.BEAT_NOW.BEAT) →
      exec .armedRecoveryStart s = .next (s.withDev
        (let d := onCtl (fun c => setB R.VOTE_STATE.HALTED false (setAttempt 0 (onRet (fun r => { r with armed := none }) c))) s.dev
         startRecovery (getF d.c R.REC_FAULT_STEP.STEP) d)))

/-- Retained inputs are released by whole steps (R25): when the rollback point moves to step u, the inputs of every step up to and including u are released, and the inputs of every step after u are kept. -/
def Obligations.RetainedInputsReleased : Prop :=
  ∀ (c : Ctl) (u : Nat), c.step.hasChecked = true → u ≤ getF c R.STEP_CHECKED.STEP →
    (if c.step.hasRollback then getF c R.STEP_ROLLBACK.STEP < u else 0 < u) →
    (∀ t, t ∈ (moveRollback u c).ret.kept ↔ t ∈ c.ret.kept ∧ u < t) ∧ (moveRollback u c).step.hasRollback = true

/-- Restores (R324, R370 to R373): a whole-job restore starts at RST_STEP while no step has opened, or when the device is HALTED, and tries its sources in turn; a device without a seat is done at once; a digest sweep sets the running digest to the image's, which a restore compares with the header: equal, the image is ready, unequal, DIG_BAD is set with a MEMORY event and the restore moves on to the next source; a complete restore of an image of another number of logical cores ends FAILED with FIT, and of the right one ends DONE, that of a whole job with the rollback point, REC_FAULT_STEP and the local copy at its step and no retained input; requests that are not yet due are left, and those that are due are sent again or make the restore do without their stripe. -/
def Obligations.RestoreCommands : Prop :=
  ∀ (s : State) (x : Restore) (i t n : Nat), running s.dev.c = true →
    let c := s.dev.c
    let u := getF c R.RST_STEP.STEP
    let heeded := mainReady c 8 = true ∧ c.job.isSome = true ∧ (c.step.opened = false ∨ getF c R.REC_STATE.STATE = 3)
    let quiet : Ctl := setB R.CHK_DIG_STATUS.SWEEP false { c with step := { c.step with failed := false } }
    let begun (seat : Nat) : Restore :=
      { step := u, seat := seat, go := true, phase := .mirror, next := 0, total := 0, out := [], got := [], recs := [], record := [], stripes := [], good := [], lost := [] }
    let cores := leNat (readBytes s.dev.m (stateArea c 0 + 0x40) 2)
    let swept : Ctl := setB R.CHK_DIG_STATUS.SWEEP false (setLiveDig (sweepDigest s.dev) c)
    let right : Bool := headerTrimmed swept s.dev.m || headerDigest swept s.dev.m 0 == sweepDigest s.dev
    (heeded → mySeat c = some n → exec .rstCtrlGo s = .next (s.withDev
      (trySource 0 { s.dev with c := setF R.RST_STATUS.STATE 1 { quiet with snap := { quiet.snap with restore := some (begun n), noSource := false } } }))) ∧
    (heeded → mySeat c = none → exec .rstCtrlGo s = .next (s.withCtl (restoreEnd (goSteps u quiet)))) ∧
    (mainReady c 8 = true → c.step.opened = true → getF c R.REC_STATE.STATE ≠ 3 → exec .rstCtrlGo s = .next s) ∧
    (getB c R.CHK_DIG_STATUS.SWEEP = true → c.slu.held = [] →
      (c.snap.restore = none → exec .digestSweepDone s = .next (s.withCtl swept)) ∧
      (c.snap.restore = some x → x.phase = .sweep → right = true →
        exec .digestSweepDone s = .next (s.withCtl { swept with snap := { swept.snap with restore := some { x with phase := .ready } } })) ∧
      (c.snap.restore = some x → x.phase = .sweep → right = false → exec .digestSweepDone s = .next (s.withDev
        (trySource (getF swept R.RST_STATUS.SOURCE) { s.dev with c := raise evMemory 0x0A srcDevice 0 (setB R.RST_STATUS.DIG_BAD true swept) })))) ∧
    (c.snap.restore = some x → x.phase = .ready → cores ≠ lcores c.fuses.grade →
      ∃ v, exec .restoreComplete s = .next v ∧ v.dev.m = s.dev.m ∧ v.pending = s.pending ∧ v.dev.c.snap.restore = none ∧
        getF v.dev.c R.RST_STATUS.STATE = 3 ∧ getB v.dev.c R.RST_STATUS.FIT = true) ∧
    (c.snap.restore = some x → x.phase = .ready → cores = lcores c.fuses.grade →
      ∃ v, exec .restoreComplete s = .next v ∧ v.dev.m = s.dev.m ∧ v.pending = s.pending ∧ v.dev.c.snap.restore = none ∧
        getF v.dev.c R.RST_STATUS.STATE = 2 ∧
        (x.go = true → x.step < 2 ^ 64 → getF v.dev.c R.STEP_ROLLBACK.STEP = x.step ∧ getF v.dev.c R.REC_FAULT_STEP.STEP = x.step ∧
          getF v.dev.c R.SLU_SNAP_STEP.STEP = x.step ∧ getB v.dev.c R.SLU_STATUS.SNAP_VALID = true ∧ v.dev.c.ret.kept = [])) ∧
    (c.snap.restore = some x → x.out.look i = some t → c.ticks < t → exec (.restoreRequestTimeout i) s = .next s) ∧
    (c.snap.restore = some x → x.out.look i = some t → t ≤ c.ticks →
      (x.phase = .stripes → exec (.restoreRequestTimeout i) s = .next (s.withDev (stripesCheck (onCtl (stripeLost i) s.dev)))) ∧
      (x.phase = .record → exec (.restoreRequestTimeout i) s = .next (s.withDev (trySource 3 s.dev))) ∧
      (x.phase = .mirror → holderDevice c = some n → exec (.restoreRequestTimeout i) s = .next (s.withCtl (requestExtent n i x c))))

/-! ### Snapshots, mirrors, the tailrace -/

/-- The snapshot job and the mirror drain (R210, R211, R354 to R358): a line copy passes a line copied already and copies the next; the job ends when every line is copied and every slot read out, and is valid unless a granule of it was uncorrectable; the capture's slots are read out into the capture buffer; an extent that is in the millpond is sent while fewer than 64 are outstanding, and again past its deadline. -/
def Obligations.SnapshotSteps : Prop :=
  ∀ (s : State) (x : Drain) (e t : Nat), running s.dev.c = true →
    let c := s.dev.c
    let w := getF c R.SLU_SNAP.W
    (getB c R.SLU_STATUS.SNAP_ACTIVE = true → w < getF c R.SLU_SNAP.LINES → exec .snapshotLineCopy s = .next (s.withDev
      (onCtl (fun c => setF R.SLU_SNAP.W (w + 1) (onSlu (fun x => { x with copied := x.copied.filter (fun i => decide (w < i)) }) c))
        (if c.slu.copied.contains w then s.dev else copyLine w s.dev)))) ∧
    (getB c R.SLU_STATUS.SNAP_ACTIVE = false → exec .snapshotLineCopy s = .next s ∧ exec .snapshotComplete s = .next s) ∧
    (snapLinesDone c = true → c.snap.dumps = [] →
      let d := copyState s.dev
      let u := getF d.c R.SLU_SNAP_STEP.STEP
      let ended (bad : Bool) : Dev := onCtl (fun c => onSnap (fun x => { x with done := if bad then x.done else some u, whole := some u })
        (setB R.SLU_STATUS.SNAP_VALID (!bad) (setB R.SLU_STATUS.SNAP_ACTIVE false c))) d
      exec .snapshotComplete s = .next (s.withDev (if d.c.slu.snapBad then ended true else tailStart u (ended false)))) ∧
    (exec .captureReadoutDone s = .next (s.withDev (onCtl (fun c => setB R.IMG_STATUS.CAPTURING false (onSnap (fun x => { x with dumps := [] }) c))
      (c.snap.dumps.foldl (fun d y => writeLong (captureAddr d.c (0x508000 + y.1 * 0x21000)) (dumpBytes d.c y.2) d) s.dev)))) ∧
    (c.snap.drain = some x → x.next < x.total → x.out.length < 64 → extentHere c x.step x.next = true →
      exec .mirrorExtentSend s = .next (s.withDev (drainExtent x x.next (onCtl (onDrain (fun y => { y with next := x.next + 1 })) s.dev)))) ∧
    (c.snap.drain = some x → 64 ≤ x.out.length → exec .mirrorExtentSend s = .next s) ∧
    (c.snap.drain = some x → x.out.look e = some t → t ≤ c.ticks → exec (.mirrorExtentResend e) s = .next (s.withDev (drainExtent x e s.dev))) ∧
    (c.snap.drain = some x → x.out.look e = some t → c.ticks < t → exec (.mirrorExtentResend e) s = .next s)

/-- Frames of the mirror drain (R358 to R360): the holder stores IMG_DATA of the seat it mirrors, answers IMG_END by the digest of what it holds, and answers a request for an image that it does not hold with IMG_DONE and status BAD; the sender notes an extent's acknowledgement, and IMG_DONE ends its drain. That frames about an image of a seat that this device does not mirror are ignored is the model's reading (log entry 126). -/
def Obligations.MirrorFrames : Prop :=
  ∀ (s : State) (rx : Rx) (c : Ctl) (x : Drain) (i : Nat),
    let d : Dev := { s.dev with c := c }
    let ok := copyDigest c s.dev.m (i + 1) == (payloadD rx 0, payloadD rx 1)
    (Delivered s 3 0x01 rx c → c.snap.restore = none → rx.tag = getF c R.PLACE_SELF.MIRRORS → getB c R.PLACE_SELF.SERVING = true →
      exec (.imgData rx) s = .next (s.withDev (holderData (rx.typed 3 1) d))) ∧
    (Delivered s 3 0x01 rx c → c.snap.restore = none → rx.tag ≠ getF c R.PLACE_SELF.MIRRORS → exec (.imgData rx) s = .next (s.withCtl c)) ∧
    (Delivered s 3 0x02 rx c → c.snap.drain = some x → rx.peer = x.dst → rx.tag = x.seat → rx.arg = x.step % 2 ^ 32 → x.next < x.total →
      exec (.imgAck rx) s = .next (s.withCtl (onDrain (fun y => { y with out := x.out.del (rx.addr / extentBytes), ended := y.ended }) c))) ∧
    (Delivered s 3 0x03 rx c → mirFind c rx.tag rx.arg = some i →
      exec (.imgEnd rx) s = .next (s.withCtl (sendAdmitted { drainFrame 0x04 rx.peer rx.tag rx.arg [] with status := if ok then 0 else 1 }
        (if ok then setF (mirF R.MIR_IMG0.STATE i) 2 c
         else raise evMemory 0x09 srcDevice (regionBase c (i + 1)) (setB R.CHK_DIG_STATUS.MIRROR_BAD true (setF (mirF R.MIR_IMG0.STATE i) 1 c)))))) ∧
    (Delivered s 3 0x03 rx c → mirFind c rx.tag rx.arg = none → exec (.imgEnd rx) s = .next (s.withCtl c)) ∧
    (Delivered s 3 0x04 rx c → c.snap.restore = none → c.snap.drain = some x → rx.tag = x.seat →
      exec (.imgDone rx) s = .next (s.withCtl (drainDone x (rx.typed 3 4) c))) ∧
    (Delivered s 3 0x05 rx c → mirFind c rx.tag rx.arg = some i → getF c (mirF R.MIR_IMG0.STATE i) = mirValid → rx.addr < imageLen c →
      exec (.imgReq rx) s = .next (s.withDev (sendExtent (i + 1) (rx.addr / extentBytes) rx.peer rx.tag rx.arg d))) ∧
    (Delivered s 3 0x05 rx c → mirFind c rx.tag rx.arg = none →
      exec (.imgReq rx) s = .next (s.withCtl (sendAdmitted { drainFrame 0x04 rx.peer rx.tag rx.arg [] with status := 1 } c)))

/-- The tailrace (R362 to R366, R370): the next stripe of a generation is sent, one past its deadline again; an acknowledgement ends a stripe's wait or has it sent again, while the targets are those it began with; the commit record goes to the targets once every stripe is acknowledged and the rollback point has come; its last acknowledgement commits the generation; stripes, records and requests of peers are stored and answered by their slots. That what is not held is not answered is the model's reading (log entry 127), and that a generation which loses a target takes no acknowledgement any more (log entry 124). -/
def Obligations.TailraceCommands : Prop :=
  ∀ (s : State) (rx : Rx) (c : Ctl) (x : TailSrc) (y : TailSlot) (i j crc : Nat),
    let d : Dev := { s.dev with c := c }
    let n := rx.word5 % 2 ^ 16
    (running s.dev.c = true → s.dev.c.snap.tails.find? (fun x => decide (x.next < x.total)) = some x →
      stripeLen (genLen s.dev.c (tailTrim s.dev.c)) (tailK s.dev.c) x.next ≠ 0 → exec .stripeSend s = .next (s.withDev
        (tailSend x x.next (onCtl (onTail x.step (fun y => { y with next := x.next + 1 })) s.dev)))) ∧
    (running s.dev.c = true → s.dev.c.snap.tails = [x] → (∃ t, x.out.look i = some t ∧ t ≤ s.dev.c.ticks) →
      exec (.stripeResend i) s = .next (s.withDev (tailSend x i s.dev))) ∧
    (running s.dev.c = true → s.dev.c.snap.tails = [] → exec .tailCommitRecord s = .next s ∧ exec .stripeSend s = .next s) ∧
    (running s.dev.c = true →
      s.dev.c.snap.tails.find? (fun x => tailPhase x == tailWaiting && decide (x.step ≤ getF s.dev.c R.STEP_ROLLBACK.STEP)) = some x →
      let tp := tailTargets s.dev.c x.seat
      let bs := commitRecord s.dev.c x
      let sent := tp.foldl (fun c t => match targetDevice c t with
        | some dst => if holdsStripe c x t then sendRecord dst x.seat x.step false bs c else sendRecord dst x.seat x.step true (bs.take recFixed) c
        | none => c) s.dev.c
      exec .tailCommitRecord s = .next (s.withCtl (onTail x.step (fun y => { y with waiting := some (List.range tp.length) }) sent))) ∧
    (Delivered s 3 0x13 rx c → tailFind c rx.arg = some x → x.out.has n = true → x.seat = rx.tag → stripeDevice c x.seat n = some rx.peer →
      targetDevices c x.seat = x.devs →
      exec (.stripeAck rx) s = .next (s.withDev
        (if rx.status = 0 then onCtl (onTail x.step (fun y => { y with out := y.out.del n })) d else tailSend x n d))) ∧
    (Delivered s 3 0x16 rx c → tailFind c rx.arg = some x → x.waiting = some [targetPlace c x.seat rx.peer] → rx.status = 0 → rx.tag = x.seat →
      exec (.recAck rx) s = .next (s.withCtl (setF R.TAIL_LAST.STEP x.step (onTails (fun ts => ts.filter (fun y => y.step != x.step)) c)))) ∧
    (c.snap.restore = none →
      (Delivered s 3 0x11 rx c → exec (.stripeData rx) s = .next (s.withDev (targetData (rx.typed 3 0x11) d))) ∧
      (Delivered s 3 0x12 rx c → exec (.stripeEnd rx) s = .next (s.withDev (targetEnd (rx.typed 3 0x12) d))) ∧
      (Delivered s 3 0x15 rx c → some rx.tag ≠ mySeat c → exec (.recData rx) s = .next (s.withDev (targetRecord (rx.typed 3 0x15) d)))) ∧
    (Delivered s 3 0x14 rx c → slotFind c rx.tag rx.arg = some j → slotOf c rx.tag j = some y → y.crcs.look n = some crc →
      exec (.stripeReq rx) s = .next (s.withDev
        (let r := readLong (stripeAddr c rx.tag j n) (stripeLen (genLen c (tailTrim c)) (tailK c) n) d
         onCtl (sendStripe rx.peer rx.tag rx.arg n r.1 crc) r.2))) ∧
    (Delivered s 3 0x17 rx c → slotFind c rx.tag rx.arg = some j → slotOf c rx.tag j = some y → y.record.isSome = true →
      exec (.recReq rx) s = .next (s.withDev
        (let r := readLong (recordAddr c rx.tag j) y.recLen d
         onCtl (sendRecord rx.peer rx.tag rx.arg (!y.whole) r.1) r.2))) ∧
    (Delivered s 3 0x14 rx c → slotFind c rx.tag rx.arg = none → exec (.stripeReq rx) s = .next (s.withCtl c)) ∧
    (Delivered s 3 0x17 rx c → slotFind c rx.tag rx.arg = none → exec (.recReq rx) s = .next (s.withCtl c))

/-! ### The sluice and the memory channels -/

/-- Channel moves, re-keys, scrubs and hotspots (R199, R209, R213 to R216): a move starts to the lowest free spare of the stack, else to the lowest free fallback slot, waits for the one that runs, or sets NO_FALLBACK; a granule of a move is copied and its watermark moves by one, and one that WRITE_STOP keeps from its stack and that finds no room in the spill waits (R401; log entry 164); a job whose copy loop has ended is complete; a re-key is pending, or held while one runs; a clean scrub changes nothing, a corrected run of 32 bytes is counted, an uncorrectable one reported; a run of hot beats raises HOTSPOT and starts again. That REKEY_PENDING stays 0 while a request is held, and that HOTSPOT names the channel by the map after the boundary, are the model's choices (log entries 147, 148). -/
def Obligations.SluiceCommands : Prop :=
  ∀ (s : State) (l n f a : Nat) (spares : List Nat) (find : ScrubFinding), running s.dev.c = true →
    let c := s.dev.c
    let w := getF c R.SLU_CHMOVE.W
    let m := getF c R.SLU_CHMOVE.LOGICAL
    let u := getF c R.SLU_REKEY.W
    let onS (g : Sluice → Sluice) : State := s.withCtl { c with slu := g c.slu }
    let at32 := scrubKey c a / 32 * 32
    let unit := errSource c a (scrubKey c a)
    (mainReady c 8 = true → l < channels c.fuses.grade →
      (c.slu.chLive = true → c.slu.chWait.contains l = false → exec (.channelMoveStart l) s = .next (onS (fun x => { x with chWait := x.chWait ++ [l] }))) ∧
      (c.slu.chLive = false → spareChannels c (homeStack l) = n :: spares → exec (.channelMoveStart l) s = .next (s.withCtl (chBegin l (.phys n) c))) ∧
      (c.slu.chLive = false → spareChannels c (homeStack l) = [] → chHome c l = .phys n →
        (freeSlot c = some f → exec (.channelMoveStart l) s = .next (s.withCtl (chBegin l (.slot f) c))) ∧
        (freeSlot c = none → emptySlots c ≠ [] → c.slu.chWait.contains l = false →
          exec (.channelMoveStart l) s = .next (onS (fun x => { x with chWait := x.chWait ++ [l] }))) ∧
        (emptySlots c = [] → ∃ t, exec (.channelMoveStart l) s = .next t ∧ t.dev.m = s.dev.m ∧ getB t.dev.c (hbmF R.HBM_STATUS.NO_FALLBACK (homeStack l)) = true))) ∧
    (c.slu.chLive = true → c.slu.chDone = false → w < moveEndUnit → granuleAddr c m w (saltFor c w) = some a →
      let st := homeStackOf m (moveEnd c true)
      let served := serveGranule m (moveEnd c true) (serveGranule m (moveEnd c false) (chargeBytes 5 512 c))
      let src := granuleKey a w (moveEnd c false)
      (sluiceWaits c [(a, st)] = false → exec (.moveJobUnitCopy .channel) s = .next (s.withDev (onCtl (setF R.SLU_CHMOVE.W (w + 1))
        (sluicePut st a (granuleKey a w (moveEnd c true)) (maskPoison c src (readBytes s.dev.m src 256)) (poisoned c src 256)
          { c := readErrors a src 256 served, m := s.dev.m })))) ∧
      (sluiceWaits c [(a, st)] = true → exec (.moveJobUnitCopy .channel) s = .next (s.withCtl (sluiceFull [(a, st)] c)))) ∧
    (∀ (st k : Nat) (bs : List Byte) (bad : Bool) (d : Dev), spillOf d.c a = none → writeStop d.c st = false →
      sluicePut st a k bs bad d = putGranule k bs bad d) ∧
    (c.slu.chLive = true → c.slu.chDone = false → w < moveEndUnit → granuleAddr c m w (saltFor c w) = none →
      exec (.moveJobUnitCopy .channel) s = .next (s.withCtl (setF R.SLU_CHMOVE.W (w + 1) c))) ∧
    (c.slu.rkLive = true → c.slu.rkDone = false → u < moveEndUnit →
      let old := groupKeys c u
      let data := old.map (fun x => (maskPoison c x.2 (readBytes s.dev.m x.2 256), poisoned c x.2 256))
      let read := setF R.SLU_REKEY.W (u + 1) (old.foldl (fun c x => readErrors x.1 x.2 256 (rekeyCharge x.1 c)) c)
      let dest := groupStacks (setF R.SLU_REKEY.W (u + 1) c) u
      (sluiceWaits c dest = false → exec (.moveJobUnitCopy .rekey) s = .next (s.withDev ((List.zip (groupKeys read u) data).foldl
        (fun d x => sluicePut (hbmStack d.c x.1.1) x.1.1 x.1.2 x.2.1 x.2.2 (onCtl (rekeyCharge x.1.1) d)) { c := read, m := s.dev.m }))) ∧
      (sluiceWaits c dest = true → exec (.moveJobUnitCopy .rekey) s = .next (s.withCtl (sluiceFull dest c)))) ∧
    (c.slu.chLive = true → c.slu.chDone = false → w = moveEndUnit →
      exec .channelMoveComplete s = .next (s.withCtl (setB R.SLU_STATUS.CHMOVE_ACTIVE false { c with slu := { c.slu with chDone := true } }))) ∧
    (c.slu.rkLive = true → c.slu.rkDone = false → u = moveEndUnit →
      exec .rekeyComplete s = .next (s.withCtl (setB R.SLU_STATUS.REKEY_ACTIVE false { c with slu := { c.slu with rkDone := true } }))) ∧
    (mainReady c 8 = true → c.slu.rkLive = false → exec .rekeyReq s = .next (s.withCtl (setB R.SLU_STATUS.REKEY_PENDING true c))) ∧
    (mainReady c 8 = true → c.slu.rkLive = true → exec .rekeyReq s = .next (onS (fun x => { x with rkHeld := true }))) ∧
    (a < hbmEnd c.fuses.grade →
      (scrubFinds c (scrubKey c a) find = .clean → exec (.scrub a find) s = .next s) ∧
      (scrubFinds c (scrubKey c a) find = .corrected →
        exec (.scrub a find) s = .next (s.withCtl (correctedAt unit { c with soft := c.soft.filter (fun k => k / 32 != scrubKey c a / 32) }))) ∧
      (poisoned c at32 32 = true → exec (.scrub a find) s = .next (s.withCtl (uncorrectable unit a c))) ∧
      (scrubFinds c (scrubKey c a) find = .uncorrectable → poisoned c at32 32 = false →
        exec (.scrub a find) s = .next (s.withCtl (uncorrectable unit a (upset ⟨scrubKey c a, false⟩ c))))) ∧
    (getF c R.MEM_HOT_STATUS.RUN ≠ 0 → max 1 (getF c R.MEM_HOT_CFG.BEATS) ≤ getF c R.MEM_HOT_STATUS.RUN → getB c R.SLU_CTRL.AUTO_REKEY = false →
      chHome c (getF c R.MEM_HOT_STATUS.CHANNEL) = .phys n →
      exec .hotspot s = .next (s.withCtl (raise evHotspot 0x01 (srcChannel n) (getF c R.MEM_HOT_STATUS.CHANNEL + getF c R.MEM_HOT_STATUS.RUN * 2 ^ 8)
        (setF R.MEM_HOT_STATUS.RUN 0 c)))) ∧
    (getF c R.MEM_HOT_STATUS.RUN = 0 → exec .hotspot s = .next s)

/-! ### The fantail -/

/-- Core moves, repairs by the host, heat (R387, R390 to R392, R402, R403, R412): a waiting core's move to its spare starts; the next line of the core's stores is copied behind the watermark; a switched move that has drained retires the old core and the unit that was the reason; a channel being retrained becomes a free spare or is retired, and one that the fantail is retiring is retired; an UNDERATE is noted for the next step, RETIRE retires the unit selected, CLEAR empties every accumulator of a device that is expelled or holds no draft; a core cool for 4,000 beats is stepped down; with nothing spilled there is nothing to write back. -/
def Obligations.FantailCommands : Prop :=
  ∀ (s : State) (p q k l n : Nat) (rest : List (Nat × Nat)) (pass : Bool) (m : CoreMove), running s.dev.c = true → mainReady s.dev.c 7 = true →
    let c := s.dev.c
    let c1 : Ctl := { c with fan := { c.fan with waiting := rest } }
    (c.coreMove = none → c.fan.waiting = (p, k) :: rest → (coreSlot c1 p).logical = some l → spareCore c1 p = some q →
      exec .coreMoveStart s = .next (s.withCtl (setB (fanCoreF R.FAN_CORE.MOVING p) true (setB (fanCoreF R.FAN_CORE.MOVING q) true
        { c1 with coreMove := some { key := k, logical := l, src := p, dst := q, line := 0, carried := false, switched := false } })))) ∧
    (c.coreMove = some m → m.switched = false → m.line < moveLines → exec .coreMoveLineCopy s = .next (s.withDev
      { c := { c with coreMove := some { m with line := m.line + 1 } },
        m := writeBytes s.dev.m (lineKey m.dst m.line) (readBytes s.dev.m (lineKey m.src m.line) 128) })) ∧
    (c.coreMove = some m → m.switched = true → exec .coreMoveDrainDone s = .next (s.withCtl
      (setB (fanCoreF R.FAN_CORE.MOVING m.src) false (setB (fanCoreF R.FAN_CORE.MOVING m.dst) false
        (coreRetired m.key m.src (unready (.core m.src) (setSlot m.src (fun x => { x with state := 2 }) { c with coreMove := none }))))))) ∧
    (c.coreMove = none → exec .coreMoveDrainDone s = .next s ∧ exec .coreMoveLineCopy s = .next s) ∧
    (n < 256 → getF c (chF R.HBM_CH_MAP.STATE n) = 4 → c.fan.retiring.contains n = false →
      exec (.retrain n pass) s = .next (s.withCtl (stackCounts (n / 32) (setF (chF R.HBM_CH_MAP.STATE n) (if pass then 1 else 5) c)))) ∧
    (n < 256 → getF c (chF R.HBM_CH_MAP.STATE n) = 4 → c.fan.retiring.contains n = true →
      let left : Ctl := { c with fan := { c.fan with retiring := c.fan.retiring.filter (· != n) } }
      exec (.retrain n pass) s = .next (s.withCtl (retrainChannel n false (markRetired (srcChannel n) left)))) ∧
    (exec .underate s = .next (s.withCtl { c with fan := { c.fan with underate := true } })) ∧
    (exec .fanRetire s = .next (s.withCtl (retireUnit (getF c R.FAN_UNIT_SEL.SOURCE) c))) ∧
    (getF c R.FAN_STATUS.STANDING = 3 ∨ c.job = none → exec .fanClear s = .next (s.withCtl (setF R.FAN_STATUS.ACC 0
      { c with fan := { c.fan with units := c.fan.units.map (fun e => (e.1, { e.2 with acc := 0, heavy := 0, band := none, load := none })) } }))) ∧
    (getF c R.FAN_STATUS.STANDING ≠ 3 → c.job ≠ none → exec .fanClear s = .next s) ∧
    (p < 72 → 4000 ≤ c.fan.cool.getD p 0 → exec (.heatStepDown p) s = .next (s.withCtl
      (stageSteps p ((stepsOf c p).1, (stepsOf c p).2 - 1) { c with fan := { c.fan with cool := c.fan.cool.put p 0 } }))) ∧
    (c.slu.spill = [] → exec .spillWriteback s = .next s)

/-- Measurements, known answers and standing (R212, R225, R382, R387, R395, R396, R402, R409): a channel is calibrated at most once in a beat, counted and its eye shown; an eye within its limits costs nothing, one below its warn limit a WARN, one below its fail limit a FAIL and the channel's retraining; a known-answer pick whose turn it is and for which the time suffices completes and is counted, or still runs when the guard comes; the standing is decided in the device's own beat by the score against T_EFF and T_BASE; a spilled granule of a stack out of WRITE_STOP is written back. That an eye past its fail limit is charged FAIL only is the model's reading (log entry 16), and so is the known-answer pick that still runs at the guard (log entry 66). -/
def Obligations.MeasurementsAndStanding : Prop :=
  ∀ (s : State) (n p : Nat) (eye : Eye) (k : KnownAnswer) (e : SpillEntry), running s.dev.c = true →
    let c := s.dev.c
    let h := min 1023 (getF c R.FAN_STATUS.ACC / 64)
    let decided := setF R.FAN_STATUS.T_EFF (effThreshold c) c
    let own := c.place.me = some n ∧ getF c R.BEAT_NOW.BEAT % 65536 = n ∧ getB c R.BEAT_STATUS.RUNNING = true ∧ c.time.inGuard = false ∧
      c.time.comb.bind (·.lost) = none
    let seen := setF (idxF R.FAN_HBM_EYE.WIDTH 4 n) (min 255 eye.width) (setF (idxF R.FAN_HBM_EYE.HEIGHT 4 n) (min 255 eye.height)
      (incF (chErrF R.HBM_CH_ERR.CAL n) 1 { c with slu := { c.slu with calib := n :: c.slu.calib } }))
    let mayRun := k.core = p ∧ p < 72 ∧ coreReady c p = true ∧ kapFree c p (kapTreadle k.unit) = true ∧ kapDue c p k.unit = true ∧ kapCycles k.unit + 1000 ≤ k.left
    (mainReady c 7 = true →
      (n < 256 → mainReady c (16 + n / 32) = true → c.slu.calib.contains n = false →
        (77 ≤ eye.width → exec (.calibration n eye) s = .next (s.withCtl seen)) ∧
        (52 ≤ eye.width → eye.width < 77 → exec (.calibration n eye) s = .next (s.withCtl (warnOnce 8 (srcChannel n) seen))) ∧
        (eye.width < 52 → exec (.calibration n eye) s = .next (s.withCtl (retrainStart n (chargeUnit kFail (srcChannel n) seen))))) ∧
      (c.slu.calib.contains n = true → exec (.calibration n eye) s = .next s) ∧
      (mayRun → k.late = false → k.mismatch = false → exec (.knownAnswerPick k) s = .next (s.withCtl (kapTurned p k.unit (incF R.FAN_KAP.RUN 1 c)))) ∧
      (mayRun → k.late = false → k.mismatch = true → exec (.knownAnswerPick k) s = .next (s.withCtl
        (kapMismatch p k.unit (kapProving c p k.unit) (kapTurned p k.unit (incF R.FAN_KAP.RUN 1 c))))) ∧
      (mayRun → k.late = true → exec (.knownAnswerPick k) s = .next (s.withCtl
        { c with fan := { c.fan with kapRuns := c.fan.kapRuns ++ [(p, kapTreadle k.unit)] } })) ∧
      (k.left < kapCycles k.unit + 1000 → exec (.knownAnswerPick k) s = .next s) ∧
      (own → getF c R.FAN_STATUS.STANDING ≤ 1 →
        (effThreshold c ≤ h → exec .standingDecision s = .next (s.withCtl (setF R.FAN_STATUS.STANDING 2 decided))) ∧
        (h < effThreshold c → fanCfg c R.FAN_CFG.T_BASE ≤ h → exec .standingDecision s = .next (s.withCtl
          (if fanCfg c R.FAN_CFG.PROBATION = 1 then setF R.FAN_STATUS.STANDING 1 decided else setB R.FAN_STATUS.HELD true decided))) ∧
        (h < effThreshold c → h < fanCfg c R.FAN_CFG.T_BASE → exec .standingDecision s = .next (s.withCtl
          (if h + 64 < fanCfg c R.FAN_CFG.T_BASE ∧ getF c R.FAN_STATUS.STANDING = 1 then setF R.FAN_STATUS.STANDING 0 decided else decided))))) ∧
    (c.slu.spill.find? (fun e => !writeStop c e.stack && !writeStop c (hbmStack c (256 * e.granule))) = some e →
      let a := 256 * e.granule
      let q := e.stack
      let r := hbmRoute c a
      let home := chRoute c r.1 r.2
      let d := (copyGranule e.home (granuleKey a r.2 home) { c := readErrors a e.home 256 (serveGranule r.1 home c), m := s.dev.m }).1
      let n := getF d.c (heatF R.FAN_HEAT.SPILLED q) - 1
      let left := setF (heatF R.FAN_HEAT.SPILLED q) n (onSlu (fun x => { x with spill := x.spill.erase e }) d.c)
      let ended := if n = 0 then setB (heatF R.FAN_HEAT.SPILL q) false (setB (heatF R.FAN_HEAT.WRITEBACK q) false left) else left
      exec .spillWriteback s = .next (s.withDev { c := ended, m := d.m }))

/-- What a finding costs (R384 to R386): the device's accumulator gains 64 for each point, saturating; a unit's score is its accumulator divided by 64, at most 255; and the points of a kind are those of R384. A physical source is coded in 16 bits (R454): the type in bits 15 to 12 and the index in bits 11 to 0, with the types and indexes of the table. -/
def Obligations.FindingsScoresAndSources : Prop :=
  ((List.range 12).map kindPoints = [0, 1, 32, 2, 32, 16, 16, 128, 96, 256, 8, 256] ∧
    (∀ acc points, addPoints acc points ≤ 0xFFFF ∧ (acc + 64 * points ≤ 0xFFFF → addPoints acc points = acc + 64 * points)) ∧
    (∀ u : FUnit, unitScore u ≤ 255) ∧
    (∀ (points band load : Nat) (u : FUnit), (unitFinding points band load u).acc = addPoints u.acc points ∧
      (unitFinding points band load u).retired = u.retired ∧
      (points < 32 → (unitFinding points band load u).heavy = u.heavy) ∧ (32 ≤ points → (unitFinding points band load u).heavy = u.heavy + 1))) ∧
  (srcDevice = 0x0000 ∧ (∀ p, p < 72 → srcCore p = 0x1 * 4096 + p) ∧ (∀ p e, p < 72 → e < 4 → srcEngine p e = 0x2 * 4096 + (4 * p + e)) ∧
    (∀ p, p < 72 → srcVector p = 0x3 * 4096 + p) ∧ (∀ p t, p < 72 → t < 6 → srcTreadle p t = 0x4 * 4096 + (8 * p + t)) ∧
    (∀ k, k < 8 → srcStack k = 0x5 * 4096 + k) ∧ (∀ k c, k < 8 → c < 32 → srcChannel (32 * k + c) = 0x6 * 4096 + (32 * k + c)) ∧
    (∀ k, k < 8 → srcPackage k = 0x7 * 4096 + k) ∧ (∀ k j, k < 8 → j < 4 → srcMpChannel (4 * k + j) = 0x8 * 4096 + (4 * k + j)) ∧
    (∀ p, p < 38 → srcPort p = 0x9 * 4096 + p) ∧ (∀ p l, p < 38 → l < 8 → srcLane p l = 0xA * 4096 + (8 * p + l)) ∧
    (∀ e, e < 7 → srcLpe e = 0xB * 4096 + e) ∧ (∀ i, i < 2 → srcCp i = 0xC * 4096 + i) ∧ (∀ i, i < 104 → srcSensor i = 0xD * 4096 + i) ∧
    srcCommons = 0xE000 ∧ srcGovernor = 0xE001 ∧ srcFantail = 0xE002 ∧ srcSluice = 0xE003 ∧ srcSelvedge = 0xE004 ∧ srcTimebase = 0xE005 ∧
    srcHost = 0xE006 ∧ (∀ u, u < 16 → srcShared (16 + u) = 0xE * 4096 + (16 + u)))

/-! ### Numbers and codes -/

/-- S4 codes have the values of R37, no other S4 value exists, and code 0x8 is NaN; S8 and S8W codes are zeros, subnormals m × 2^−9 and m × 2^−16, normals, infinities and NaNs as R38 assigns them, with canonical NaNs 0x7C and 0x7E, and 224 and 240 the two largest S8 values. -/
def Obligations.ShortFormatCodes : Prop :=
  (List.range 16).map (fun n => fmtDecode .s4 n) =
    [.fin false 0 (-1), .fin false 1 (-1), .fin false 2 (-1), .fin false 3 (-1), .fin false 2 0, .fin false 3 0, .fin false 2 1, .fin false 3 1,
     .nan, .fin true 1 (-1), .fin true 2 (-1), .fin true 3 (-1), .fin true 2 0, .fin true 3 0, .fin true 2 1, .fin true 3 1] ∧
  (∀ n, n < 256 →
    let neg := decide (128 ≤ n)
    let m := n % 128
    (m ≤ 0x07 → fmtDecode .s8 n = .fin neg m (-9)) ∧ (0x08 ≤ m → m ≤ 0x77 → fmtDecode .s8 n = .fin neg (8 + m % 8) ((m / 8 : Nat) - 10)) ∧
    (m = 0x78 → fmtDecode .s8 n = .inf neg) ∧ (0x79 ≤ m → fmtDecode .s8 n = .nan) ∧
    (m ≤ 0x03 → fmtDecode .s8w n = .fin neg m (-16)) ∧ (0x04 ≤ m → m ≤ 0x7B → fmtDecode .s8w n = .fin neg (4 + m % 4) ((m / 4 : Nat) - 17)) ∧
    (m = 0x7C → fmtDecode .s8w n = .inf neg) ∧ (0x7D ≤ m → fmtDecode .s8w n = .nan)) ∧
  fmtDecode .s8 0x76 = .fin false 14 4 ∧ fmtDecode .s8 0x77 = .fin false 15 4 ∧ fmtNaN .s8 = 0x7C ∧ fmtNaN .s8w = 0x7E

/-- Infinities and NaN into each format (R51): S4 has only its NaN 0x8; the others keep the infinity and have their canonical NaN, whatever OUT_SATCONV is, and a scale changes none of them. Products of two enabled operands (R72): NaN where either is NaN (NANIN) and for zero times infinity (ZXI), an infinity of the product's sign where one operand is infinite and the other not zero, the exact product where both are finite. -/
def Obligations.NonFiniteValues : Prop :=
  (∀ (sat neg : Bool) (k : Int),
    numScale k (.inf neg) = .inf neg ∧ numScale k .nan = .nan ∧
    (narrow .s4 sat (.inf neg)).code = 0x8 ∧ (narrow .s4 sat .nan).code = 0x8 ∧
    (∀ f ∈ [Format.s8, .s8w, .h16, .b16, .f32, .acc48],
      fmtDecode f (narrow f sat (.inf neg)).code = .inf neg ∧ (narrow f sat .nan).code = fmtNaN f ∧ fmtDecode f (fmtNaN f) = .nan)) ∧
  (∀ (a w : Machine.Num) (f : Int),
    let x := passColumn [a] [w] none f none
    (a = .nan ∨ w = .nan → numMul a w = .nan ∧ x.flags = tsNanin) ∧
    (∀ s m e t, m ≠ 0 → (a = .fin s 0 e ∧ w = .inf t ∨ a = .inf t ∧ w = .fin s 0 e → numMul a w = .nan ∧ x.flags = tsZxi) ∧
      (a = .fin s m e ∧ w = .inf t ∨ a = .inf s ∧ w = .inf t ∨ a = .inf t ∧ w = .fin s m e → numMul a w = .inf (s != t) ∧ x.flags = 0)) ∧
    (∀ s m e t n g, a = .fin s m e → w = .fin t n g → numMul a w = .fin (s != t) (m * n) (e + g)))
end

