-- ==== Sys2Proof/Laws/Tab.lean ====
section
/-! SUPPORT. Tables: what reading gives after a write or a removal, and that both keep the keys rising. -/

namespace Sys2Proof.Machine

/-- The first key of a table lies above a bound, and its keys rise. -/
def Tab.above {α : Type} (lo : Nat) : Tab α → Prop
  | [] => True
  | (k, _) :: t => lo < k ∧ Tab.above k t

theorem Tab.above_mono {α : Type} {lo lo' : Nat} (h : lo' ≤ lo) : ∀ {t : Tab α}, Tab.above lo t → Tab.above lo' t
  | [], _ => trivial
  | (_, _) :: _, ⟨h1, h2⟩ => ⟨by omega, h2⟩

theorem Tab.rising_cons {α : Type} (k : Nat) (v : α) : ∀ t : Tab α, Tab.rising ((k, v) :: t) = true ↔ Tab.above k t
  | [] => by simp [Tab.rising, Tab.above]
  | (k', v') :: t => by
    have ih := Tab.rising_cons k' v' t
    simp only [Tab.rising, Bool.and_eq_true, decide_eq_true_eq, Tab.above]
    rw [ih]

theorem Tab.rising_iff {α : Type} : ∀ t : Tab α, Tab.rising t = true ↔ (match t with | [] => True | (k, _) :: t => Tab.above k t)
  | [] => by simp [Tab.rising]
  | (k, v) :: t => Tab.rising_cons k v t

/-- Reading the key just written gives the value written. -/
@[simp] theorem Tab.look_put_same {α : Type} (k : Nat) (v : α) : ∀ t : Tab α, Tab.look (Tab.put t k v) k = some v
  | [] => by simp [Tab.put, Tab.look]
  | (k', v') :: t => by
    simp only [Tab.put]
    split
    · simp [Tab.look]
    · split
      · simp [Tab.look]
      · simp [Tab.look, *, Tab.look_put_same k v t]

/-- A write leaves every other key as it was. -/
theorem Tab.look_put_ne {α : Type} {k j : Nat} (v : α) (h : j ≠ k) : ∀ t : Tab α, Tab.look (Tab.put t k v) j = Tab.look t j
  | [] => by simp [Tab.put, Tab.look, Ne.symm h]
  | (k', v') :: t => by
    simp only [Tab.put]
    split
    · simp [Tab.look, Ne.symm h]
    · split
      · rename_i h'; subst h'; simp [Tab.look, Ne.symm h]
      · simp [Tab.look, Tab.look_put_ne v h t]

/-- A removed key has no value. -/
@[simp] theorem Tab.look_del_same {α : Type} (k : Nat) : ∀ t : Tab α, Tab.look (Tab.del t k) k = none
  | [] => by simp [Tab.del, Tab.look]
  | (k', v') :: t => by
    simp only [Tab.del]
    split
    · exact Tab.look_del_same k t
    · simp [Tab.look, *, Tab.look_del_same k t]

/-- A removal leaves every other key as it was. -/
theorem Tab.look_del_ne {α : Type} {k j : Nat} (h : j ≠ k) : ∀ t : Tab α, Tab.look (Tab.del t k) j = Tab.look t j
  | [] => by simp [Tab.del]
  | (k', v') :: t => by
    simp only [Tab.del]
    split
    · rename_i h'; subst h'; simp [Tab.look, Ne.symm h, Tab.look_del_ne h t]
    · simp [Tab.look, Tab.look_del_ne h t]

theorem Tab.above_put {α : Type} {lo k : Nat} (v : α) (hk : lo < k) : ∀ {t : Tab α}, Tab.above lo t → Tab.above lo (Tab.put t k v)
  | [], _ => ⟨hk, trivial⟩
  | (k', v') :: t, ⟨h1, h2⟩ => by
    simp only [Tab.put]
    split
    · exact ⟨hk, by assumption, h2⟩
    · split
      · rename_i h'; subst h'; exact ⟨hk, h2⟩
      · exact ⟨h1, Tab.above_put v (by omega) h2⟩

/-- The keys of a table above a bound lie above it. -/
theorem Tab.lt_of_above {α : Type} {lo : Nat} {x : Nat × α} : ∀ {t : Tab α}, Tab.above lo t → x ∈ t → lo < x.1
  | (k, v) :: t, ⟨h1, h2⟩, h => by
    rcases List.mem_cons.1 h with h | h
    · subst h; exact h1
    · have := Tab.lt_of_above h2 h
      omega

/-- A write keeps the keys rising. -/
theorem Tab.rising_put {α : Type} (k : Nat) (v : α) : ∀ {t : Tab α}, Tab.rising t = true → Tab.rising (Tab.put t k v) = true
  | [], _ => by simp [Tab.put, Tab.rising]
  | (k', v') :: t, h => by
    rw [Tab.rising_cons] at h
    simp only [Tab.put]
    split
    · rw [Tab.rising_cons]; exact ⟨by assumption, h⟩
    · split
      · rename_i h'; subst h'; rw [Tab.rising_cons]; exact h
      · rw [Tab.rising_cons]; exact Tab.above_put v (by omega) h

theorem Tab.above_del {α : Type} {lo : Nat} (k : Nat) : ∀ {t : Tab α}, Tab.above lo t → Tab.above lo (Tab.del t k)
  | [], _ => trivial
  | (k', v') :: t, ⟨h1, h2⟩ => by
    simp only [Tab.del]
    split
    · exact Tab.above_mono (by omega) (Tab.above_del k h2)
    · exact ⟨h1, Tab.above_del k h2⟩

theorem Tab.rising_of_above {α : Type} {lo : Nat} : ∀ {t : Tab α}, Tab.above lo t → Tab.rising t = true
  | [], _ => by simp [Tab.rising]
  | (k, v) :: t, ⟨_, h2⟩ => (Tab.rising_cons k v t).2 h2

/-- A removal keeps the keys rising. -/
theorem Tab.rising_del {α : Type} (k : Nat) : ∀ {t : Tab α}, Tab.rising t = true → Tab.rising (Tab.del t k) = true
  | [], _ => by simp [Tab.del, Tab.rising]
  | (k', v') :: t, h => by
    rw [Tab.rising_cons] at h
    simp only [Tab.del]
    split
    · exact Tab.rising_of_above (Tab.above_del k h)
    · rw [Tab.rising_cons]; exact Tab.above_del k h

theorem Tab.above_filter {α : Type} {lo : Nat} (f : Nat × α → Bool) : ∀ {t : Tab α}, Tab.above lo t → Tab.above lo (List.filter f t)
  | [], _ => trivial
  | (k', v') :: t, ⟨h1, h2⟩ => by
    simp only [List.filter]
    split
    · exact ⟨h1, Tab.above_filter f h2⟩
    · exact Tab.above_mono (by omega) (Tab.above_filter f h2)

/-- Leaving entries out keeps the keys rising. -/
theorem Tab.rising_filter {α : Type} (f : Nat × α → Bool) : ∀ {t : Tab α}, Tab.rising t = true → Tab.rising (List.filter f t) = true
  | [], _ => by simp [Tab.rising]
  | (k', v') :: t, h => by
    rw [Tab.rising_cons] at h
    simp only [List.filter]
    split
    · rw [Tab.rising_cons]; exact Tab.above_filter f h
    · exact Tab.rising_of_above (Tab.above_filter f h)

/-- A table after a write holds the pair written and pairs it held before. -/
theorem Tab.mem_put {α : Type} {k : Nat} {v : α} {x : Nat × α} : ∀ {t : Tab α}, x ∈ Tab.put t k v → x = (k, v) ∨ x ∈ t
  | [], h => by simpa [Tab.put] using h
  | (k', v') :: t, h => by
    simp only [Tab.put] at h
    split at h
    · simpa using h
    · split at h
      · rcases List.mem_cons.1 h with h | h
        · exact .inl h
        · exact .inr (List.mem_cons_of_mem _ h)
      · rcases List.mem_cons.1 h with h | h
        · exact .inr (h ▸ List.mem_cons_self)
        · rcases Tab.mem_put h with h | h
          · exact .inl h
          · exact .inr (List.mem_cons_of_mem _ h)

/-- A table after a removal holds pairs it held before. -/
theorem Tab.mem_del {α : Type} {k : Nat} {x : Nat × α} : ∀ {t : Tab α}, x ∈ Tab.del t k → x ∈ t
  | [], h => by simp [Tab.del] at h
  | (k', v') :: t, h => by
    simp only [Tab.del] at h
    split at h
    · exact List.mem_cons_of_mem _ (Tab.mem_del h)
    · rcases List.mem_cons.1 h with h | h
      · exact h ▸ List.mem_cons_self
      · exact List.mem_cons_of_mem _ (Tab.mem_del h)

/-- Placing an element adds it and nothing else. -/
@[simp] theorem mem_sortInsert {α : Type} (le : α → α → Bool) (a b : α) (l : List α) : b ∈ sortInsert le a l ↔ b = a ∨ b ∈ l := by
  induction l with
  | nil => simp [sortInsert]
  | cons x xs ih =>
    unfold sortInsert
    split
    · simp
    · simp [ih, or_left_comm]

/-- Sorting keeps the elements. -/
@[simp] theorem mem_sortBy {α : Type} (le : α → α → Bool) (b : α) (l : List α) : b ∈ sortBy le l ↔ b ∈ l := by
  unfold sortBy
  induction l with
  | nil => simp
  | cons x xs ih => simp [ih]

end Sys2Proof.Machine
end

