-- ==== Sys2Proof/Laws/State.lean ====
section
/-! SUPPORT. The state: what each named update leaves as it was, field by field, and reading a register or a field after a write. -/

namespace Sys2Proof.Machine

/-! ### Fields of a word -/

/-- A field as a shift and a remainder. -/
theorem fldGet_eq (v : Dword) (f : Fld) : fldGet v f = ((v >>> f.lo).toNat) % 2 ^ f.w := by
  simp [fldGet, BitVec.toNat_ushiftRight, Nat.shiftRight_eq_div_pow]

/-- The bits of a field mask. -/
theorem fldMask_bit (f : Fld) (i : Nat) : (fldMask f).getLsbD i = (decide (i < 64) && decide (f.lo ≤ i) && decide (i < f.lo + f.w)) := by
  unfold fldMask
  rw [BitVec.getLsbD_shiftLeft, BitVec.getLsbD_ofNat, Nat.testBit_two_pow_sub_one]
  by_cases h : i < 64 <;> by_cases h2 : f.lo ≤ i <;> by_cases h3 : i < f.lo + f.w <;> simp [h, h2, h3] <;> omega

/-- The bits of a word with a field replaced. -/
theorem fldPut_bit (v : Dword) (f : Fld) (x i : Nat) (hi : i < 64) :
    (fldPut v f x).getLsbD i = if f.lo ≤ i ∧ i < f.lo + f.w then x.testBit (i - f.lo) else v.getLsbD i := by
  unfold fldPut
  simp only [BitVec.getLsbD_or, BitVec.getLsbD_and, BitVec.getLsbD_not, fldMask_bit, BitVec.getLsbD_shiftLeft, BitVec.getLsbD_ofNat]
  by_cases h1 : f.lo ≤ i <;> by_cases h2 : i < f.lo + f.w <;> simp [hi, h1, h2]
  rw [show decide (i < f.lo) = false by simp; omega, show decide (i - f.lo < 64) = true by simp; omega]
  simp

/-- The bits of a field. -/
theorem fldGet_testBit (v : Dword) (f : Fld) (j : Nat) : (fldGet v f).testBit j = (decide (j < f.w) && v.getLsbD (f.lo + j)) := by
  unfold fldGet
  rw [Nat.testBit_mod_two_pow, Nat.testBit_div_two_pow]
  simp [BitVec.testBit_toNat, Nat.add_comm]

/-- A field just set reads as the value set, cut to its width. -/
theorem fldGet_fldPut_same (v : Dword) (f : Fld) (x : Nat) (hf : f.lo + f.w ≤ 64) : fldGet (fldPut v f x) f = x % 2 ^ f.w := by
  apply Nat.eq_of_testBit_eq
  intro j
  rw [fldGet_testBit, Nat.testBit_mod_two_pow]
  by_cases hj : j < f.w
  · rw [fldPut_bit _ _ _ _ (by omega), if_pos (by omega)]
    simp
  · simp [hj]

/-- Setting a field leaves a field elsewhere in the word as it was. -/
theorem fldGet_fldPut_ne (v : Dword) (f g : Fld) (x : Nat) (hg : g.lo + g.w ≤ 64) (h : f.lo + f.w ≤ g.lo ∨ g.lo + g.w ≤ f.lo) :
    fldGet (fldPut v f x) g = fldGet v g := by
  apply Nat.eq_of_testBit_eq
  intro j
  rw [fldGet_testBit, fldGet_testBit]
  by_cases hj : j < g.w
  · rw [fldPut_bit _ _ _ _ (by omega), if_neg (by omega)]
  · simp [hj]

/-! ### Register words and fields -/

/-- A word just written reads back. -/
@[simp] theorem getReg_setReg_same (off : Nat) (v : Dword) (c : Ctl) : getReg (setReg off v c) off = v := by
  simp [getReg, setReg]

/-- Writing a word leaves every other word as it was. -/
theorem getReg_setReg_ne {off off' : Nat} (v : Dword) (c : Ctl) (h : off' ≠ off) : getReg (setReg off v c) off' = getReg c off' := by
  simp [getReg, setReg, Tab.look_put_ne _ h]

/-- A field just set reads as the value set, cut to its width. -/
theorem getF_setF_same (f : Fld) (x : Nat) (c : Ctl) (hf : f.lo + f.w ≤ 64) : getF (setF f x c) f = x % 2 ^ f.w := by
  simp [getF, setF, fldGet_fldPut_same _ _ _ hf]

/-- Setting a field leaves the fields of every other word as they were. -/
theorem getF_setF_off {f g : Fld} (x : Nat) (c : Ctl) (h : g.off ≠ f.off) : getF (setF f x c) g = getF c g := by
  simp [getF, setF, getReg_setReg_ne _ _ h]

/-- Setting a field leaves the other fields of its word as they were. -/
theorem getF_setF_bits {f g : Fld} (x : Nat) (c : Ctl) (ho : g.off = f.off) (hg : g.lo + g.w ≤ 64) (h : f.lo + f.w ≤ g.lo ∨ g.lo + g.w ≤ f.lo) :
    getF (setF f x c) g = getF c g := by
  simp [getF, setF, ho, fldGet_fldPut_ne _ _ _ _ hg h]

/-! ### What each update leaves as it was -/

@[simp] theorem setReg_fuses (o : Nat) (v : Dword) (c : Ctl) : (setReg o v c).fuses = c.fuses := rfl
@[simp] theorem setReg_pwr (o : Nat) (v : Dword) (c : Ctl) : (setReg o v c).pwr = c.pwr := rfl
@[simp] theorem setReg_cores (o : Nat) (v : Dword) (c : Ctl) : (setReg o v c).cores = c.cores := rfl
@[simp] theorem setReg_coreMove (o : Nat) (v : Dword) (c : Ctl) : (setReg o v c).coreMove = c.coreMove := rfl
@[simp] theorem setReg_step (o : Nat) (v : Dword) (c : Ctl) : (setReg o v c).step = c.step := rfl
@[simp] theorem setReg_slu (o : Nat) (v : Dword) (c : Ctl) : (setReg o v c).slu = c.slu := rfl
@[simp] theorem setReg_host (o : Nat) (v : Dword) (c : Ctl) : (setReg o v c).host = c.host := rfl
@[simp] theorem setReg_chip (o : Nat) (v : Dword) (c : Ctl) : (setReg o v c).chip = c.chip := rfl
@[simp] theorem setReg_treadles (o : Nat) (v : Dword) (c : Ctl) : (setReg o v c).treadles = c.treadles := rfl
@[simp] theorem setReg_delayed (o : Nat) (v : Dword) (c : Ctl) : (setReg o v c).delayed = c.delayed := rfl
@[simp] theorem setReg_consumed (o : Nat) (v : Dword) (c : Ctl) : (setReg o v c).consumed = c.consumed := rfl
@[simp] theorem setReg_progCores (o : Nat) (v : Dword) (c : Ctl) : (setReg o v c).progCores = c.progCores := rfl
@[simp] theorem setReg_probLists (o : Nat) (v : Dword) (c : Ctl) : (setReg o v c).probLists = c.probLists := rfl
@[simp] theorem setReg_copying (o : Nat) (v : Dword) (c : Ctl) : (setReg o v c).copying = c.copying := rfl
@[simp] theorem setReg_trace (o : Nat) (v : Dword) (c : Ctl) : (setReg o v c).trace = c.trace := rfl
@[simp] theorem setReg_reqs (o : Nat) (v : Dword) (c : Ctl) : (setReg o v c).reqs = c.reqs := rfl
@[simp] theorem setReg_nextTag (o : Nat) (v : Dword) (c : Ctl) : (setReg o v c).nextTag = c.nextTag := rfl
@[simp] theorem setReg_heldReads (o : Nat) (v : Dword) (c : Ctl) : (setReg o v c).heldReads = c.heldReads := rfl
@[simp] theorem setReg_flows (o : Nat) (v : Dword) (c : Ctl) : (setReg o v c).flows = c.flows := rfl
@[simp] theorem setReg_txq (o : Nat) (v : Dword) (c : Ctl) : (setReg o v c).txq = c.txq := rfl
@[simp] theorem setReg_waitq (o : Nat) (v : Dword) (c : Ctl) : (setReg o v c).waitq = c.waitq := rfl
@[simp] theorem setReg_ingress (o : Nat) (v : Dword) (c : Ctl) : (setReg o v c).ingress = c.ingress := rfl
@[simp] theorem setReg_turn (o : Nat) (v : Dword) (c : Ctl) : (setReg o v c).turn = c.turn := rfl
@[simp] theorem setReg_ten (o : Nat) (v : Dword) (c : Ctl) : (setReg o v c).ten = c.ten := rfl
@[simp] theorem setReg_lfsr (o : Nat) (v : Dword) (c : Ctl) : (setReg o v c).lfsr = c.lfsr := rfl
@[simp] theorem setReg_tenKey (o : Nat) (v : Dword) (c : Ctl) : (setReg o v c).tenKey = c.tenKey := rfl
@[simp] theorem setReg_jitter (o : Nat) (v : Dword) (c : Ctl) : (setReg o v c).jitter = c.jitter := rfl
@[simp] theorem setReg_job (o : Nat) (v : Dword) (c : Ctl) : (setReg o v c).job = c.job := rfl
@[simp] theorem setReg_peers (o : Nat) (v : Dword) (c : Ctl) : (setReg o v c).peers = c.peers := rfl
@[simp] theorem setReg_time (o : Nat) (v : Dword) (c : Ctl) : (setReg o v c).time = c.time := rfl
@[simp] theorem setReg_place (o : Nat) (v : Dword) (c : Ctl) : (setReg o v c).place = c.place := rfl
@[simp] theorem setReg_ports (o : Nat) (v : Dword) (c : Ctl) : (setReg o v c).ports = c.ports := rfl
@[simp] theorem setReg_ticks (o : Nat) (v : Dword) (c : Ctl) : (setReg o v c).ticks = c.ticks := rfl
@[simp] theorem setReg_poison (o : Nat) (v : Dword) (c : Ctl) : (setReg o v c).poison = c.poison := rfl
@[simp] theorem setReg_bad (o : Nat) (v : Dword) (c : Ctl) : (setReg o v c).bad = c.bad := rfl
@[simp] theorem setReg_soft (o : Nat) (v : Dword) (c : Ctl) : (setReg o v c).soft = c.soft := rfl
@[simp] theorem setReg_acc (o : Nat) (v : Dword) (c : Ctl) : (setReg o v c).acc = c.acc := rfl
@[simp] theorem setReg_accGen (o : Nat) (v : Dword) (c : Ctl) : (setReg o v c).accGen = c.accGen := rfl
@[simp] theorem setReg_gov (o : Nat) (v : Dword) (c : Ctl) : (setReg o v c).gov = c.gov := rfl
@[simp] theorem setReg_coll (o : Nat) (v : Dword) (c : Ctl) : (setReg o v c).coll = c.coll := rfl
@[simp] theorem setReg_snap (o : Nat) (v : Dword) (c : Ctl) : (setReg o v c).snap = c.snap := rfl
@[simp] theorem setReg_ret (o : Nat) (v : Dword) (c : Ctl) : (setReg o v c).ret = c.ret := rfl
@[simp] theorem setReg_fan (o : Nat) (v : Dword) (c : Ctl) : (setReg o v c).fan = c.fan := rfl
@[simp] theorem setReg_flash (o : Nat) (v : Dword) (c : Ctl) : (setReg o v c).flash = c.flash := rfl
@[simp] theorem setReg_fw (o : Nat) (v : Dword) (c : Ctl) : (setReg o v c).fw = c.fw := rfl
@[simp] theorem setReg_att (o : Nat) (v : Dword) (c : Ctl) : (setReg o v c).att = c.att := rfl
@[simp] theorem setReg_draft (o : Nat) (v : Dword) (c : Ctl) : (setReg o v c).draft = c.draft := rfl
@[simp] theorem setReg_fresh (o : Nat) (v : Dword) (c : Ctl) : (setReg o v c).fresh = c.fresh := rfl

@[simp] theorem resetReg_fuses (o : Nat) (c : Ctl) : (resetReg o c).fuses = c.fuses := rfl
@[simp] theorem resetReg_pwr (o : Nat) (c : Ctl) : (resetReg o c).pwr = c.pwr := rfl
@[simp] theorem resetReg_cores (o : Nat) (c : Ctl) : (resetReg o c).cores = c.cores := rfl
@[simp] theorem resetReg_coreMove (o : Nat) (c : Ctl) : (resetReg o c).coreMove = c.coreMove := rfl
@[simp] theorem resetReg_step (o : Nat) (c : Ctl) : (resetReg o c).step = c.step := rfl
@[simp] theorem resetReg_slu (o : Nat) (c : Ctl) : (resetReg o c).slu = c.slu := rfl
@[simp] theorem resetReg_host (o : Nat) (c : Ctl) : (resetReg o c).host = c.host := rfl
@[simp] theorem resetReg_chip (o : Nat) (c : Ctl) : (resetReg o c).chip = c.chip := rfl
@[simp] theorem resetReg_treadles (o : Nat) (c : Ctl) : (resetReg o c).treadles = c.treadles := rfl
@[simp] theorem resetReg_delayed (o : Nat) (c : Ctl) : (resetReg o c).delayed = c.delayed := rfl
@[simp] theorem resetReg_consumed (o : Nat) (c : Ctl) : (resetReg o c).consumed = c.consumed := rfl
@[simp] theorem resetReg_progCores (o : Nat) (c : Ctl) : (resetReg o c).progCores = c.progCores := rfl
@[simp] theorem resetReg_probLists (o : Nat) (c : Ctl) : (resetReg o c).probLists = c.probLists := rfl
@[simp] theorem resetReg_copying (o : Nat) (c : Ctl) : (resetReg o c).copying = c.copying := rfl
@[simp] theorem resetReg_trace (o : Nat) (c : Ctl) : (resetReg o c).trace = c.trace := rfl
@[simp] theorem resetReg_reqs (o : Nat) (c : Ctl) : (resetReg o c).reqs = c.reqs := rfl
@[simp] theorem resetReg_nextTag (o : Nat) (c : Ctl) : (resetReg o c).nextTag = c.nextTag := rfl
@[simp] theorem resetReg_heldReads (o : Nat) (c : Ctl) : (resetReg o c).heldReads = c.heldReads := rfl
@[simp] theorem resetReg_flows (o : Nat) (c : Ctl) : (resetReg o c).flows = c.flows := rfl
@[simp] theorem resetReg_txq (o : Nat) (c : Ctl) : (resetReg o c).txq = c.txq := rfl
@[simp] theorem resetReg_waitq (o : Nat) (c : Ctl) : (resetReg o c).waitq = c.waitq := rfl
@[simp] theorem resetReg_ingress (o : Nat) (c : Ctl) : (resetReg o c).ingress = c.ingress := rfl
@[simp] theorem resetReg_turn (o : Nat) (c : Ctl) : (resetReg o c).turn = c.turn := rfl
@[simp] theorem resetReg_ten (o : Nat) (c : Ctl) : (resetReg o c).ten = c.ten := rfl
@[simp] theorem resetReg_lfsr (o : Nat) (c : Ctl) : (resetReg o c).lfsr = c.lfsr := rfl
@[simp] theorem resetReg_tenKey (o : Nat) (c : Ctl) : (resetReg o c).tenKey = c.tenKey := rfl
@[simp] theorem resetReg_jitter (o : Nat) (c : Ctl) : (resetReg o c).jitter = c.jitter := rfl
@[simp] theorem resetReg_job (o : Nat) (c : Ctl) : (resetReg o c).job = c.job := rfl
@[simp] theorem resetReg_peers (o : Nat) (c : Ctl) : (resetReg o c).peers = c.peers := rfl
@[simp] theorem resetReg_time (o : Nat) (c : Ctl) : (resetReg o c).time = c.time := rfl
@[simp] theorem resetReg_place (o : Nat) (c : Ctl) : (resetReg o c).place = c.place := rfl
@[simp] theorem resetReg_ports (o : Nat) (c : Ctl) : (resetReg o c).ports = c.ports := rfl
@[simp] theorem resetReg_ticks (o : Nat) (c : Ctl) : (resetReg o c).ticks = c.ticks := rfl
@[simp] theorem resetReg_poison (o : Nat) (c : Ctl) : (resetReg o c).poison = c.poison := rfl
@[simp] theorem resetReg_bad (o : Nat) (c : Ctl) : (resetReg o c).bad = c.bad := rfl
@[simp] theorem resetReg_soft (o : Nat) (c : Ctl) : (resetReg o c).soft = c.soft := rfl
@[simp] theorem resetReg_acc (o : Nat) (c : Ctl) : (resetReg o c).acc = c.acc := rfl
@[simp] theorem resetReg_accGen (o : Nat) (c : Ctl) : (resetReg o c).accGen = c.accGen := rfl
@[simp] theorem resetReg_gov (o : Nat) (c : Ctl) : (resetReg o c).gov = c.gov := rfl
@[simp] theorem resetReg_coll (o : Nat) (c : Ctl) : (resetReg o c).coll = c.coll := rfl
@[simp] theorem resetReg_snap (o : Nat) (c : Ctl) : (resetReg o c).snap = c.snap := rfl
@[simp] theorem resetReg_ret (o : Nat) (c : Ctl) : (resetReg o c).ret = c.ret := rfl
@[simp] theorem resetReg_fan (o : Nat) (c : Ctl) : (resetReg o c).fan = c.fan := rfl
@[simp] theorem resetReg_flash (o : Nat) (c : Ctl) : (resetReg o c).flash = c.flash := rfl
@[simp] theorem resetReg_fw (o : Nat) (c : Ctl) : (resetReg o c).fw = c.fw := rfl
@[simp] theorem resetReg_att (o : Nat) (c : Ctl) : (resetReg o c).att = c.att := rfl
@[simp] theorem resetReg_draft (o : Nat) (c : Ctl) : (resetReg o c).draft = c.draft := rfl
@[simp] theorem resetReg_fresh (o : Nat) (c : Ctl) : (resetReg o c).fresh = c.fresh := rfl

@[simp] theorem setF_fuses (g : Fld) (x : Nat) (c : Ctl) : (setF g x c).fuses = c.fuses := rfl
@[simp] theorem setF_pwr (g : Fld) (x : Nat) (c : Ctl) : (setF g x c).pwr = c.pwr := rfl
@[simp] theorem setF_cores (g : Fld) (x : Nat) (c : Ctl) : (setF g x c).cores = c.cores := rfl
@[simp] theorem setF_coreMove (g : Fld) (x : Nat) (c : Ctl) : (setF g x c).coreMove = c.coreMove := rfl
@[simp] theorem setF_step (g : Fld) (x : Nat) (c : Ctl) : (setF g x c).step = c.step := rfl
@[simp] theorem setF_slu (g : Fld) (x : Nat) (c : Ctl) : (setF g x c).slu = c.slu := rfl
@[simp] theorem setF_host (g : Fld) (x : Nat) (c : Ctl) : (setF g x c).host = c.host := rfl
@[simp] theorem setF_chip (g : Fld) (x : Nat) (c : Ctl) : (setF g x c).chip = c.chip := rfl
@[simp] theorem setF_treadles (g : Fld) (x : Nat) (c : Ctl) : (setF g x c).treadles = c.treadles := rfl
@[simp] theorem setF_delayed (g : Fld) (x : Nat) (c : Ctl) : (setF g x c).delayed = c.delayed := rfl
@[simp] theorem setF_consumed (g : Fld) (x : Nat) (c : Ctl) : (setF g x c).consumed = c.consumed := rfl
@[simp] theorem setF_progCores (g : Fld) (x : Nat) (c : Ctl) : (setF g x c).progCores = c.progCores := rfl
@[simp] theorem setF_probLists (g : Fld) (x : Nat) (c : Ctl) : (setF g x c).probLists = c.probLists := rfl
@[simp] theorem setF_copying (g : Fld) (x : Nat) (c : Ctl) : (setF g x c).copying = c.copying := rfl
@[simp] theorem setF_trace (g : Fld) (x : Nat) (c : Ctl) : (setF g x c).trace = c.trace := rfl
@[simp] theorem setF_reqs (g : Fld) (x : Nat) (c : Ctl) : (setF g x c).reqs = c.reqs := rfl
@[simp] theorem setF_nextTag (g : Fld) (x : Nat) (c : Ctl) : (setF g x c).nextTag = c.nextTag := rfl
@[simp] theorem setF_heldReads (g : Fld) (x : Nat) (c : Ctl) : (setF g x c).heldReads = c.heldReads := rfl
@[simp] theorem setF_flows (g : Fld) (x : Nat) (c : Ctl) : (setF g x c).flows = c.flows := rfl
@[simp] theorem setF_txq (g : Fld) (x : Nat) (c : Ctl) : (setF g x c).txq = c.txq := rfl
@[simp] theorem setF_waitq (g : Fld) (x : Nat) (c : Ctl) : (setF g x c).waitq = c.waitq := rfl
@[simp] theorem setF_ingress (g : Fld) (x : Nat) (c : Ctl) : (setF g x c).ingress = c.ingress := rfl
@[simp] theorem setF_turn (g : Fld) (x : Nat) (c : Ctl) : (setF g x c).turn = c.turn := rfl
@[simp] theorem setF_ten (g : Fld) (x : Nat) (c : Ctl) : (setF g x c).ten = c.ten := rfl
@[simp] theorem setF_lfsr (g : Fld) (x : Nat) (c : Ctl) : (setF g x c).lfsr = c.lfsr := rfl
@[simp] theorem setF_tenKey (g : Fld) (x : Nat) (c : Ctl) : (setF g x c).tenKey = c.tenKey := rfl
@[simp] theorem setF_jitter (g : Fld) (x : Nat) (c : Ctl) : (setF g x c).jitter = c.jitter := rfl
@[simp] theorem setF_job (g : Fld) (x : Nat) (c : Ctl) : (setF g x c).job = c.job := rfl
@[simp] theorem setF_peers (g : Fld) (x : Nat) (c : Ctl) : (setF g x c).peers = c.peers := rfl
@[simp] theorem setF_time (g : Fld) (x : Nat) (c : Ctl) : (setF g x c).time = c.time := rfl
@[simp] theorem setF_place (g : Fld) (x : Nat) (c : Ctl) : (setF g x c).place = c.place := rfl
@[simp] theorem setF_ports (g : Fld) (x : Nat) (c : Ctl) : (setF g x c).ports = c.ports := rfl
@[simp] theorem setF_ticks (g : Fld) (x : Nat) (c : Ctl) : (setF g x c).ticks = c.ticks := rfl
@[simp] theorem setF_poison (g : Fld) (x : Nat) (c : Ctl) : (setF g x c).poison = c.poison := rfl
@[simp] theorem setF_bad (g : Fld) (x : Nat) (c : Ctl) : (setF g x c).bad = c.bad := rfl
@[simp] theorem setF_soft (g : Fld) (x : Nat) (c : Ctl) : (setF g x c).soft = c.soft := rfl
@[simp] theorem setF_acc (g : Fld) (x : Nat) (c : Ctl) : (setF g x c).acc = c.acc := rfl
@[simp] theorem setF_accGen (g : Fld) (x : Nat) (c : Ctl) : (setF g x c).accGen = c.accGen := rfl
@[simp] theorem setF_gov (g : Fld) (x : Nat) (c : Ctl) : (setF g x c).gov = c.gov := rfl
@[simp] theorem setF_coll (g : Fld) (x : Nat) (c : Ctl) : (setF g x c).coll = c.coll := rfl
@[simp] theorem setF_snap (g : Fld) (x : Nat) (c : Ctl) : (setF g x c).snap = c.snap := rfl
@[simp] theorem setF_ret (g : Fld) (x : Nat) (c : Ctl) : (setF g x c).ret = c.ret := rfl
@[simp] theorem setF_fan (g : Fld) (x : Nat) (c : Ctl) : (setF g x c).fan = c.fan := rfl
@[simp] theorem setF_flash (g : Fld) (x : Nat) (c : Ctl) : (setF g x c).flash = c.flash := rfl
@[simp] theorem setF_fw (g : Fld) (x : Nat) (c : Ctl) : (setF g x c).fw = c.fw := rfl
@[simp] theorem setF_att (g : Fld) (x : Nat) (c : Ctl) : (setF g x c).att = c.att := rfl
@[simp] theorem setF_draft (g : Fld) (x : Nat) (c : Ctl) : (setF g x c).draft = c.draft := rfl
@[simp] theorem setF_fresh (g : Fld) (x : Nat) (c : Ctl) : (setF g x c).fresh = c.fresh := rfl

@[simp] theorem setB_fuses (g : Fld) (b : Bool) (c : Ctl) : (setB g b c).fuses = c.fuses := rfl
@[simp] theorem setB_pwr (g : Fld) (b : Bool) (c : Ctl) : (setB g b c).pwr = c.pwr := rfl
@[simp] theorem setB_cores (g : Fld) (b : Bool) (c : Ctl) : (setB g b c).cores = c.cores := rfl
@[simp] theorem setB_coreMove (g : Fld) (b : Bool) (c : Ctl) : (setB g b c).coreMove = c.coreMove := rfl
@[simp] theorem setB_step (g : Fld) (b : Bool) (c : Ctl) : (setB g b c).step = c.step := rfl
@[simp] theorem setB_slu (g : Fld) (b : Bool) (c : Ctl) : (setB g b c).slu = c.slu := rfl
@[simp] theorem setB_host (g : Fld) (b : Bool) (c : Ctl) : (setB g b c).host = c.host := rfl
@[simp] theorem setB_chip (g : Fld) (b : Bool) (c : Ctl) : (setB g b c).chip = c.chip := rfl
@[simp] theorem setB_treadles (g : Fld) (b : Bool) (c : Ctl) : (setB g b c).treadles = c.treadles := rfl
@[simp] theorem setB_delayed (g : Fld) (b : Bool) (c : Ctl) : (setB g b c).delayed = c.delayed := rfl
@[simp] theorem setB_consumed (g : Fld) (b : Bool) (c : Ctl) : (setB g b c).consumed = c.consumed := rfl
@[simp] theorem setB_progCores (g : Fld) (b : Bool) (c : Ctl) : (setB g b c).progCores = c.progCores := rfl
@[simp] theorem setB_probLists (g : Fld) (b : Bool) (c : Ctl) : (setB g b c).probLists = c.probLists := rfl
@[simp] theorem setB_copying (g : Fld) (b : Bool) (c : Ctl) : (setB g b c).copying = c.copying := rfl
@[simp] theorem setB_trace (g : Fld) (b : Bool) (c : Ctl) : (setB g b c).trace = c.trace := rfl
@[simp] theorem setB_reqs (g : Fld) (b : Bool) (c : Ctl) : (setB g b c).reqs = c.reqs := rfl
@[simp] theorem setB_nextTag (g : Fld) (b : Bool) (c : Ctl) : (setB g b c).nextTag = c.nextTag := rfl
@[simp] theorem setB_heldReads (g : Fld) (b : Bool) (c : Ctl) : (setB g b c).heldReads = c.heldReads := rfl
@[simp] theorem setB_flows (g : Fld) (b : Bool) (c : Ctl) : (setB g b c).flows = c.flows := rfl
@[simp] theorem setB_txq (g : Fld) (b : Bool) (c : Ctl) : (setB g b c).txq = c.txq := rfl
@[simp] theorem setB_waitq (g : Fld) (b : Bool) (c : Ctl) : (setB g b c).waitq = c.waitq := rfl
@[simp] theorem setB_ingress (g : Fld) (b : Bool) (c : Ctl) : (setB g b c).ingress = c.ingress := rfl
@[simp] theorem setB_turn (g : Fld) (b : Bool) (c : Ctl) : (setB g b c).turn = c.turn := rfl
@[simp] theorem setB_ten (g : Fld) (b : Bool) (c : Ctl) : (setB g b c).ten = c.ten := rfl
@[simp] theorem setB_lfsr (g : Fld) (b : Bool) (c : Ctl) : (setB g b c).lfsr = c.lfsr := rfl
@[simp] theorem setB_tenKey (g : Fld) (b : Bool) (c : Ctl) : (setB g b c).tenKey = c.tenKey := rfl
@[simp] theorem setB_jitter (g : Fld) (b : Bool) (c : Ctl) : (setB g b c).jitter = c.jitter := rfl
@[simp] theorem setB_job (g : Fld) (b : Bool) (c : Ctl) : (setB g b c).job = c.job := rfl
@[simp] theorem setB_peers (g : Fld) (b : Bool) (c : Ctl) : (setB g b c).peers = c.peers := rfl
@[simp] theorem setB_time (g : Fld) (b : Bool) (c : Ctl) : (setB g b c).time = c.time := rfl
@[simp] theorem setB_place (g : Fld) (b : Bool) (c : Ctl) : (setB g b c).place = c.place := rfl
@[simp] theorem setB_ports (g : Fld) (b : Bool) (c : Ctl) : (setB g b c).ports = c.ports := rfl
@[simp] theorem setB_ticks (g : Fld) (b : Bool) (c : Ctl) : (setB g b c).ticks = c.ticks := rfl
@[simp] theorem setB_poison (g : Fld) (b : Bool) (c : Ctl) : (setB g b c).poison = c.poison := rfl
@[simp] theorem setB_bad (g : Fld) (b : Bool) (c : Ctl) : (setB g b c).bad = c.bad := rfl
@[simp] theorem setB_soft (g : Fld) (b : Bool) (c : Ctl) : (setB g b c).soft = c.soft := rfl
@[simp] theorem setB_acc (g : Fld) (b : Bool) (c : Ctl) : (setB g b c).acc = c.acc := rfl
@[simp] theorem setB_accGen (g : Fld) (b : Bool) (c : Ctl) : (setB g b c).accGen = c.accGen := rfl
@[simp] theorem setB_gov (g : Fld) (b : Bool) (c : Ctl) : (setB g b c).gov = c.gov := rfl
@[simp] theorem setB_coll (g : Fld) (b : Bool) (c : Ctl) : (setB g b c).coll = c.coll := rfl
@[simp] theorem setB_snap (g : Fld) (b : Bool) (c : Ctl) : (setB g b c).snap = c.snap := rfl
@[simp] theorem setB_ret (g : Fld) (b : Bool) (c : Ctl) : (setB g b c).ret = c.ret := rfl
@[simp] theorem setB_fan (g : Fld) (b : Bool) (c : Ctl) : (setB g b c).fan = c.fan := rfl
@[simp] theorem setB_flash (g : Fld) (b : Bool) (c : Ctl) : (setB g b c).flash = c.flash := rfl
@[simp] theorem setB_fw (g : Fld) (b : Bool) (c : Ctl) : (setB g b c).fw = c.fw := rfl
@[simp] theorem setB_att (g : Fld) (b : Bool) (c : Ctl) : (setB g b c).att = c.att := rfl
@[simp] theorem setB_draft (g : Fld) (b : Bool) (c : Ctl) : (setB g b c).draft = c.draft := rfl
@[simp] theorem setB_fresh (g : Fld) (b : Bool) (c : Ctl) : (setB g b c).fresh = c.fresh := rfl

@[simp] theorem satF_fuses (g : Fld) (k : Nat) (c : Ctl) : (satF g k c).fuses = c.fuses := rfl
@[simp] theorem satF_pwr (g : Fld) (k : Nat) (c : Ctl) : (satF g k c).pwr = c.pwr := rfl
@[simp] theorem satF_cores (g : Fld) (k : Nat) (c : Ctl) : (satF g k c).cores = c.cores := rfl
@[simp] theorem satF_coreMove (g : Fld) (k : Nat) (c : Ctl) : (satF g k c).coreMove = c.coreMove := rfl
@[simp] theorem satF_step (g : Fld) (k : Nat) (c : Ctl) : (satF g k c).step = c.step := rfl
@[simp] theorem satF_slu (g : Fld) (k : Nat) (c : Ctl) : (satF g k c).slu = c.slu := rfl
@[simp] theorem satF_host (g : Fld) (k : Nat) (c : Ctl) : (satF g k c).host = c.host := rfl
@[simp] theorem satF_chip (g : Fld) (k : Nat) (c : Ctl) : (satF g k c).chip = c.chip := rfl
@[simp] theorem satF_treadles (g : Fld) (k : Nat) (c : Ctl) : (satF g k c).treadles = c.treadles := rfl
@[simp] theorem satF_delayed (g : Fld) (k : Nat) (c : Ctl) : (satF g k c).delayed = c.delayed := rfl
@[simp] theorem satF_consumed (g : Fld) (k : Nat) (c : Ctl) : (satF g k c).consumed = c.consumed := rfl
@[simp] theorem satF_progCores (g : Fld) (k : Nat) (c : Ctl) : (satF g k c).progCores = c.progCores := rfl
@[simp] theorem satF_probLists (g : Fld) (k : Nat) (c : Ctl) : (satF g k c).probLists = c.probLists := rfl
@[simp] theorem satF_copying (g : Fld) (k : Nat) (c : Ctl) : (satF g k c).copying = c.copying := rfl
@[simp] theorem satF_trace (g : Fld) (k : Nat) (c : Ctl) : (satF g k c).trace = c.trace := rfl
@[simp] theorem satF_reqs (g : Fld) (k : Nat) (c : Ctl) : (satF g k c).reqs = c.reqs := rfl
@[simp] theorem satF_nextTag (g : Fld) (k : Nat) (c : Ctl) : (satF g k c).nextTag = c.nextTag := rfl
@[simp] theorem satF_heldReads (g : Fld) (k : Nat) (c : Ctl) : (satF g k c).heldReads = c.heldReads := rfl
@[simp] theorem satF_flows (g : Fld) (k : Nat) (c : Ctl) : (satF g k c).flows = c.flows := rfl
@[simp] theorem satF_txq (g : Fld) (k : Nat) (c : Ctl) : (satF g k c).txq = c.txq := rfl
@[simp] theorem satF_waitq (g : Fld) (k : Nat) (c : Ctl) : (satF g k c).waitq = c.waitq := rfl
@[simp] theorem satF_ingress (g : Fld) (k : Nat) (c : Ctl) : (satF g k c).ingress = c.ingress := rfl
@[simp] theorem satF_turn (g : Fld) (k : Nat) (c : Ctl) : (satF g k c).turn = c.turn := rfl
@[simp] theorem satF_ten (g : Fld) (k : Nat) (c : Ctl) : (satF g k c).ten = c.ten := rfl
@[simp] theorem satF_lfsr (g : Fld) (k : Nat) (c : Ctl) : (satF g k c).lfsr = c.lfsr := rfl
@[simp] theorem satF_tenKey (g : Fld) (k : Nat) (c : Ctl) : (satF g k c).tenKey = c.tenKey := rfl
@[simp] theorem satF_jitter (g : Fld) (k : Nat) (c : Ctl) : (satF g k c).jitter = c.jitter := rfl
@[simp] theorem satF_job (g : Fld) (k : Nat) (c : Ctl) : (satF g k c).job = c.job := rfl
@[simp] theorem satF_peers (g : Fld) (k : Nat) (c : Ctl) : (satF g k c).peers = c.peers := rfl
@[simp] theorem satF_time (g : Fld) (k : Nat) (c : Ctl) : (satF g k c).time = c.time := rfl
@[simp] theorem satF_place (g : Fld) (k : Nat) (c : Ctl) : (satF g k c).place = c.place := rfl
@[simp] theorem satF_ports (g : Fld) (k : Nat) (c : Ctl) : (satF g k c).ports = c.ports := rfl
@[simp] theorem satF_ticks (g : Fld) (k : Nat) (c : Ctl) : (satF g k c).ticks = c.ticks := rfl
@[simp] theorem satF_poison (g : Fld) (k : Nat) (c : Ctl) : (satF g k c).poison = c.poison := rfl
@[simp] theorem satF_bad (g : Fld) (k : Nat) (c : Ctl) : (satF g k c).bad = c.bad := rfl
@[simp] theorem satF_soft (g : Fld) (k : Nat) (c : Ctl) : (satF g k c).soft = c.soft := rfl
@[simp] theorem satF_acc (g : Fld) (k : Nat) (c : Ctl) : (satF g k c).acc = c.acc := rfl
@[simp] theorem satF_accGen (g : Fld) (k : Nat) (c : Ctl) : (satF g k c).accGen = c.accGen := rfl
@[simp] theorem satF_gov (g : Fld) (k : Nat) (c : Ctl) : (satF g k c).gov = c.gov := rfl
@[simp] theorem satF_coll (g : Fld) (k : Nat) (c : Ctl) : (satF g k c).coll = c.coll := rfl
@[simp] theorem satF_snap (g : Fld) (k : Nat) (c : Ctl) : (satF g k c).snap = c.snap := rfl
@[simp] theorem satF_ret (g : Fld) (k : Nat) (c : Ctl) : (satF g k c).ret = c.ret := rfl
@[simp] theorem satF_fan (g : Fld) (k : Nat) (c : Ctl) : (satF g k c).fan = c.fan := rfl
@[simp] theorem satF_flash (g : Fld) (k : Nat) (c : Ctl) : (satF g k c).flash = c.flash := rfl
@[simp] theorem satF_fw (g : Fld) (k : Nat) (c : Ctl) : (satF g k c).fw = c.fw := rfl
@[simp] theorem satF_att (g : Fld) (k : Nat) (c : Ctl) : (satF g k c).att = c.att := rfl
@[simp] theorem satF_draft (g : Fld) (k : Nat) (c : Ctl) : (satF g k c).draft = c.draft := rfl
@[simp] theorem satF_fresh (g : Fld) (k : Nat) (c : Ctl) : (satF g k c).fresh = c.fresh := rfl

@[simp] theorem incF_fuses (g : Fld) (k : Nat) (c : Ctl) : (incF g k c).fuses = c.fuses := rfl
@[simp] theorem incF_pwr (g : Fld) (k : Nat) (c : Ctl) : (incF g k c).pwr = c.pwr := rfl
@[simp] theorem incF_cores (g : Fld) (k : Nat) (c : Ctl) : (incF g k c).cores = c.cores := rfl
@[simp] theorem incF_coreMove (g : Fld) (k : Nat) (c : Ctl) : (incF g k c).coreMove = c.coreMove := rfl
@[simp] theorem incF_step (g : Fld) (k : Nat) (c : Ctl) : (incF g k c).step = c.step := rfl
@[simp] theorem incF_slu (g : Fld) (k : Nat) (c : Ctl) : (incF g k c).slu = c.slu := rfl
@[simp] theorem incF_host (g : Fld) (k : Nat) (c : Ctl) : (incF g k c).host = c.host := rfl
@[simp] theorem incF_chip (g : Fld) (k : Nat) (c : Ctl) : (incF g k c).chip = c.chip := rfl
@[simp] theorem incF_treadles (g : Fld) (k : Nat) (c : Ctl) : (incF g k c).treadles = c.treadles := rfl
@[simp] theorem incF_delayed (g : Fld) (k : Nat) (c : Ctl) : (incF g k c).delayed = c.delayed := rfl
@[simp] theorem incF_consumed (g : Fld) (k : Nat) (c : Ctl) : (incF g k c).consumed = c.consumed := rfl
@[simp] theorem incF_progCores (g : Fld) (k : Nat) (c : Ctl) : (incF g k c).progCores = c.progCores := rfl
@[simp] theorem incF_probLists (g : Fld) (k : Nat) (c : Ctl) : (incF g k c).probLists = c.probLists := rfl
@[simp] theorem incF_copying (g : Fld) (k : Nat) (c : Ctl) : (incF g k c).copying = c.copying := rfl
@[simp] theorem incF_trace (g : Fld) (k : Nat) (c : Ctl) : (incF g k c).trace = c.trace := rfl
@[simp] theorem incF_reqs (g : Fld) (k : Nat) (c : Ctl) : (incF g k c).reqs = c.reqs := rfl
@[simp] theorem incF_nextTag (g : Fld) (k : Nat) (c : Ctl) : (incF g k c).nextTag = c.nextTag := rfl
@[simp] theorem incF_heldReads (g : Fld) (k : Nat) (c : Ctl) : (incF g k c).heldReads = c.heldReads := rfl
@[simp] theorem incF_flows (g : Fld) (k : Nat) (c : Ctl) : (incF g k c).flows = c.flows := rfl
@[simp] theorem incF_txq (g : Fld) (k : Nat) (c : Ctl) : (incF g k c).txq = c.txq := rfl
@[simp] theorem incF_waitq (g : Fld) (k : Nat) (c : Ctl) : (incF g k c).waitq = c.waitq := rfl
@[simp] theorem incF_ingress (g : Fld) (k : Nat) (c : Ctl) : (incF g k c).ingress = c.ingress := rfl
@[simp] theorem incF_turn (g : Fld) (k : Nat) (c : Ctl) : (incF g k c).turn = c.turn := rfl
@[simp] theorem incF_ten (g : Fld) (k : Nat) (c : Ctl) : (incF g k c).ten = c.ten := rfl
@[simp] theorem incF_lfsr (g : Fld) (k : Nat) (c : Ctl) : (incF g k c).lfsr = c.lfsr := rfl
@[simp] theorem incF_tenKey (g : Fld) (k : Nat) (c : Ctl) : (incF g k c).tenKey = c.tenKey := rfl
@[simp] theorem incF_jitter (g : Fld) (k : Nat) (c : Ctl) : (incF g k c).jitter = c.jitter := rfl
@[simp] theorem incF_job (g : Fld) (k : Nat) (c : Ctl) : (incF g k c).job = c.job := rfl
@[simp] theorem incF_peers (g : Fld) (k : Nat) (c : Ctl) : (incF g k c).peers = c.peers := rfl
@[simp] theorem incF_time (g : Fld) (k : Nat) (c : Ctl) : (incF g k c).time = c.time := rfl
@[simp] theorem incF_place (g : Fld) (k : Nat) (c : Ctl) : (incF g k c).place = c.place := rfl
@[simp] theorem incF_ports (g : Fld) (k : Nat) (c : Ctl) : (incF g k c).ports = c.ports := rfl
@[simp] theorem incF_ticks (g : Fld) (k : Nat) (c : Ctl) : (incF g k c).ticks = c.ticks := rfl
@[simp] theorem incF_poison (g : Fld) (k : Nat) (c : Ctl) : (incF g k c).poison = c.poison := rfl
@[simp] theorem incF_bad (g : Fld) (k : Nat) (c : Ctl) : (incF g k c).bad = c.bad := rfl
@[simp] theorem incF_soft (g : Fld) (k : Nat) (c : Ctl) : (incF g k c).soft = c.soft := rfl
@[simp] theorem incF_acc (g : Fld) (k : Nat) (c : Ctl) : (incF g k c).acc = c.acc := rfl
@[simp] theorem incF_accGen (g : Fld) (k : Nat) (c : Ctl) : (incF g k c).accGen = c.accGen := rfl
@[simp] theorem incF_gov (g : Fld) (k : Nat) (c : Ctl) : (incF g k c).gov = c.gov := rfl
@[simp] theorem incF_coll (g : Fld) (k : Nat) (c : Ctl) : (incF g k c).coll = c.coll := rfl
@[simp] theorem incF_snap (g : Fld) (k : Nat) (c : Ctl) : (incF g k c).snap = c.snap := rfl
@[simp] theorem incF_ret (g : Fld) (k : Nat) (c : Ctl) : (incF g k c).ret = c.ret := rfl
@[simp] theorem incF_fan (g : Fld) (k : Nat) (c : Ctl) : (incF g k c).fan = c.fan := rfl
@[simp] theorem incF_flash (g : Fld) (k : Nat) (c : Ctl) : (incF g k c).flash = c.flash := rfl
@[simp] theorem incF_fw (g : Fld) (k : Nat) (c : Ctl) : (incF g k c).fw = c.fw := rfl
@[simp] theorem incF_att (g : Fld) (k : Nat) (c : Ctl) : (incF g k c).att = c.att := rfl
@[simp] theorem incF_draft (g : Fld) (k : Nat) (c : Ctl) : (incF g k c).draft = c.draft := rfl
@[simp] theorem incF_fresh (g : Fld) (k : Nat) (c : Ctl) : (incF g k c).fresh = c.fresh := rfl

@[simp] theorem onStep_regs (u : StepSt → StepSt) (c : Ctl) : (onStep u c).regs = c.regs := rfl
@[simp] theorem onStep_fuses (u : StepSt → StepSt) (c : Ctl) : (onStep u c).fuses = c.fuses := rfl
@[simp] theorem onStep_pwr (u : StepSt → StepSt) (c : Ctl) : (onStep u c).pwr = c.pwr := rfl
@[simp] theorem onStep_cores (u : StepSt → StepSt) (c : Ctl) : (onStep u c).cores = c.cores := rfl
@[simp] theorem onStep_coreMove (u : StepSt → StepSt) (c : Ctl) : (onStep u c).coreMove = c.coreMove := rfl
@[simp] theorem onStep_step (u : StepSt → StepSt) (c : Ctl) : (onStep u c).step = u c.step := rfl
@[simp] theorem onStep_slu (u : StepSt → StepSt) (c : Ctl) : (onStep u c).slu = c.slu := rfl
@[simp] theorem onStep_host (u : StepSt → StepSt) (c : Ctl) : (onStep u c).host = c.host := rfl
@[simp] theorem onStep_chip (u : StepSt → StepSt) (c : Ctl) : (onStep u c).chip = c.chip := rfl
@[simp] theorem onStep_treadles (u : StepSt → StepSt) (c : Ctl) : (onStep u c).treadles = c.treadles := rfl
@[simp] theorem onStep_delayed (u : StepSt → StepSt) (c : Ctl) : (onStep u c).delayed = c.delayed := rfl
@[simp] theorem onStep_consumed (u : StepSt → StepSt) (c : Ctl) : (onStep u c).consumed = c.consumed := rfl
@[simp] theorem onStep_progCores (u : StepSt → StepSt) (c : Ctl) : (onStep u c).progCores = c.progCores := rfl
@[simp] theorem onStep_probLists (u : StepSt → StepSt) (c : Ctl) : (onStep u c).probLists = c.probLists := rfl
@[simp] theorem onStep_copying (u : StepSt → StepSt) (c : Ctl) : (onStep u c).copying = c.copying := rfl
@[simp] theorem onStep_trace (u : StepSt → StepSt) (c : Ctl) : (onStep u c).trace = c.trace := rfl
@[simp] theorem onStep_reqs (u : StepSt → StepSt) (c : Ctl) : (onStep u c).reqs = c.reqs := rfl
@[simp] theorem onStep_nextTag (u : StepSt → StepSt) (c : Ctl) : (onStep u c).nextTag = c.nextTag := rfl
@[simp] theorem onStep_heldReads (u : StepSt → StepSt) (c : Ctl) : (onStep u c).heldReads = c.heldReads := rfl
@[simp] theorem onStep_flows (u : StepSt → StepSt) (c : Ctl) : (onStep u c).flows = c.flows := rfl
@[simp] theorem onStep_txq (u : StepSt → StepSt) (c : Ctl) : (onStep u c).txq = c.txq := rfl
@[simp] theorem onStep_waitq (u : StepSt → StepSt) (c : Ctl) : (onStep u c).waitq = c.waitq := rfl
@[simp] theorem onStep_ingress (u : StepSt → StepSt) (c : Ctl) : (onStep u c).ingress = c.ingress := rfl
@[simp] theorem onStep_turn (u : StepSt → StepSt) (c : Ctl) : (onStep u c).turn = c.turn := rfl
@[simp] theorem onStep_ten (u : StepSt → StepSt) (c : Ctl) : (onStep u c).ten = c.ten := rfl
@[simp] theorem onStep_lfsr (u : StepSt → StepSt) (c : Ctl) : (onStep u c).lfsr = c.lfsr := rfl
@[simp] theorem onStep_tenKey (u : StepSt → StepSt) (c : Ctl) : (onStep u c).tenKey = c.tenKey := rfl
@[simp] theorem onStep_jitter (u : StepSt → StepSt) (c : Ctl) : (onStep u c).jitter = c.jitter := rfl
@[simp] theorem onStep_job (u : StepSt → StepSt) (c : Ctl) : (onStep u c).job = c.job := rfl
@[simp] theorem onStep_peers (u : StepSt → StepSt) (c : Ctl) : (onStep u c).peers = c.peers := rfl
@[simp] theorem onStep_time (u : StepSt → StepSt) (c : Ctl) : (onStep u c).time = c.time := rfl
@[simp] theorem onStep_place (u : StepSt → StepSt) (c : Ctl) : (onStep u c).place = c.place := rfl
@[simp] theorem onStep_ports (u : StepSt → StepSt) (c : Ctl) : (onStep u c).ports = c.ports := rfl
@[simp] theorem onStep_ticks (u : StepSt → StepSt) (c : Ctl) : (onStep u c).ticks = c.ticks := rfl
@[simp] theorem onStep_poison (u : StepSt → StepSt) (c : Ctl) : (onStep u c).poison = c.poison := rfl
@[simp] theorem onStep_bad (u : StepSt → StepSt) (c : Ctl) : (onStep u c).bad = c.bad := rfl
@[simp] theorem onStep_soft (u : StepSt → StepSt) (c : Ctl) : (onStep u c).soft = c.soft := rfl
@[simp] theorem onStep_acc (u : StepSt → StepSt) (c : Ctl) : (onStep u c).acc = c.acc := rfl
@[simp] theorem onStep_accGen (u : StepSt → StepSt) (c : Ctl) : (onStep u c).accGen = c.accGen := rfl
@[simp] theorem onStep_gov (u : StepSt → StepSt) (c : Ctl) : (onStep u c).gov = c.gov := rfl
@[simp] theorem onStep_coll (u : StepSt → StepSt) (c : Ctl) : (onStep u c).coll = c.coll := rfl
@[simp] theorem onStep_snap (u : StepSt → StepSt) (c : Ctl) : (onStep u c).snap = c.snap := rfl
@[simp] theorem onStep_ret (u : StepSt → StepSt) (c : Ctl) : (onStep u c).ret = c.ret := rfl
@[simp] theorem onStep_fan (u : StepSt → StepSt) (c : Ctl) : (onStep u c).fan = c.fan := rfl
@[simp] theorem onStep_flash (u : StepSt → StepSt) (c : Ctl) : (onStep u c).flash = c.flash := rfl
@[simp] theorem onStep_fw (u : StepSt → StepSt) (c : Ctl) : (onStep u c).fw = c.fw := rfl
@[simp] theorem onStep_att (u : StepSt → StepSt) (c : Ctl) : (onStep u c).att = c.att := rfl
@[simp] theorem onStep_draft (u : StepSt → StepSt) (c : Ctl) : (onStep u c).draft = c.draft := rfl
@[simp] theorem onStep_fresh (u : StepSt → StepSt) (c : Ctl) : (onStep u c).fresh = c.fresh := rfl

@[simp] theorem onSlu_regs (u : Sluice → Sluice) (c : Ctl) : (onSlu u c).regs = c.regs := rfl
@[simp] theorem onSlu_fuses (u : Sluice → Sluice) (c : Ctl) : (onSlu u c).fuses = c.fuses := rfl
@[simp] theorem onSlu_pwr (u : Sluice → Sluice) (c : Ctl) : (onSlu u c).pwr = c.pwr := rfl
@[simp] theorem onSlu_cores (u : Sluice → Sluice) (c : Ctl) : (onSlu u c).cores = c.cores := rfl
@[simp] theorem onSlu_coreMove (u : Sluice → Sluice) (c : Ctl) : (onSlu u c).coreMove = c.coreMove := rfl
@[simp] theorem onSlu_step (u : Sluice → Sluice) (c : Ctl) : (onSlu u c).step = c.step := rfl
@[simp] theorem onSlu_slu (u : Sluice → Sluice) (c : Ctl) : (onSlu u c).slu = u c.slu := rfl
@[simp] theorem onSlu_host (u : Sluice → Sluice) (c : Ctl) : (onSlu u c).host = c.host := rfl
@[simp] theorem onSlu_chip (u : Sluice → Sluice) (c : Ctl) : (onSlu u c).chip = c.chip := rfl
@[simp] theorem onSlu_treadles (u : Sluice → Sluice) (c : Ctl) : (onSlu u c).treadles = c.treadles := rfl
@[simp] theorem onSlu_delayed (u : Sluice → Sluice) (c : Ctl) : (onSlu u c).delayed = c.delayed := rfl
@[simp] theorem onSlu_consumed (u : Sluice → Sluice) (c : Ctl) : (onSlu u c).consumed = c.consumed := rfl
@[simp] theorem onSlu_progCores (u : Sluice → Sluice) (c : Ctl) : (onSlu u c).progCores = c.progCores := rfl
@[simp] theorem onSlu_probLists (u : Sluice → Sluice) (c : Ctl) : (onSlu u c).probLists = c.probLists := rfl
@[simp] theorem onSlu_copying (u : Sluice → Sluice) (c : Ctl) : (onSlu u c).copying = c.copying := rfl
@[simp] theorem onSlu_trace (u : Sluice → Sluice) (c : Ctl) : (onSlu u c).trace = c.trace := rfl
@[simp] theorem onSlu_reqs (u : Sluice → Sluice) (c : Ctl) : (onSlu u c).reqs = c.reqs := rfl
@[simp] theorem onSlu_nextTag (u : Sluice → Sluice) (c : Ctl) : (onSlu u c).nextTag = c.nextTag := rfl
@[simp] theorem onSlu_heldReads (u : Sluice → Sluice) (c : Ctl) : (onSlu u c).heldReads = c.heldReads := rfl
@[simp] theorem onSlu_flows (u : Sluice → Sluice) (c : Ctl) : (onSlu u c).flows = c.flows := rfl
@[simp] theorem onSlu_txq (u : Sluice → Sluice) (c : Ctl) : (onSlu u c).txq = c.txq := rfl
@[simp] theorem onSlu_waitq (u : Sluice → Sluice) (c : Ctl) : (onSlu u c).waitq = c.waitq := rfl
@[simp] theorem onSlu_ingress (u : Sluice → Sluice) (c : Ctl) : (onSlu u c).ingress = c.ingress := rfl
@[simp] theorem onSlu_turn (u : Sluice → Sluice) (c : Ctl) : (onSlu u c).turn = c.turn := rfl
@[simp] theorem onSlu_ten (u : Sluice → Sluice) (c : Ctl) : (onSlu u c).ten = c.ten := rfl
@[simp] theorem onSlu_lfsr (u : Sluice → Sluice) (c : Ctl) : (onSlu u c).lfsr = c.lfsr := rfl
@[simp] theorem onSlu_tenKey (u : Sluice → Sluice) (c : Ctl) : (onSlu u c).tenKey = c.tenKey := rfl
@[simp] theorem onSlu_jitter (u : Sluice → Sluice) (c : Ctl) : (onSlu u c).jitter = c.jitter := rfl
@[simp] theorem onSlu_job (u : Sluice → Sluice) (c : Ctl) : (onSlu u c).job = c.job := rfl
@[simp] theorem onSlu_peers (u : Sluice → Sluice) (c : Ctl) : (onSlu u c).peers = c.peers := rfl
@[simp] theorem onSlu_time (u : Sluice → Sluice) (c : Ctl) : (onSlu u c).time = c.time := rfl
@[simp] theorem onSlu_place (u : Sluice → Sluice) (c : Ctl) : (onSlu u c).place = c.place := rfl
@[simp] theorem onSlu_ports (u : Sluice → Sluice) (c : Ctl) : (onSlu u c).ports = c.ports := rfl
@[simp] theorem onSlu_ticks (u : Sluice → Sluice) (c : Ctl) : (onSlu u c).ticks = c.ticks := rfl
@[simp] theorem onSlu_poison (u : Sluice → Sluice) (c : Ctl) : (onSlu u c).poison = c.poison := rfl
@[simp] theorem onSlu_bad (u : Sluice → Sluice) (c : Ctl) : (onSlu u c).bad = c.bad := rfl
@[simp] theorem onSlu_soft (u : Sluice → Sluice) (c : Ctl) : (onSlu u c).soft = c.soft := rfl
@[simp] theorem onSlu_acc (u : Sluice → Sluice) (c : Ctl) : (onSlu u c).acc = c.acc := rfl
@[simp] theorem onSlu_accGen (u : Sluice → Sluice) (c : Ctl) : (onSlu u c).accGen = c.accGen := rfl
@[simp] theorem onSlu_gov (u : Sluice → Sluice) (c : Ctl) : (onSlu u c).gov = c.gov := rfl
@[simp] theorem onSlu_coll (u : Sluice → Sluice) (c : Ctl) : (onSlu u c).coll = c.coll := rfl
@[simp] theorem onSlu_snap (u : Sluice → Sluice) (c : Ctl) : (onSlu u c).snap = c.snap := rfl
@[simp] theorem onSlu_ret (u : Sluice → Sluice) (c : Ctl) : (onSlu u c).ret = c.ret := rfl
@[simp] theorem onSlu_fan (u : Sluice → Sluice) (c : Ctl) : (onSlu u c).fan = c.fan := rfl
@[simp] theorem onSlu_flash (u : Sluice → Sluice) (c : Ctl) : (onSlu u c).flash = c.flash := rfl
@[simp] theorem onSlu_fw (u : Sluice → Sluice) (c : Ctl) : (onSlu u c).fw = c.fw := rfl
@[simp] theorem onSlu_att (u : Sluice → Sluice) (c : Ctl) : (onSlu u c).att = c.att := rfl
@[simp] theorem onSlu_draft (u : Sluice → Sluice) (c : Ctl) : (onSlu u c).draft = c.draft := rfl
@[simp] theorem onSlu_fresh (u : Sluice → Sluice) (c : Ctl) : (onSlu u c).fresh = c.fresh := rfl

@[simp] theorem onHost_regs (u : HostPort → HostPort) (c : Ctl) : (onHost u c).regs = c.regs := rfl
@[simp] theorem onHost_fuses (u : HostPort → HostPort) (c : Ctl) : (onHost u c).fuses = c.fuses := rfl
@[simp] theorem onHost_pwr (u : HostPort → HostPort) (c : Ctl) : (onHost u c).pwr = c.pwr := rfl
@[simp] theorem onHost_cores (u : HostPort → HostPort) (c : Ctl) : (onHost u c).cores = c.cores := rfl
@[simp] theorem onHost_coreMove (u : HostPort → HostPort) (c : Ctl) : (onHost u c).coreMove = c.coreMove := rfl
@[simp] theorem onHost_step (u : HostPort → HostPort) (c : Ctl) : (onHost u c).step = c.step := rfl
@[simp] theorem onHost_slu (u : HostPort → HostPort) (c : Ctl) : (onHost u c).slu = c.slu := rfl
@[simp] theorem onHost_host (u : HostPort → HostPort) (c : Ctl) : (onHost u c).host = u c.host := rfl
@[simp] theorem onHost_chip (u : HostPort → HostPort) (c : Ctl) : (onHost u c).chip = c.chip := rfl
@[simp] theorem onHost_treadles (u : HostPort → HostPort) (c : Ctl) : (onHost u c).treadles = c.treadles := rfl
@[simp] theorem onHost_delayed (u : HostPort → HostPort) (c : Ctl) : (onHost u c).delayed = c.delayed := rfl
@[simp] theorem onHost_consumed (u : HostPort → HostPort) (c : Ctl) : (onHost u c).consumed = c.consumed := rfl
@[simp] theorem onHost_progCores (u : HostPort → HostPort) (c : Ctl) : (onHost u c).progCores = c.progCores := rfl
@[simp] theorem onHost_probLists (u : HostPort → HostPort) (c : Ctl) : (onHost u c).probLists = c.probLists := rfl
@[simp] theorem onHost_copying (u : HostPort → HostPort) (c : Ctl) : (onHost u c).copying = c.copying := rfl
@[simp] theorem onHost_trace (u : HostPort → HostPort) (c : Ctl) : (onHost u c).trace = c.trace := rfl
@[simp] theorem onHost_reqs (u : HostPort → HostPort) (c : Ctl) : (onHost u c).reqs = c.reqs := rfl
@[simp] theorem onHost_nextTag (u : HostPort → HostPort) (c : Ctl) : (onHost u c).nextTag = c.nextTag := rfl
@[simp] theorem onHost_heldReads (u : HostPort → HostPort) (c : Ctl) : (onHost u c).heldReads = c.heldReads := rfl
@[simp] theorem onHost_flows (u : HostPort → HostPort) (c : Ctl) : (onHost u c).flows = c.flows := rfl
@[simp] theorem onHost_txq (u : HostPort → HostPort) (c : Ctl) : (onHost u c).txq = c.txq := rfl
@[simp] theorem onHost_waitq (u : HostPort → HostPort) (c : Ctl) : (onHost u c).waitq = c.waitq := rfl
@[simp] theorem onHost_ingress (u : HostPort → HostPort) (c : Ctl) : (onHost u c).ingress = c.ingress := rfl
@[simp] theorem onHost_turn (u : HostPort → HostPort) (c : Ctl) : (onHost u c).turn = c.turn := rfl
@[simp] theorem onHost_ten (u : HostPort → HostPort) (c : Ctl) : (onHost u c).ten = c.ten := rfl
@[simp] theorem onHost_lfsr (u : HostPort → HostPort) (c : Ctl) : (onHost u c).lfsr = c.lfsr := rfl
@[simp] theorem onHost_tenKey (u : HostPort → HostPort) (c : Ctl) : (onHost u c).tenKey = c.tenKey := rfl
@[simp] theorem onHost_jitter (u : HostPort → HostPort) (c : Ctl) : (onHost u c).jitter = c.jitter := rfl
@[simp] theorem onHost_job (u : HostPort → HostPort) (c : Ctl) : (onHost u c).job = c.job := rfl
@[simp] theorem onHost_peers (u : HostPort → HostPort) (c : Ctl) : (onHost u c).peers = c.peers := rfl
@[simp] theorem onHost_time (u : HostPort → HostPort) (c : Ctl) : (onHost u c).time = c.time := rfl
@[simp] theorem onHost_place (u : HostPort → HostPort) (c : Ctl) : (onHost u c).place = c.place := rfl
@[simp] theorem onHost_ports (u : HostPort → HostPort) (c : Ctl) : (onHost u c).ports = c.ports := rfl
@[simp] theorem onHost_ticks (u : HostPort → HostPort) (c : Ctl) : (onHost u c).ticks = c.ticks := rfl
@[simp] theorem onHost_poison (u : HostPort → HostPort) (c : Ctl) : (onHost u c).poison = c.poison := rfl
@[simp] theorem onHost_bad (u : HostPort → HostPort) (c : Ctl) : (onHost u c).bad = c.bad := rfl
@[simp] theorem onHost_soft (u : HostPort → HostPort) (c : Ctl) : (onHost u c).soft = c.soft := rfl
@[simp] theorem onHost_acc (u : HostPort → HostPort) (c : Ctl) : (onHost u c).acc = c.acc := rfl
@[simp] theorem onHost_accGen (u : HostPort → HostPort) (c : Ctl) : (onHost u c).accGen = c.accGen := rfl
@[simp] theorem onHost_gov (u : HostPort → HostPort) (c : Ctl) : (onHost u c).gov = c.gov := rfl
@[simp] theorem onHost_coll (u : HostPort → HostPort) (c : Ctl) : (onHost u c).coll = c.coll := rfl
@[simp] theorem onHost_snap (u : HostPort → HostPort) (c : Ctl) : (onHost u c).snap = c.snap := rfl
@[simp] theorem onHost_ret (u : HostPort → HostPort) (c : Ctl) : (onHost u c).ret = c.ret := rfl
@[simp] theorem onHost_fan (u : HostPort → HostPort) (c : Ctl) : (onHost u c).fan = c.fan := rfl
@[simp] theorem onHost_flash (u : HostPort → HostPort) (c : Ctl) : (onHost u c).flash = c.flash := rfl
@[simp] theorem onHost_fw (u : HostPort → HostPort) (c : Ctl) : (onHost u c).fw = c.fw := rfl
@[simp] theorem onHost_att (u : HostPort → HostPort) (c : Ctl) : (onHost u c).att = c.att := rfl
@[simp] theorem onHost_draft (u : HostPort → HostPort) (c : Ctl) : (onHost u c).draft = c.draft := rfl
@[simp] theorem onHost_fresh (u : HostPort → HostPort) (c : Ctl) : (onHost u c).fresh = c.fresh := rfl

@[simp] theorem onTime_regs (u : TimeSt → TimeSt) (c : Ctl) : (onTime u c).regs = c.regs := rfl
@[simp] theorem onTime_fuses (u : TimeSt → TimeSt) (c : Ctl) : (onTime u c).fuses = c.fuses := rfl
@[simp] theorem onTime_pwr (u : TimeSt → TimeSt) (c : Ctl) : (onTime u c).pwr = c.pwr := rfl
@[simp] theorem onTime_cores (u : TimeSt → TimeSt) (c : Ctl) : (onTime u c).cores = c.cores := rfl
@[simp] theorem onTime_coreMove (u : TimeSt → TimeSt) (c : Ctl) : (onTime u c).coreMove = c.coreMove := rfl
@[simp] theorem onTime_step (u : TimeSt → TimeSt) (c : Ctl) : (onTime u c).step = c.step := rfl
@[simp] theorem onTime_slu (u : TimeSt → TimeSt) (c : Ctl) : (onTime u c).slu = c.slu := rfl
@[simp] theorem onTime_host (u : TimeSt → TimeSt) (c : Ctl) : (onTime u c).host = c.host := rfl
@[simp] theorem onTime_chip (u : TimeSt → TimeSt) (c : Ctl) : (onTime u c).chip = c.chip := rfl
@[simp] theorem onTime_treadles (u : TimeSt → TimeSt) (c : Ctl) : (onTime u c).treadles = c.treadles := rfl
@[simp] theorem onTime_delayed (u : TimeSt → TimeSt) (c : Ctl) : (onTime u c).delayed = c.delayed := rfl
@[simp] theorem onTime_consumed (u : TimeSt → TimeSt) (c : Ctl) : (onTime u c).consumed = c.consumed := rfl
@[simp] theorem onTime_progCores (u : TimeSt → TimeSt) (c : Ctl) : (onTime u c).progCores = c.progCores := rfl
@[simp] theorem onTime_probLists (u : TimeSt → TimeSt) (c : Ctl) : (onTime u c).probLists = c.probLists := rfl
@[simp] theorem onTime_copying (u : TimeSt → TimeSt) (c : Ctl) : (onTime u c).copying = c.copying := rfl
@[simp] theorem onTime_trace (u : TimeSt → TimeSt) (c : Ctl) : (onTime u c).trace = c.trace := rfl
@[simp] theorem onTime_reqs (u : TimeSt → TimeSt) (c : Ctl) : (onTime u c).reqs = c.reqs := rfl
@[simp] theorem onTime_nextTag (u : TimeSt → TimeSt) (c : Ctl) : (onTime u c).nextTag = c.nextTag := rfl
@[simp] theorem onTime_heldReads (u : TimeSt → TimeSt) (c : Ctl) : (onTime u c).heldReads = c.heldReads := rfl
@[simp] theorem onTime_flows (u : TimeSt → TimeSt) (c : Ctl) : (onTime u c).flows = c.flows := rfl
@[simp] theorem onTime_txq (u : TimeSt → TimeSt) (c : Ctl) : (onTime u c).txq = c.txq := rfl
@[simp] theorem onTime_waitq (u : TimeSt → TimeSt) (c : Ctl) : (onTime u c).waitq = c.waitq := rfl
@[simp] theorem onTime_ingress (u : TimeSt → TimeSt) (c : Ctl) : (onTime u c).ingress = c.ingress := rfl
@[simp] theorem onTime_turn (u : TimeSt → TimeSt) (c : Ctl) : (onTime u c).turn = c.turn := rfl
@[simp] theorem onTime_ten (u : TimeSt → TimeSt) (c : Ctl) : (onTime u c).ten = c.ten := rfl
@[simp] theorem onTime_lfsr (u : TimeSt → TimeSt) (c : Ctl) : (onTime u c).lfsr = c.lfsr := rfl
@[simp] theorem onTime_tenKey (u : TimeSt → TimeSt) (c : Ctl) : (onTime u c).tenKey = c.tenKey := rfl
@[simp] theorem onTime_jitter (u : TimeSt → TimeSt) (c : Ctl) : (onTime u c).jitter = c.jitter := rfl
@[simp] theorem onTime_job (u : TimeSt → TimeSt) (c : Ctl) : (onTime u c).job = c.job := rfl
@[simp] theorem onTime_peers (u : TimeSt → TimeSt) (c : Ctl) : (onTime u c).peers = c.peers := rfl
@[simp] theorem onTime_time (u : TimeSt → TimeSt) (c : Ctl) : (onTime u c).time = u c.time := rfl
@[simp] theorem onTime_place (u : TimeSt → TimeSt) (c : Ctl) : (onTime u c).place = c.place := rfl
@[simp] theorem onTime_ports (u : TimeSt → TimeSt) (c : Ctl) : (onTime u c).ports = c.ports := rfl
@[simp] theorem onTime_ticks (u : TimeSt → TimeSt) (c : Ctl) : (onTime u c).ticks = c.ticks := rfl
@[simp] theorem onTime_poison (u : TimeSt → TimeSt) (c : Ctl) : (onTime u c).poison = c.poison := rfl
@[simp] theorem onTime_bad (u : TimeSt → TimeSt) (c : Ctl) : (onTime u c).bad = c.bad := rfl
@[simp] theorem onTime_soft (u : TimeSt → TimeSt) (c : Ctl) : (onTime u c).soft = c.soft := rfl
@[simp] theorem onTime_acc (u : TimeSt → TimeSt) (c : Ctl) : (onTime u c).acc = c.acc := rfl
@[simp] theorem onTime_accGen (u : TimeSt → TimeSt) (c : Ctl) : (onTime u c).accGen = c.accGen := rfl
@[simp] theorem onTime_gov (u : TimeSt → TimeSt) (c : Ctl) : (onTime u c).gov = c.gov := rfl
@[simp] theorem onTime_coll (u : TimeSt → TimeSt) (c : Ctl) : (onTime u c).coll = c.coll := rfl
@[simp] theorem onTime_snap (u : TimeSt → TimeSt) (c : Ctl) : (onTime u c).snap = c.snap := rfl
@[simp] theorem onTime_ret (u : TimeSt → TimeSt) (c : Ctl) : (onTime u c).ret = c.ret := rfl
@[simp] theorem onTime_fan (u : TimeSt → TimeSt) (c : Ctl) : (onTime u c).fan = c.fan := rfl
@[simp] theorem onTime_flash (u : TimeSt → TimeSt) (c : Ctl) : (onTime u c).flash = c.flash := rfl
@[simp] theorem onTime_fw (u : TimeSt → TimeSt) (c : Ctl) : (onTime u c).fw = c.fw := rfl
@[simp] theorem onTime_att (u : TimeSt → TimeSt) (c : Ctl) : (onTime u c).att = c.att := rfl
@[simp] theorem onTime_draft (u : TimeSt → TimeSt) (c : Ctl) : (onTime u c).draft = c.draft := rfl
@[simp] theorem onTime_fresh (u : TimeSt → TimeSt) (c : Ctl) : (onTime u c).fresh = c.fresh := rfl

@[simp] theorem onColl_regs (u : CollSt → CollSt) (c : Ctl) : (onColl u c).regs = c.regs := rfl
@[simp] theorem onColl_fuses (u : CollSt → CollSt) (c : Ctl) : (onColl u c).fuses = c.fuses := rfl
@[simp] theorem onColl_pwr (u : CollSt → CollSt) (c : Ctl) : (onColl u c).pwr = c.pwr := rfl
@[simp] theorem onColl_cores (u : CollSt → CollSt) (c : Ctl) : (onColl u c).cores = c.cores := rfl
@[simp] theorem onColl_coreMove (u : CollSt → CollSt) (c : Ctl) : (onColl u c).coreMove = c.coreMove := rfl
@[simp] theorem onColl_step (u : CollSt → CollSt) (c : Ctl) : (onColl u c).step = c.step := rfl
@[simp] theorem onColl_slu (u : CollSt → CollSt) (c : Ctl) : (onColl u c).slu = c.slu := rfl
@[simp] theorem onColl_host (u : CollSt → CollSt) (c : Ctl) : (onColl u c).host = c.host := rfl
@[simp] theorem onColl_chip (u : CollSt → CollSt) (c : Ctl) : (onColl u c).chip = c.chip := rfl
@[simp] theorem onColl_treadles (u : CollSt → CollSt) (c : Ctl) : (onColl u c).treadles = c.treadles := rfl
@[simp] theorem onColl_delayed (u : CollSt → CollSt) (c : Ctl) : (onColl u c).delayed = c.delayed := rfl
@[simp] theorem onColl_consumed (u : CollSt → CollSt) (c : Ctl) : (onColl u c).consumed = c.consumed := rfl
@[simp] theorem onColl_progCores (u : CollSt → CollSt) (c : Ctl) : (onColl u c).progCores = c.progCores := rfl
@[simp] theorem onColl_probLists (u : CollSt → CollSt) (c : Ctl) : (onColl u c).probLists = c.probLists := rfl
@[simp] theorem onColl_copying (u : CollSt → CollSt) (c : Ctl) : (onColl u c).copying = c.copying := rfl
@[simp] theorem onColl_trace (u : CollSt → CollSt) (c : Ctl) : (onColl u c).trace = c.trace := rfl
@[simp] theorem onColl_reqs (u : CollSt → CollSt) (c : Ctl) : (onColl u c).reqs = c.reqs := rfl
@[simp] theorem onColl_nextTag (u : CollSt → CollSt) (c : Ctl) : (onColl u c).nextTag = c.nextTag := rfl
@[simp] theorem onColl_heldReads (u : CollSt → CollSt) (c : Ctl) : (onColl u c).heldReads = c.heldReads := rfl
@[simp] theorem onColl_flows (u : CollSt → CollSt) (c : Ctl) : (onColl u c).flows = c.flows := rfl
@[simp] theorem onColl_txq (u : CollSt → CollSt) (c : Ctl) : (onColl u c).txq = c.txq := rfl
@[simp] theorem onColl_waitq (u : CollSt → CollSt) (c : Ctl) : (onColl u c).waitq = c.waitq := rfl
@[simp] theorem onColl_ingress (u : CollSt → CollSt) (c : Ctl) : (onColl u c).ingress = c.ingress := rfl
@[simp] theorem onColl_turn (u : CollSt → CollSt) (c : Ctl) : (onColl u c).turn = c.turn := rfl
@[simp] theorem onColl_ten (u : CollSt → CollSt) (c : Ctl) : (onColl u c).ten = c.ten := rfl
@[simp] theorem onColl_lfsr (u : CollSt → CollSt) (c : Ctl) : (onColl u c).lfsr = c.lfsr := rfl
@[simp] theorem onColl_tenKey (u : CollSt → CollSt) (c : Ctl) : (onColl u c).tenKey = c.tenKey := rfl
@[simp] theorem onColl_jitter (u : CollSt → CollSt) (c : Ctl) : (onColl u c).jitter = c.jitter := rfl
@[simp] theorem onColl_job (u : CollSt → CollSt) (c : Ctl) : (onColl u c).job = c.job := rfl
@[simp] theorem onColl_peers (u : CollSt → CollSt) (c : Ctl) : (onColl u c).peers = c.peers := rfl
@[simp] theorem onColl_time (u : CollSt → CollSt) (c : Ctl) : (onColl u c).time = c.time := rfl
@[simp] theorem onColl_place (u : CollSt → CollSt) (c : Ctl) : (onColl u c).place = c.place := rfl
@[simp] theorem onColl_ports (u : CollSt → CollSt) (c : Ctl) : (onColl u c).ports = c.ports := rfl
@[simp] theorem onColl_ticks (u : CollSt → CollSt) (c : Ctl) : (onColl u c).ticks = c.ticks := rfl
@[simp] theorem onColl_poison (u : CollSt → CollSt) (c : Ctl) : (onColl u c).poison = c.poison := rfl
@[simp] theorem onColl_bad (u : CollSt → CollSt) (c : Ctl) : (onColl u c).bad = c.bad := rfl
@[simp] theorem onColl_soft (u : CollSt → CollSt) (c : Ctl) : (onColl u c).soft = c.soft := rfl
@[simp] theorem onColl_acc (u : CollSt → CollSt) (c : Ctl) : (onColl u c).acc = c.acc := rfl
@[simp] theorem onColl_accGen (u : CollSt → CollSt) (c : Ctl) : (onColl u c).accGen = c.accGen := rfl
@[simp] theorem onColl_gov (u : CollSt → CollSt) (c : Ctl) : (onColl u c).gov = c.gov := rfl
@[simp] theorem onColl_coll (u : CollSt → CollSt) (c : Ctl) : (onColl u c).coll = u c.coll := rfl
@[simp] theorem onColl_snap (u : CollSt → CollSt) (c : Ctl) : (onColl u c).snap = c.snap := rfl
@[simp] theorem onColl_ret (u : CollSt → CollSt) (c : Ctl) : (onColl u c).ret = c.ret := rfl
@[simp] theorem onColl_fan (u : CollSt → CollSt) (c : Ctl) : (onColl u c).fan = c.fan := rfl
@[simp] theorem onColl_flash (u : CollSt → CollSt) (c : Ctl) : (onColl u c).flash = c.flash := rfl
@[simp] theorem onColl_fw (u : CollSt → CollSt) (c : Ctl) : (onColl u c).fw = c.fw := rfl
@[simp] theorem onColl_att (u : CollSt → CollSt) (c : Ctl) : (onColl u c).att = c.att := rfl
@[simp] theorem onColl_draft (u : CollSt → CollSt) (c : Ctl) : (onColl u c).draft = c.draft := rfl
@[simp] theorem onColl_fresh (u : CollSt → CollSt) (c : Ctl) : (onColl u c).fresh = c.fresh := rfl

@[simp] theorem onSnap_regs (u : SnapSt → SnapSt) (c : Ctl) : (onSnap u c).regs = c.regs := rfl
@[simp] theorem onSnap_fuses (u : SnapSt → SnapSt) (c : Ctl) : (onSnap u c).fuses = c.fuses := rfl
@[simp] theorem onSnap_pwr (u : SnapSt → SnapSt) (c : Ctl) : (onSnap u c).pwr = c.pwr := rfl
@[simp] theorem onSnap_cores (u : SnapSt → SnapSt) (c : Ctl) : (onSnap u c).cores = c.cores := rfl
@[simp] theorem onSnap_coreMove (u : SnapSt → SnapSt) (c : Ctl) : (onSnap u c).coreMove = c.coreMove := rfl
@[simp] theorem onSnap_step (u : SnapSt → SnapSt) (c : Ctl) : (onSnap u c).step = c.step := rfl
@[simp] theorem onSnap_slu (u : SnapSt → SnapSt) (c : Ctl) : (onSnap u c).slu = c.slu := rfl
@[simp] theorem onSnap_host (u : SnapSt → SnapSt) (c : Ctl) : (onSnap u c).host = c.host := rfl
@[simp] theorem onSnap_chip (u : SnapSt → SnapSt) (c : Ctl) : (onSnap u c).chip = c.chip := rfl
@[simp] theorem onSnap_treadles (u : SnapSt → SnapSt) (c : Ctl) : (onSnap u c).treadles = c.treadles := rfl
@[simp] theorem onSnap_delayed (u : SnapSt → SnapSt) (c : Ctl) : (onSnap u c).delayed = c.delayed := rfl
@[simp] theorem onSnap_consumed (u : SnapSt → SnapSt) (c : Ctl) : (onSnap u c).consumed = c.consumed := rfl
@[simp] theorem onSnap_progCores (u : SnapSt → SnapSt) (c : Ctl) : (onSnap u c).progCores = c.progCores := rfl
@[simp] theorem onSnap_probLists (u : SnapSt → SnapSt) (c : Ctl) : (onSnap u c).probLists = c.probLists := rfl
@[simp] theorem onSnap_copying (u : SnapSt → SnapSt) (c : Ctl) : (onSnap u c).copying = c.copying := rfl
@[simp] theorem onSnap_trace (u : SnapSt → SnapSt) (c : Ctl) : (onSnap u c).trace = c.trace := rfl
@[simp] theorem onSnap_reqs (u : SnapSt → SnapSt) (c : Ctl) : (onSnap u c).reqs = c.reqs := rfl
@[simp] theorem onSnap_nextTag (u : SnapSt → SnapSt) (c : Ctl) : (onSnap u c).nextTag = c.nextTag := rfl
@[simp] theorem onSnap_heldReads (u : SnapSt → SnapSt) (c : Ctl) : (onSnap u c).heldReads = c.heldReads := rfl
@[simp] theorem onSnap_flows (u : SnapSt → SnapSt) (c : Ctl) : (onSnap u c).flows = c.flows := rfl
@[simp] theorem onSnap_txq (u : SnapSt → SnapSt) (c : Ctl) : (onSnap u c).txq = c.txq := rfl
@[simp] theorem onSnap_waitq (u : SnapSt → SnapSt) (c : Ctl) : (onSnap u c).waitq = c.waitq := rfl
@[simp] theorem onSnap_ingress (u : SnapSt → SnapSt) (c : Ctl) : (onSnap u c).ingress = c.ingress := rfl
@[simp] theorem onSnap_turn (u : SnapSt → SnapSt) (c : Ctl) : (onSnap u c).turn = c.turn := rfl
@[simp] theorem onSnap_ten (u : SnapSt → SnapSt) (c : Ctl) : (onSnap u c).ten = c.ten := rfl
@[simp] theorem onSnap_lfsr (u : SnapSt → SnapSt) (c : Ctl) : (onSnap u c).lfsr = c.lfsr := rfl
@[simp] theorem onSnap_tenKey (u : SnapSt → SnapSt) (c : Ctl) : (onSnap u c).tenKey = c.tenKey := rfl
@[simp] theorem onSnap_jitter (u : SnapSt → SnapSt) (c : Ctl) : (onSnap u c).jitter = c.jitter := rfl
@[simp] theorem onSnap_job (u : SnapSt → SnapSt) (c : Ctl) : (onSnap u c).job = c.job := rfl
@[simp] theorem onSnap_peers (u : SnapSt → SnapSt) (c : Ctl) : (onSnap u c).peers = c.peers := rfl
@[simp] theorem onSnap_time (u : SnapSt → SnapSt) (c : Ctl) : (onSnap u c).time = c.time := rfl
@[simp] theorem onSnap_place (u : SnapSt → SnapSt) (c : Ctl) : (onSnap u c).place = c.place := rfl
@[simp] theorem onSnap_ports (u : SnapSt → SnapSt) (c : Ctl) : (onSnap u c).ports = c.ports := rfl
@[simp] theorem onSnap_ticks (u : SnapSt → SnapSt) (c : Ctl) : (onSnap u c).ticks = c.ticks := rfl
@[simp] theorem onSnap_poison (u : SnapSt → SnapSt) (c : Ctl) : (onSnap u c).poison = c.poison := rfl
@[simp] theorem onSnap_bad (u : SnapSt → SnapSt) (c : Ctl) : (onSnap u c).bad = c.bad := rfl
@[simp] theorem onSnap_soft (u : SnapSt → SnapSt) (c : Ctl) : (onSnap u c).soft = c.soft := rfl
@[simp] theorem onSnap_acc (u : SnapSt → SnapSt) (c : Ctl) : (onSnap u c).acc = c.acc := rfl
@[simp] theorem onSnap_accGen (u : SnapSt → SnapSt) (c : Ctl) : (onSnap u c).accGen = c.accGen := rfl
@[simp] theorem onSnap_gov (u : SnapSt → SnapSt) (c : Ctl) : (onSnap u c).gov = c.gov := rfl
@[simp] theorem onSnap_coll (u : SnapSt → SnapSt) (c : Ctl) : (onSnap u c).coll = c.coll := rfl
@[simp] theorem onSnap_snap (u : SnapSt → SnapSt) (c : Ctl) : (onSnap u c).snap = u c.snap := rfl
@[simp] theorem onSnap_ret (u : SnapSt → SnapSt) (c : Ctl) : (onSnap u c).ret = c.ret := rfl
@[simp] theorem onSnap_fan (u : SnapSt → SnapSt) (c : Ctl) : (onSnap u c).fan = c.fan := rfl
@[simp] theorem onSnap_flash (u : SnapSt → SnapSt) (c : Ctl) : (onSnap u c).flash = c.flash := rfl
@[simp] theorem onSnap_fw (u : SnapSt → SnapSt) (c : Ctl) : (onSnap u c).fw = c.fw := rfl
@[simp] theorem onSnap_att (u : SnapSt → SnapSt) (c : Ctl) : (onSnap u c).att = c.att := rfl
@[simp] theorem onSnap_draft (u : SnapSt → SnapSt) (c : Ctl) : (onSnap u c).draft = c.draft := rfl
@[simp] theorem onSnap_fresh (u : SnapSt → SnapSt) (c : Ctl) : (onSnap u c).fresh = c.fresh := rfl

@[simp] theorem onRet_regs (u : Retain → Retain) (c : Ctl) : (onRet u c).regs = c.regs := rfl
@[simp] theorem onRet_fuses (u : Retain → Retain) (c : Ctl) : (onRet u c).fuses = c.fuses := rfl
@[simp] theorem onRet_pwr (u : Retain → Retain) (c : Ctl) : (onRet u c).pwr = c.pwr := rfl
@[simp] theorem onRet_cores (u : Retain → Retain) (c : Ctl) : (onRet u c).cores = c.cores := rfl
@[simp] theorem onRet_coreMove (u : Retain → Retain) (c : Ctl) : (onRet u c).coreMove = c.coreMove := rfl
@[simp] theorem onRet_step (u : Retain → Retain) (c : Ctl) : (onRet u c).step = c.step := rfl
@[simp] theorem onRet_slu (u : Retain → Retain) (c : Ctl) : (onRet u c).slu = c.slu := rfl
@[simp] theorem onRet_host (u : Retain → Retain) (c : Ctl) : (onRet u c).host = c.host := rfl
@[simp] theorem onRet_chip (u : Retain → Retain) (c : Ctl) : (onRet u c).chip = c.chip := rfl
@[simp] theorem onRet_treadles (u : Retain → Retain) (c : Ctl) : (onRet u c).treadles = c.treadles := rfl
@[simp] theorem onRet_delayed (u : Retain → Retain) (c : Ctl) : (onRet u c).delayed = c.delayed := rfl
@[simp] theorem onRet_consumed (u : Retain → Retain) (c : Ctl) : (onRet u c).consumed = c.consumed := rfl
@[simp] theorem onRet_progCores (u : Retain → Retain) (c : Ctl) : (onRet u c).progCores = c.progCores := rfl
@[simp] theorem onRet_probLists (u : Retain → Retain) (c : Ctl) : (onRet u c).probLists = c.probLists := rfl
@[simp] theorem onRet_copying (u : Retain → Retain) (c : Ctl) : (onRet u c).copying = c.copying := rfl
@[simp] theorem onRet_trace (u : Retain → Retain) (c : Ctl) : (onRet u c).trace = c.trace := rfl
@[simp] theorem onRet_reqs (u : Retain → Retain) (c : Ctl) : (onRet u c).reqs = c.reqs := rfl
@[simp] theorem onRet_nextTag (u : Retain → Retain) (c : Ctl) : (onRet u c).nextTag = c.nextTag := rfl
@[simp] theorem onRet_heldReads (u : Retain → Retain) (c : Ctl) : (onRet u c).heldReads = c.heldReads := rfl
@[simp] theorem onRet_flows (u : Retain → Retain) (c : Ctl) : (onRet u c).flows = c.flows := rfl
@[simp] theorem onRet_txq (u : Retain → Retain) (c : Ctl) : (onRet u c).txq = c.txq := rfl
@[simp] theorem onRet_waitq (u : Retain → Retain) (c : Ctl) : (onRet u c).waitq = c.waitq := rfl
@[simp] theorem onRet_ingress (u : Retain → Retain) (c : Ctl) : (onRet u c).ingress = c.ingress := rfl
@[simp] theorem onRet_turn (u : Retain → Retain) (c : Ctl) : (onRet u c).turn = c.turn := rfl
@[simp] theorem onRet_ten (u : Retain → Retain) (c : Ctl) : (onRet u c).ten = c.ten := rfl
@[simp] theorem onRet_lfsr (u : Retain → Retain) (c : Ctl) : (onRet u c).lfsr = c.lfsr := rfl
@[simp] theorem onRet_tenKey (u : Retain → Retain) (c : Ctl) : (onRet u c).tenKey = c.tenKey := rfl
@[simp] theorem onRet_jitter (u : Retain → Retain) (c : Ctl) : (onRet u c).jitter = c.jitter := rfl
@[simp] theorem onRet_job (u : Retain → Retain) (c : Ctl) : (onRet u c).job = c.job := rfl
@[simp] theorem onRet_peers (u : Retain → Retain) (c : Ctl) : (onRet u c).peers = c.peers := rfl
@[simp] theorem onRet_time (u : Retain → Retain) (c : Ctl) : (onRet u c).time = c.time := rfl
@[simp] theorem onRet_place (u : Retain → Retain) (c : Ctl) : (onRet u c).place = c.place := rfl
@[simp] theorem onRet_ports (u : Retain → Retain) (c : Ctl) : (onRet u c).ports = c.ports := rfl
@[simp] theorem onRet_ticks (u : Retain → Retain) (c : Ctl) : (onRet u c).ticks = c.ticks := rfl
@[simp] theorem onRet_poison (u : Retain → Retain) (c : Ctl) : (onRet u c).poison = c.poison := rfl
@[simp] theorem onRet_bad (u : Retain → Retain) (c : Ctl) : (onRet u c).bad = c.bad := rfl
@[simp] theorem onRet_soft (u : Retain → Retain) (c : Ctl) : (onRet u c).soft = c.soft := rfl
@[simp] theorem onRet_acc (u : Retain → Retain) (c : Ctl) : (onRet u c).acc = c.acc := rfl
@[simp] theorem onRet_accGen (u : Retain → Retain) (c : Ctl) : (onRet u c).accGen = c.accGen := rfl
@[simp] theorem onRet_gov (u : Retain → Retain) (c : Ctl) : (onRet u c).gov = c.gov := rfl
@[simp] theorem onRet_coll (u : Retain → Retain) (c : Ctl) : (onRet u c).coll = c.coll := rfl
@[simp] theorem onRet_snap (u : Retain → Retain) (c : Ctl) : (onRet u c).snap = c.snap := rfl
@[simp] theorem onRet_ret (u : Retain → Retain) (c : Ctl) : (onRet u c).ret = u c.ret := rfl
@[simp] theorem onRet_fan (u : Retain → Retain) (c : Ctl) : (onRet u c).fan = c.fan := rfl
@[simp] theorem onRet_flash (u : Retain → Retain) (c : Ctl) : (onRet u c).flash = c.flash := rfl
@[simp] theorem onRet_fw (u : Retain → Retain) (c : Ctl) : (onRet u c).fw = c.fw := rfl
@[simp] theorem onRet_att (u : Retain → Retain) (c : Ctl) : (onRet u c).att = c.att := rfl
@[simp] theorem onRet_draft (u : Retain → Retain) (c : Ctl) : (onRet u c).draft = c.draft := rfl
@[simp] theorem onRet_fresh (u : Retain → Retain) (c : Ctl) : (onRet u c).fresh = c.fresh := rfl

@[simp] theorem onFan_regs (u : FanSt → FanSt) (c : Ctl) : (onFan u c).regs = c.regs := rfl
@[simp] theorem onFan_fuses (u : FanSt → FanSt) (c : Ctl) : (onFan u c).fuses = c.fuses := rfl
@[simp] theorem onFan_pwr (u : FanSt → FanSt) (c : Ctl) : (onFan u c).pwr = c.pwr := rfl
@[simp] theorem onFan_cores (u : FanSt → FanSt) (c : Ctl) : (onFan u c).cores = c.cores := rfl
@[simp] theorem onFan_coreMove (u : FanSt → FanSt) (c : Ctl) : (onFan u c).coreMove = c.coreMove := rfl
@[simp] theorem onFan_step (u : FanSt → FanSt) (c : Ctl) : (onFan u c).step = c.step := rfl
@[simp] theorem onFan_slu (u : FanSt → FanSt) (c : Ctl) : (onFan u c).slu = c.slu := rfl
@[simp] theorem onFan_host (u : FanSt → FanSt) (c : Ctl) : (onFan u c).host = c.host := rfl
@[simp] theorem onFan_chip (u : FanSt → FanSt) (c : Ctl) : (onFan u c).chip = c.chip := rfl
@[simp] theorem onFan_treadles (u : FanSt → FanSt) (c : Ctl) : (onFan u c).treadles = c.treadles := rfl
@[simp] theorem onFan_delayed (u : FanSt → FanSt) (c : Ctl) : (onFan u c).delayed = c.delayed := rfl
@[simp] theorem onFan_consumed (u : FanSt → FanSt) (c : Ctl) : (onFan u c).consumed = c.consumed := rfl
@[simp] theorem onFan_progCores (u : FanSt → FanSt) (c : Ctl) : (onFan u c).progCores = c.progCores := rfl
@[simp] theorem onFan_probLists (u : FanSt → FanSt) (c : Ctl) : (onFan u c).probLists = c.probLists := rfl
@[simp] theorem onFan_copying (u : FanSt → FanSt) (c : Ctl) : (onFan u c).copying = c.copying := rfl
@[simp] theorem onFan_trace (u : FanSt → FanSt) (c : Ctl) : (onFan u c).trace = c.trace := rfl
@[simp] theorem onFan_reqs (u : FanSt → FanSt) (c : Ctl) : (onFan u c).reqs = c.reqs := rfl
@[simp] theorem onFan_nextTag (u : FanSt → FanSt) (c : Ctl) : (onFan u c).nextTag = c.nextTag := rfl
@[simp] theorem onFan_heldReads (u : FanSt → FanSt) (c : Ctl) : (onFan u c).heldReads = c.heldReads := rfl
@[simp] theorem onFan_flows (u : FanSt → FanSt) (c : Ctl) : (onFan u c).flows = c.flows := rfl
@[simp] theorem onFan_txq (u : FanSt → FanSt) (c : Ctl) : (onFan u c).txq = c.txq := rfl
@[simp] theorem onFan_waitq (u : FanSt → FanSt) (c : Ctl) : (onFan u c).waitq = c.waitq := rfl
@[simp] theorem onFan_ingress (u : FanSt → FanSt) (c : Ctl) : (onFan u c).ingress = c.ingress := rfl
@[simp] theorem onFan_turn (u : FanSt → FanSt) (c : Ctl) : (onFan u c).turn = c.turn := rfl
@[simp] theorem onFan_ten (u : FanSt → FanSt) (c : Ctl) : (onFan u c).ten = c.ten := rfl
@[simp] theorem onFan_lfsr (u : FanSt → FanSt) (c : Ctl) : (onFan u c).lfsr = c.lfsr := rfl
@[simp] theorem onFan_tenKey (u : FanSt → FanSt) (c : Ctl) : (onFan u c).tenKey = c.tenKey := rfl
@[simp] theorem onFan_jitter (u : FanSt → FanSt) (c : Ctl) : (onFan u c).jitter = c.jitter := rfl
@[simp] theorem onFan_job (u : FanSt → FanSt) (c : Ctl) : (onFan u c).job = c.job := rfl
@[simp] theorem onFan_peers (u : FanSt → FanSt) (c : Ctl) : (onFan u c).peers = c.peers := rfl
@[simp] theorem onFan_time (u : FanSt → FanSt) (c : Ctl) : (onFan u c).time = c.time := rfl
@[simp] theorem onFan_place (u : FanSt → FanSt) (c : Ctl) : (onFan u c).place = c.place := rfl
@[simp] theorem onFan_ports (u : FanSt → FanSt) (c : Ctl) : (onFan u c).ports = c.ports := rfl
@[simp] theorem onFan_ticks (u : FanSt → FanSt) (c : Ctl) : (onFan u c).ticks = c.ticks := rfl
@[simp] theorem onFan_poison (u : FanSt → FanSt) (c : Ctl) : (onFan u c).poison = c.poison := rfl
@[simp] theorem onFan_bad (u : FanSt → FanSt) (c : Ctl) : (onFan u c).bad = c.bad := rfl
@[simp] theorem onFan_soft (u : FanSt → FanSt) (c : Ctl) : (onFan u c).soft = c.soft := rfl
@[simp] theorem onFan_acc (u : FanSt → FanSt) (c : Ctl) : (onFan u c).acc = c.acc := rfl
@[simp] theorem onFan_accGen (u : FanSt → FanSt) (c : Ctl) : (onFan u c).accGen = c.accGen := rfl
@[simp] theorem onFan_gov (u : FanSt → FanSt) (c : Ctl) : (onFan u c).gov = c.gov := rfl
@[simp] theorem onFan_coll (u : FanSt → FanSt) (c : Ctl) : (onFan u c).coll = c.coll := rfl
@[simp] theorem onFan_snap (u : FanSt → FanSt) (c : Ctl) : (onFan u c).snap = c.snap := rfl
@[simp] theorem onFan_ret (u : FanSt → FanSt) (c : Ctl) : (onFan u c).ret = c.ret := rfl
@[simp] theorem onFan_fan (u : FanSt → FanSt) (c : Ctl) : (onFan u c).fan = u c.fan := rfl
@[simp] theorem onFan_flash (u : FanSt → FanSt) (c : Ctl) : (onFan u c).flash = c.flash := rfl
@[simp] theorem onFan_fw (u : FanSt → FanSt) (c : Ctl) : (onFan u c).fw = c.fw := rfl
@[simp] theorem onFan_att (u : FanSt → FanSt) (c : Ctl) : (onFan u c).att = c.att := rfl
@[simp] theorem onFan_draft (u : FanSt → FanSt) (c : Ctl) : (onFan u c).draft = c.draft := rfl
@[simp] theorem onFan_fresh (u : FanSt → FanSt) (c : Ctl) : (onFan u c).fresh = c.fresh := rfl

@[simp] theorem onFw_regs (u : FwSt → FwSt) (c : Ctl) : (onFw u c).regs = c.regs := rfl
@[simp] theorem onFw_fuses (u : FwSt → FwSt) (c : Ctl) : (onFw u c).fuses = c.fuses := rfl
@[simp] theorem onFw_pwr (u : FwSt → FwSt) (c : Ctl) : (onFw u c).pwr = c.pwr := rfl
@[simp] theorem onFw_cores (u : FwSt → FwSt) (c : Ctl) : (onFw u c).cores = c.cores := rfl
@[simp] theorem onFw_coreMove (u : FwSt → FwSt) (c : Ctl) : (onFw u c).coreMove = c.coreMove := rfl
@[simp] theorem onFw_step (u : FwSt → FwSt) (c : Ctl) : (onFw u c).step = c.step := rfl
@[simp] theorem onFw_slu (u : FwSt → FwSt) (c : Ctl) : (onFw u c).slu = c.slu := rfl
@[simp] theorem onFw_host (u : FwSt → FwSt) (c : Ctl) : (onFw u c).host = c.host := rfl
@[simp] theorem onFw_chip (u : FwSt → FwSt) (c : Ctl) : (onFw u c).chip = c.chip := rfl
@[simp] theorem onFw_treadles (u : FwSt → FwSt) (c : Ctl) : (onFw u c).treadles = c.treadles := rfl
@[simp] theorem onFw_delayed (u : FwSt → FwSt) (c : Ctl) : (onFw u c).delayed = c.delayed := rfl
@[simp] theorem onFw_consumed (u : FwSt → FwSt) (c : Ctl) : (onFw u c).consumed = c.consumed := rfl
@[simp] theorem onFw_progCores (u : FwSt → FwSt) (c : Ctl) : (onFw u c).progCores = c.progCores := rfl
@[simp] theorem onFw_probLists (u : FwSt → FwSt) (c : Ctl) : (onFw u c).probLists = c.probLists := rfl
@[simp] theorem onFw_copying (u : FwSt → FwSt) (c : Ctl) : (onFw u c).copying = c.copying := rfl
@[simp] theorem onFw_trace (u : FwSt → FwSt) (c : Ctl) : (onFw u c).trace = c.trace := rfl
@[simp] theorem onFw_reqs (u : FwSt → FwSt) (c : Ctl) : (onFw u c).reqs = c.reqs := rfl
@[simp] theorem onFw_nextTag (u : FwSt → FwSt) (c : Ctl) : (onFw u c).nextTag = c.nextTag := rfl
@[simp] theorem onFw_heldReads (u : FwSt → FwSt) (c : Ctl) : (onFw u c).heldReads = c.heldReads := rfl
@[simp] theorem onFw_flows (u : FwSt → FwSt) (c : Ctl) : (onFw u c).flows = c.flows := rfl
@[simp] theorem onFw_txq (u : FwSt → FwSt) (c : Ctl) : (onFw u c).txq = c.txq := rfl
@[simp] theorem onFw_waitq (u : FwSt → FwSt) (c : Ctl) : (onFw u c).waitq = c.waitq := rfl
@[simp] theorem onFw_ingress (u : FwSt → FwSt) (c : Ctl) : (onFw u c).ingress = c.ingress := rfl
@[simp] theorem onFw_turn (u : FwSt → FwSt) (c : Ctl) : (onFw u c).turn = c.turn := rfl
@[simp] theorem onFw_ten (u : FwSt → FwSt) (c : Ctl) : (onFw u c).ten = c.ten := rfl
@[simp] theorem onFw_lfsr (u : FwSt → FwSt) (c : Ctl) : (onFw u c).lfsr = c.lfsr := rfl
@[simp] theorem onFw_tenKey (u : FwSt → FwSt) (c : Ctl) : (onFw u c).tenKey = c.tenKey := rfl
@[simp] theorem onFw_jitter (u : FwSt → FwSt) (c : Ctl) : (onFw u c).jitter = c.jitter := rfl
@[simp] theorem onFw_job (u : FwSt → FwSt) (c : Ctl) : (onFw u c).job = c.job := rfl
@[simp] theorem onFw_peers (u : FwSt → FwSt) (c : Ctl) : (onFw u c).peers = c.peers := rfl
@[simp] theorem onFw_time (u : FwSt → FwSt) (c : Ctl) : (onFw u c).time = c.time := rfl
@[simp] theorem onFw_place (u : FwSt → FwSt) (c : Ctl) : (onFw u c).place = c.place := rfl
@[simp] theorem onFw_ports (u : FwSt → FwSt) (c : Ctl) : (onFw u c).ports = c.ports := rfl
@[simp] theorem onFw_ticks (u : FwSt → FwSt) (c : Ctl) : (onFw u c).ticks = c.ticks := rfl
@[simp] theorem onFw_poison (u : FwSt → FwSt) (c : Ctl) : (onFw u c).poison = c.poison := rfl
@[simp] theorem onFw_bad (u : FwSt → FwSt) (c : Ctl) : (onFw u c).bad = c.bad := rfl
@[simp] theorem onFw_soft (u : FwSt → FwSt) (c : Ctl) : (onFw u c).soft = c.soft := rfl
@[simp] theorem onFw_acc (u : FwSt → FwSt) (c : Ctl) : (onFw u c).acc = c.acc := rfl
@[simp] theorem onFw_accGen (u : FwSt → FwSt) (c : Ctl) : (onFw u c).accGen = c.accGen := rfl
@[simp] theorem onFw_gov (u : FwSt → FwSt) (c : Ctl) : (onFw u c).gov = c.gov := rfl
@[simp] theorem onFw_coll (u : FwSt → FwSt) (c : Ctl) : (onFw u c).coll = c.coll := rfl
@[simp] theorem onFw_snap (u : FwSt → FwSt) (c : Ctl) : (onFw u c).snap = c.snap := rfl
@[simp] theorem onFw_ret (u : FwSt → FwSt) (c : Ctl) : (onFw u c).ret = c.ret := rfl
@[simp] theorem onFw_fan (u : FwSt → FwSt) (c : Ctl) : (onFw u c).fan = c.fan := rfl
@[simp] theorem onFw_flash (u : FwSt → FwSt) (c : Ctl) : (onFw u c).flash = c.flash := rfl
@[simp] theorem onFw_fw (u : FwSt → FwSt) (c : Ctl) : (onFw u c).fw = u c.fw := rfl
@[simp] theorem onFw_att (u : FwSt → FwSt) (c : Ctl) : (onFw u c).att = c.att := rfl
@[simp] theorem onFw_draft (u : FwSt → FwSt) (c : Ctl) : (onFw u c).draft = c.draft := rfl
@[simp] theorem onFw_fresh (u : FwSt → FwSt) (c : Ctl) : (onFw u c).fresh = c.fresh := rfl

@[simp] theorem onPwr_regs (u : Power → Power) (c : Ctl) : (onPwr u c).regs = c.regs := rfl
@[simp] theorem onPwr_fuses (u : Power → Power) (c : Ctl) : (onPwr u c).fuses = c.fuses := rfl
@[simp] theorem onPwr_pwr (u : Power → Power) (c : Ctl) : (onPwr u c).pwr = u c.pwr := rfl
@[simp] theorem onPwr_cores (u : Power → Power) (c : Ctl) : (onPwr u c).cores = c.cores := rfl
@[simp] theorem onPwr_coreMove (u : Power → Power) (c : Ctl) : (onPwr u c).coreMove = c.coreMove := rfl
@[simp] theorem onPwr_step (u : Power → Power) (c : Ctl) : (onPwr u c).step = c.step := rfl
@[simp] theorem onPwr_slu (u : Power → Power) (c : Ctl) : (onPwr u c).slu = c.slu := rfl
@[simp] theorem onPwr_host (u : Power → Power) (c : Ctl) : (onPwr u c).host = c.host := rfl
@[simp] theorem onPwr_chip (u : Power → Power) (c : Ctl) : (onPwr u c).chip = c.chip := rfl
@[simp] theorem onPwr_treadles (u : Power → Power) (c : Ctl) : (onPwr u c).treadles = c.treadles := rfl
@[simp] theorem onPwr_delayed (u : Power → Power) (c : Ctl) : (onPwr u c).delayed = c.delayed := rfl
@[simp] theorem onPwr_consumed (u : Power → Power) (c : Ctl) : (onPwr u c).consumed = c.consumed := rfl
@[simp] theorem onPwr_progCores (u : Power → Power) (c : Ctl) : (onPwr u c).progCores = c.progCores := rfl
@[simp] theorem onPwr_probLists (u : Power → Power) (c : Ctl) : (onPwr u c).probLists = c.probLists := rfl
@[simp] theorem onPwr_copying (u : Power → Power) (c : Ctl) : (onPwr u c).copying = c.copying := rfl
@[simp] theorem onPwr_trace (u : Power → Power) (c : Ctl) : (onPwr u c).trace = c.trace := rfl
@[simp] theorem onPwr_reqs (u : Power → Power) (c : Ctl) : (onPwr u c).reqs = c.reqs := rfl
@[simp] theorem onPwr_nextTag (u : Power → Power) (c : Ctl) : (onPwr u c).nextTag = c.nextTag := rfl
@[simp] theorem onPwr_heldReads (u : Power → Power) (c : Ctl) : (onPwr u c).heldReads = c.heldReads := rfl
@[simp] theorem onPwr_flows (u : Power → Power) (c : Ctl) : (onPwr u c).flows = c.flows := rfl
@[simp] theorem onPwr_txq (u : Power → Power) (c : Ctl) : (onPwr u c).txq = c.txq := rfl
@[simp] theorem onPwr_waitq (u : Power → Power) (c : Ctl) : (onPwr u c).waitq = c.waitq := rfl
@[simp] theorem onPwr_ingress (u : Power → Power) (c : Ctl) : (onPwr u c).ingress = c.ingress := rfl
@[simp] theorem onPwr_turn (u : Power → Power) (c : Ctl) : (onPwr u c).turn = c.turn := rfl
@[simp] theorem onPwr_ten (u : Power → Power) (c : Ctl) : (onPwr u c).ten = c.ten := rfl
@[simp] theorem onPwr_lfsr (u : Power → Power) (c : Ctl) : (onPwr u c).lfsr = c.lfsr := rfl
@[simp] theorem onPwr_tenKey (u : Power → Power) (c : Ctl) : (onPwr u c).tenKey = c.tenKey := rfl
@[simp] theorem onPwr_jitter (u : Power → Power) (c : Ctl) : (onPwr u c).jitter = c.jitter := rfl
@[simp] theorem onPwr_job (u : Power → Power) (c : Ctl) : (onPwr u c).job = c.job := rfl
@[simp] theorem onPwr_peers (u : Power → Power) (c : Ctl) : (onPwr u c).peers = c.peers := rfl
@[simp] theorem onPwr_time (u : Power → Power) (c : Ctl) : (onPwr u c).time = c.time := rfl
@[simp] theorem onPwr_place (u : Power → Power) (c : Ctl) : (onPwr u c).place = c.place := rfl
@[simp] theorem onPwr_ports (u : Power → Power) (c : Ctl) : (onPwr u c).ports = c.ports := rfl
@[simp] theorem onPwr_ticks (u : Power → Power) (c : Ctl) : (onPwr u c).ticks = c.ticks := rfl
@[simp] theorem onPwr_poison (u : Power → Power) (c : Ctl) : (onPwr u c).poison = c.poison := rfl
@[simp] theorem onPwr_bad (u : Power → Power) (c : Ctl) : (onPwr u c).bad = c.bad := rfl
@[simp] theorem onPwr_soft (u : Power → Power) (c : Ctl) : (onPwr u c).soft = c.soft := rfl
@[simp] theorem onPwr_acc (u : Power → Power) (c : Ctl) : (onPwr u c).acc = c.acc := rfl
@[simp] theorem onPwr_accGen (u : Power → Power) (c : Ctl) : (onPwr u c).accGen = c.accGen := rfl
@[simp] theorem onPwr_gov (u : Power → Power) (c : Ctl) : (onPwr u c).gov = c.gov := rfl
@[simp] theorem onPwr_coll (u : Power → Power) (c : Ctl) : (onPwr u c).coll = c.coll := rfl
@[simp] theorem onPwr_snap (u : Power → Power) (c : Ctl) : (onPwr u c).snap = c.snap := rfl
@[simp] theorem onPwr_ret (u : Power → Power) (c : Ctl) : (onPwr u c).ret = c.ret := rfl
@[simp] theorem onPwr_fan (u : Power → Power) (c : Ctl) : (onPwr u c).fan = c.fan := rfl
@[simp] theorem onPwr_flash (u : Power → Power) (c : Ctl) : (onPwr u c).flash = c.flash := rfl
@[simp] theorem onPwr_fw (u : Power → Power) (c : Ctl) : (onPwr u c).fw = c.fw := rfl
@[simp] theorem onPwr_att (u : Power → Power) (c : Ctl) : (onPwr u c).att = c.att := rfl
@[simp] theorem onPwr_draft (u : Power → Power) (c : Ctl) : (onPwr u c).draft = c.draft := rfl
@[simp] theorem onPwr_fresh (u : Power → Power) (c : Ctl) : (onPwr u c).fresh = c.fresh := rfl

/-- An update of a typed field leaves the registers as they were. -/
@[simp] theorem getReg_onStep (u : StepSt → StepSt) (c : Ctl) (o : Nat) : getReg (onStep u c) o = getReg c o := rfl
@[simp] theorem getF_onStep (u : StepSt → StepSt) (c : Ctl) (g : Fld) : getF (onStep u c) g = getF c g := rfl
@[simp] theorem getReg_onSlu (u : Sluice → Sluice) (c : Ctl) (o : Nat) : getReg (onSlu u c) o = getReg c o := rfl
@[simp] theorem getF_onSlu (u : Sluice → Sluice) (c : Ctl) (g : Fld) : getF (onSlu u c) g = getF c g := rfl
@[simp] theorem getReg_onHost (u : HostPort → HostPort) (c : Ctl) (o : Nat) : getReg (onHost u c) o = getReg c o := rfl
@[simp] theorem getF_onHost (u : HostPort → HostPort) (c : Ctl) (g : Fld) : getF (onHost u c) g = getF c g := rfl
@[simp] theorem getReg_onTime (u : TimeSt → TimeSt) (c : Ctl) (o : Nat) : getReg (onTime u c) o = getReg c o := rfl
@[simp] theorem getF_onTime (u : TimeSt → TimeSt) (c : Ctl) (g : Fld) : getF (onTime u c) g = getF c g := rfl
@[simp] theorem getReg_onColl (u : CollSt → CollSt) (c : Ctl) (o : Nat) : getReg (onColl u c) o = getReg c o := rfl
@[simp] theorem getF_onColl (u : CollSt → CollSt) (c : Ctl) (g : Fld) : getF (onColl u c) g = getF c g := rfl
@[simp] theorem getReg_onSnap (u : SnapSt → SnapSt) (c : Ctl) (o : Nat) : getReg (onSnap u c) o = getReg c o := rfl
@[simp] theorem getF_onSnap (u : SnapSt → SnapSt) (c : Ctl) (g : Fld) : getF (onSnap u c) g = getF c g := rfl
@[simp] theorem getReg_onRet (u : Retain → Retain) (c : Ctl) (o : Nat) : getReg (onRet u c) o = getReg c o := rfl
@[simp] theorem getF_onRet (u : Retain → Retain) (c : Ctl) (g : Fld) : getF (onRet u c) g = getF c g := rfl
@[simp] theorem getReg_onFan (u : FanSt → FanSt) (c : Ctl) (o : Nat) : getReg (onFan u c) o = getReg c o := rfl
@[simp] theorem getF_onFan (u : FanSt → FanSt) (c : Ctl) (g : Fld) : getF (onFan u c) g = getF c g := rfl
@[simp] theorem getReg_onFw (u : FwSt → FwSt) (c : Ctl) (o : Nat) : getReg (onFw u c) o = getReg c o := rfl
@[simp] theorem getF_onFw (u : FwSt → FwSt) (c : Ctl) (g : Fld) : getF (onFw u c) g = getF c g := rfl
@[simp] theorem getReg_onPwr (u : Power → Power) (c : Ctl) (o : Nat) : getReg (onPwr u c) o = getReg c o := rfl
@[simp] theorem getF_onPwr (u : Power → Power) (c : Ctl) (g : Fld) : getF (onPwr u c) g = getF c g := rfl

@[simp] theorem onCtl_c (f : Ctl → Ctl) (d : Dev) : (onCtl f d).c = f d.c := rfl
@[simp] theorem onCtl_store (f : Ctl → Ctl) (d : Dev) : (onCtl f d).m = d.m := rfl
@[simp] theorem onDev_dev (f : Dev → Dev) (s : State) : (onDev f s).dev = f s.dev := rfl
@[simp] theorem onDev_pending (f : Dev → Dev) (s : State) : (onDev f s).pending = s.pending := rfl

/-- A control command while the module runs. -/
theorem runCtl_running (f : Ctl → Ctl) (s : State) (h : running s.dev.c = true) : runCtl f s = .next { s with dev := { s.dev with c := f s.dev.c } } := by
  simp [runCtl, h, onDev, onCtl]

/-- A device command while the module runs. -/
theorem runDev_running (f : Dev → Dev) (s : State) (h : running s.dev.c = true) : runDev f s = .next { s with dev := f s.dev } := by
  simp [runDev, h, onDev]

/-- A control command while the module does not run. -/
theorem runCtl_off (f : Ctl → Ctl) (s : State) (h : running s.dev.c = false) : runCtl f s = .next s := by
  simp [runCtl, h]

/-- A device command while the module does not run. -/
theorem runDev_off (f : Dev → Dev) (s : State) (h : running s.dev.c = false) : runDev f s = .next s := by
  simp [runDev, h]

end Sys2Proof.Machine
end

