-- ==== Sys2Proof/Laws/Events.lean ====
section
/-! SUPPORT. Interrupts and events: a cause, a record and an MSI-X message touch three register words and the host port's queues, nothing else. -/

namespace Sys2Proof.Machine

/-- The words that raising a cause or a record may write. -/
def noticeWords : List Nat := [R.IRQ_STATUS.adr, R.EVT_STATUS.DROPS.off, pbaOff]

/-- Two control states that differ in registers and the host port alone. -/
def HostOnly (c t : Ctl) : Prop := t = { c with regs := t.regs, host := t.host }

/-- `t` differs from `c` in the notice words and the host port alone. -/
def NoticeOnly (c t : Ctl) : Prop := HostOnly c t ∧ ∀ o, o ∉ noticeWords → getReg t o = getReg c o

theorem NoticeOnly.refl (c : Ctl) : NoticeOnly c c := ⟨rfl, fun _ _ => rfl⟩

theorem HostOnly.trans {a b c : Ctl} (h : HostOnly a b) (k : HostOnly b c) : HostOnly a c := by
  unfold HostOnly at *
  rw [h] at k
  exact k

theorem NoticeOnly.trans {a b c : Ctl} (h : NoticeOnly a b) (k : NoticeOnly b c) : NoticeOnly a c :=
  ⟨h.1.trans k.1, fun o ho => (k.2 o ho).trans (h.2 o ho)⟩

/-- A notice word written. -/
theorem NoticeOnly.setReg (c : Ctl) (o : Nat) (v : Dword) (h : o ∈ noticeWords) : NoticeOnly c (setReg o v c) :=
  ⟨rfl, fun _ ho => getReg_setReg_ne v c (fun e => ho (e ▸ h))⟩

/-- The host port updated. -/
theorem NoticeOnly.host (c : Ctl) (h : HostPort) : NoticeOnly c { c with host := h } := ⟨rfl, fun _ _ => rfl⟩

/-- An MSI-X message goes to the queue, or stays pending in the pending-bit word. -/
theorem msixSend_notice (v : Nat) (c : Ctl) : NoticeOnly c (msixSend v c) := by
  unfold msixSend
  split
  · exact .host _ _
  · exact .setReg _ _ _ (by simp [noticeWords])

/-- A cause sets its IRQ_STATUS bit and may send a message. -/
theorem cause_notice (v : Nat) (c : Ctl) : NoticeOnly c (cause v c) := by
  unfold cause
  split
  · exact .refl c
  · simp only []
    split
    · exact .trans (.setReg c _ _ (by simp [noticeWords])) (msixSend_notice _ _)
    · exact .setReg c _ _ (by simp [noticeWords])

/-- A record enters the queue, or is dropped and counted. -/
theorem eventPush_notice (e : Event) (c : Ctl) : NoticeOnly c (eventPush e c) := by
  unfold eventPush
  split
  · exact .setReg c _ _ (by simp [noticeWords])
  · simp only []
    have h := NoticeOnly.trans (.host c { c.host with evq := c.host.evq ++ [e] }) (cause_notice (e.dw0.toNat % 16) _)
    unfold evtLevel
    split
    · exact h.trans (cause_notice _ _)
    · exact h

/-- A record is raised, or gathered with the others of its cycle. -/
theorem raiseAt_notice (b s cls sub src detail : Nat) (c : Ctl) : NoticeOnly c (raiseAt b s cls sub src detail c) := by
  unfold raiseAt
  simp only []
  split
  · exact .host _ _
  · exact eventPush_notice _ _

theorem raise_notice (cls sub src detail : Nat) (c : Ctl) : NoticeOnly c (raise cls sub src detail c) := raiseAt_notice _ _ _ _ _ _ _

theorem raiseLinkPeer_notice (sub src peer extra : Nat) (c : Ctl) : NoticeOnly c (raiseLinkPeer sub src peer extra c) := raise_notice _ _ _ _ _

/-- A register field outside the notice words reads as before. -/
theorem NoticeOnly.getF {c t : Ctl} (h : NoticeOnly c t) (f : Fld) (hf : f.off ∉ noticeWords) : getF t f = Machine.getF c f := by
  simp [Machine.getF, h.2 _ hf]

theorem NoticeOnly.getB {c t : Ctl} (h : NoticeOnly c t) (f : Fld) (hf : f.off ∉ noticeWords) : getB t f = Machine.getB c f := by
  simp [Machine.getB, h.getF f hf]

@[simp] theorem cause_fuses (v : Nat) (c : Ctl) : (cause v c).fuses = c.fuses := by rw [(cause_notice v c).1]
@[simp] theorem cause_pwr (v : Nat) (c : Ctl) : (cause v c).pwr = c.pwr := by rw [(cause_notice v c).1]
@[simp] theorem cause_cores (v : Nat) (c : Ctl) : (cause v c).cores = c.cores := by rw [(cause_notice v c).1]
@[simp] theorem cause_coreMove (v : Nat) (c : Ctl) : (cause v c).coreMove = c.coreMove := by rw [(cause_notice v c).1]
@[simp] theorem cause_step (v : Nat) (c : Ctl) : (cause v c).step = c.step := by rw [(cause_notice v c).1]
@[simp] theorem cause_slu (v : Nat) (c : Ctl) : (cause v c).slu = c.slu := by rw [(cause_notice v c).1]
@[simp] theorem cause_chip (v : Nat) (c : Ctl) : (cause v c).chip = c.chip := by rw [(cause_notice v c).1]
@[simp] theorem cause_treadles (v : Nat) (c : Ctl) : (cause v c).treadles = c.treadles := by rw [(cause_notice v c).1]
@[simp] theorem cause_delayed (v : Nat) (c : Ctl) : (cause v c).delayed = c.delayed := by rw [(cause_notice v c).1]
@[simp] theorem cause_consumed (v : Nat) (c : Ctl) : (cause v c).consumed = c.consumed := by rw [(cause_notice v c).1]
@[simp] theorem cause_progCores (v : Nat) (c : Ctl) : (cause v c).progCores = c.progCores := by rw [(cause_notice v c).1]
@[simp] theorem cause_probLists (v : Nat) (c : Ctl) : (cause v c).probLists = c.probLists := by rw [(cause_notice v c).1]
@[simp] theorem cause_copying (v : Nat) (c : Ctl) : (cause v c).copying = c.copying := by rw [(cause_notice v c).1]
@[simp] theorem cause_trace (v : Nat) (c : Ctl) : (cause v c).trace = c.trace := by rw [(cause_notice v c).1]
@[simp] theorem cause_reqs (v : Nat) (c : Ctl) : (cause v c).reqs = c.reqs := by rw [(cause_notice v c).1]
@[simp] theorem cause_nextTag (v : Nat) (c : Ctl) : (cause v c).nextTag = c.nextTag := by rw [(cause_notice v c).1]
@[simp] theorem cause_heldReads (v : Nat) (c : Ctl) : (cause v c).heldReads = c.heldReads := by rw [(cause_notice v c).1]
@[simp] theorem cause_flows (v : Nat) (c : Ctl) : (cause v c).flows = c.flows := by rw [(cause_notice v c).1]
@[simp] theorem cause_txq (v : Nat) (c : Ctl) : (cause v c).txq = c.txq := by rw [(cause_notice v c).1]
@[simp] theorem cause_waitq (v : Nat) (c : Ctl) : (cause v c).waitq = c.waitq := by rw [(cause_notice v c).1]
@[simp] theorem cause_ingress (v : Nat) (c : Ctl) : (cause v c).ingress = c.ingress := by rw [(cause_notice v c).1]
@[simp] theorem cause_turn (v : Nat) (c : Ctl) : (cause v c).turn = c.turn := by rw [(cause_notice v c).1]
@[simp] theorem cause_ten (v : Nat) (c : Ctl) : (cause v c).ten = c.ten := by rw [(cause_notice v c).1]
@[simp] theorem cause_lfsr (v : Nat) (c : Ctl) : (cause v c).lfsr = c.lfsr := by rw [(cause_notice v c).1]
@[simp] theorem cause_tenKey (v : Nat) (c : Ctl) : (cause v c).tenKey = c.tenKey := by rw [(cause_notice v c).1]
@[simp] theorem cause_jitter (v : Nat) (c : Ctl) : (cause v c).jitter = c.jitter := by rw [(cause_notice v c).1]
@[simp] theorem cause_job (v : Nat) (c : Ctl) : (cause v c).job = c.job := by rw [(cause_notice v c).1]
@[simp] theorem cause_peers (v : Nat) (c : Ctl) : (cause v c).peers = c.peers := by rw [(cause_notice v c).1]
@[simp] theorem cause_time (v : Nat) (c : Ctl) : (cause v c).time = c.time := by rw [(cause_notice v c).1]
@[simp] theorem cause_place (v : Nat) (c : Ctl) : (cause v c).place = c.place := by rw [(cause_notice v c).1]
@[simp] theorem cause_ports (v : Nat) (c : Ctl) : (cause v c).ports = c.ports := by rw [(cause_notice v c).1]
@[simp] theorem cause_ticks (v : Nat) (c : Ctl) : (cause v c).ticks = c.ticks := by rw [(cause_notice v c).1]
@[simp] theorem cause_poison (v : Nat) (c : Ctl) : (cause v c).poison = c.poison := by rw [(cause_notice v c).1]
@[simp] theorem cause_bad (v : Nat) (c : Ctl) : (cause v c).bad = c.bad := by rw [(cause_notice v c).1]
@[simp] theorem cause_soft (v : Nat) (c : Ctl) : (cause v c).soft = c.soft := by rw [(cause_notice v c).1]
@[simp] theorem cause_acc (v : Nat) (c : Ctl) : (cause v c).acc = c.acc := by rw [(cause_notice v c).1]
@[simp] theorem cause_accGen (v : Nat) (c : Ctl) : (cause v c).accGen = c.accGen := by rw [(cause_notice v c).1]
@[simp] theorem cause_gov (v : Nat) (c : Ctl) : (cause v c).gov = c.gov := by rw [(cause_notice v c).1]
@[simp] theorem cause_coll (v : Nat) (c : Ctl) : (cause v c).coll = c.coll := by rw [(cause_notice v c).1]
@[simp] theorem cause_snap (v : Nat) (c : Ctl) : (cause v c).snap = c.snap := by rw [(cause_notice v c).1]
@[simp] theorem cause_ret (v : Nat) (c : Ctl) : (cause v c).ret = c.ret := by rw [(cause_notice v c).1]
@[simp] theorem cause_fan (v : Nat) (c : Ctl) : (cause v c).fan = c.fan := by rw [(cause_notice v c).1]
@[simp] theorem cause_flash (v : Nat) (c : Ctl) : (cause v c).flash = c.flash := by rw [(cause_notice v c).1]
@[simp] theorem cause_fw (v : Nat) (c : Ctl) : (cause v c).fw = c.fw := by rw [(cause_notice v c).1]
@[simp] theorem cause_att (v : Nat) (c : Ctl) : (cause v c).att = c.att := by rw [(cause_notice v c).1]
@[simp] theorem cause_draft (v : Nat) (c : Ctl) : (cause v c).draft = c.draft := by rw [(cause_notice v c).1]
@[simp] theorem cause_fresh (v : Nat) (c : Ctl) : (cause v c).fresh = c.fresh := by rw [(cause_notice v c).1]

@[simp] theorem raise_fuses (k b r e : Nat) (c : Ctl) : (raise k b r e c).fuses = c.fuses := by rw [(raise_notice k b r e c).1]
@[simp] theorem raise_pwr (k b r e : Nat) (c : Ctl) : (raise k b r e c).pwr = c.pwr := by rw [(raise_notice k b r e c).1]
@[simp] theorem raise_cores (k b r e : Nat) (c : Ctl) : (raise k b r e c).cores = c.cores := by rw [(raise_notice k b r e c).1]
@[simp] theorem raise_coreMove (k b r e : Nat) (c : Ctl) : (raise k b r e c).coreMove = c.coreMove := by rw [(raise_notice k b r e c).1]
@[simp] theorem raise_step (k b r e : Nat) (c : Ctl) : (raise k b r e c).step = c.step := by rw [(raise_notice k b r e c).1]
@[simp] theorem raise_slu (k b r e : Nat) (c : Ctl) : (raise k b r e c).slu = c.slu := by rw [(raise_notice k b r e c).1]
@[simp] theorem raise_chip (k b r e : Nat) (c : Ctl) : (raise k b r e c).chip = c.chip := by rw [(raise_notice k b r e c).1]
@[simp] theorem raise_treadles (k b r e : Nat) (c : Ctl) : (raise k b r e c).treadles = c.treadles := by rw [(raise_notice k b r e c).1]
@[simp] theorem raise_delayed (k b r e : Nat) (c : Ctl) : (raise k b r e c).delayed = c.delayed := by rw [(raise_notice k b r e c).1]
@[simp] theorem raise_consumed (k b r e : Nat) (c : Ctl) : (raise k b r e c).consumed = c.consumed := by rw [(raise_notice k b r e c).1]
@[simp] theorem raise_progCores (k b r e : Nat) (c : Ctl) : (raise k b r e c).progCores = c.progCores := by rw [(raise_notice k b r e c).1]
@[simp] theorem raise_probLists (k b r e : Nat) (c : Ctl) : (raise k b r e c).probLists = c.probLists := by rw [(raise_notice k b r e c).1]
@[simp] theorem raise_copying (k b r e : Nat) (c : Ctl) : (raise k b r e c).copying = c.copying := by rw [(raise_notice k b r e c).1]
@[simp] theorem raise_trace (k b r e : Nat) (c : Ctl) : (raise k b r e c).trace = c.trace := by rw [(raise_notice k b r e c).1]
@[simp] theorem raise_reqs (k b r e : Nat) (c : Ctl) : (raise k b r e c).reqs = c.reqs := by rw [(raise_notice k b r e c).1]
@[simp] theorem raise_nextTag (k b r e : Nat) (c : Ctl) : (raise k b r e c).nextTag = c.nextTag := by rw [(raise_notice k b r e c).1]
@[simp] theorem raise_heldReads (k b r e : Nat) (c : Ctl) : (raise k b r e c).heldReads = c.heldReads := by rw [(raise_notice k b r e c).1]
@[simp] theorem raise_flows (k b r e : Nat) (c : Ctl) : (raise k b r e c).flows = c.flows := by rw [(raise_notice k b r e c).1]
@[simp] theorem raise_txq (k b r e : Nat) (c : Ctl) : (raise k b r e c).txq = c.txq := by rw [(raise_notice k b r e c).1]
@[simp] theorem raise_waitq (k b r e : Nat) (c : Ctl) : (raise k b r e c).waitq = c.waitq := by rw [(raise_notice k b r e c).1]
@[simp] theorem raise_ingress (k b r e : Nat) (c : Ctl) : (raise k b r e c).ingress = c.ingress := by rw [(raise_notice k b r e c).1]
@[simp] theorem raise_turn (k b r e : Nat) (c : Ctl) : (raise k b r e c).turn = c.turn := by rw [(raise_notice k b r e c).1]
@[simp] theorem raise_ten (k b r e : Nat) (c : Ctl) : (raise k b r e c).ten = c.ten := by rw [(raise_notice k b r e c).1]
@[simp] theorem raise_lfsr (k b r e : Nat) (c : Ctl) : (raise k b r e c).lfsr = c.lfsr := by rw [(raise_notice k b r e c).1]
@[simp] theorem raise_tenKey (k b r e : Nat) (c : Ctl) : (raise k b r e c).tenKey = c.tenKey := by rw [(raise_notice k b r e c).1]
@[simp] theorem raise_jitter (k b r e : Nat) (c : Ctl) : (raise k b r e c).jitter = c.jitter := by rw [(raise_notice k b r e c).1]
@[simp] theorem raise_job (k b r e : Nat) (c : Ctl) : (raise k b r e c).job = c.job := by rw [(raise_notice k b r e c).1]
@[simp] theorem raise_peers (k b r e : Nat) (c : Ctl) : (raise k b r e c).peers = c.peers := by rw [(raise_notice k b r e c).1]
@[simp] theorem raise_time (k b r e : Nat) (c : Ctl) : (raise k b r e c).time = c.time := by rw [(raise_notice k b r e c).1]
@[simp] theorem raise_place (k b r e : Nat) (c : Ctl) : (raise k b r e c).place = c.place := by rw [(raise_notice k b r e c).1]
@[simp] theorem raise_ports (k b r e : Nat) (c : Ctl) : (raise k b r e c).ports = c.ports := by rw [(raise_notice k b r e c).1]
@[simp] theorem raise_ticks (k b r e : Nat) (c : Ctl) : (raise k b r e c).ticks = c.ticks := by rw [(raise_notice k b r e c).1]
@[simp] theorem raise_poison (k b r e : Nat) (c : Ctl) : (raise k b r e c).poison = c.poison := by rw [(raise_notice k b r e c).1]
@[simp] theorem raise_bad (k b r e : Nat) (c : Ctl) : (raise k b r e c).bad = c.bad := by rw [(raise_notice k b r e c).1]
@[simp] theorem raise_soft (k b r e : Nat) (c : Ctl) : (raise k b r e c).soft = c.soft := by rw [(raise_notice k b r e c).1]
@[simp] theorem raise_acc (k b r e : Nat) (c : Ctl) : (raise k b r e c).acc = c.acc := by rw [(raise_notice k b r e c).1]
@[simp] theorem raise_accGen (k b r e : Nat) (c : Ctl) : (raise k b r e c).accGen = c.accGen := by rw [(raise_notice k b r e c).1]
@[simp] theorem raise_gov (k b r e : Nat) (c : Ctl) : (raise k b r e c).gov = c.gov := by rw [(raise_notice k b r e c).1]
@[simp] theorem raise_coll (k b r e : Nat) (c : Ctl) : (raise k b r e c).coll = c.coll := by rw [(raise_notice k b r e c).1]
@[simp] theorem raise_snap (k b r e : Nat) (c : Ctl) : (raise k b r e c).snap = c.snap := by rw [(raise_notice k b r e c).1]
@[simp] theorem raise_ret (k b r e : Nat) (c : Ctl) : (raise k b r e c).ret = c.ret := by rw [(raise_notice k b r e c).1]
@[simp] theorem raise_fan (k b r e : Nat) (c : Ctl) : (raise k b r e c).fan = c.fan := by rw [(raise_notice k b r e c).1]
@[simp] theorem raise_flash (k b r e : Nat) (c : Ctl) : (raise k b r e c).flash = c.flash := by rw [(raise_notice k b r e c).1]
@[simp] theorem raise_fw (k b r e : Nat) (c : Ctl) : (raise k b r e c).fw = c.fw := by rw [(raise_notice k b r e c).1]
@[simp] theorem raise_att (k b r e : Nat) (c : Ctl) : (raise k b r e c).att = c.att := by rw [(raise_notice k b r e c).1]
@[simp] theorem raise_draft (k b r e : Nat) (c : Ctl) : (raise k b r e c).draft = c.draft := by rw [(raise_notice k b r e c).1]
@[simp] theorem raise_fresh (k b r e : Nat) (c : Ctl) : (raise k b r e c).fresh = c.fresh := by rw [(raise_notice k b r e c).1]

/-! ### Frames -/

/-- What the checks of R255 leave of a frame that meets none of them: misplaned it is accepted and counted, else its flow's alive test remains. -/
theorem selvedge_passes (rx : Rx) (c : Ctl) (m : Member) (hten : c.ten = none) (hport : portHears c rx.port = true)
    (hcrc : frameCrc rx.frame = rx.crc)
    (hm : member c rx.frame.hdr.src.toNat = some m) (h3 : peerIs c rx.frame.hdr.src.toNat 3 = false)
    (hme : some rx.frame.hdr.dst.toNat = c.place.me) (hadm : isAdmission rx.frame.hdr = true ∨ peerIs c rx.frame.hdr.src.toNat 2 = true)
    (hmal : malformed c rx.frame = false) (hver : staleVer c rx.frame.hdr = false) :
    selvedge rx c =
      (let q := (logPort c rx.port).getD 0
       if rx.frame.hdr.port.toNat != q then
         (lpeCount R.LPE_RX.COUNT q (raiseLinkPeer 0x08 (srcPort rx.port) rx.frame.hdr.src.toNat rx.port (satF R.SEL_CNT2.MISPLANE 1 c)), ⟨true, 0⟩)
       else
       let r := aliveTest rx.frame.hdr.src.toNat rx.frame.hdr.cls.toNat q rx.port rx.frame.hdr c
       if r.2.1 then (lpeCount R.LPE_RX.COUNT q r.1, ⟨true, r.2.2⟩) else (r.1, ⟨false, 0⟩)) := by
  have hhit : tenCrcHits c 1 rx.port rx.frame.hdr.cls.toNat = false := by simp [tenCrcHits, tenF, hten]
  have ha : (!isAdmission rx.frame.hdr && !peerIs c rx.frame.hdr.src.toNat 2) = false := by
    rcases hadm with h | h <;> simp [h]
  simp [selvedge, hport, hhit, hcrc, hm, h3, hme, ha, hmal, hver]

/-- A frame that no delay holds and that passes every check of R255 goes to its handler. -/
theorem arrive_delivered (s : State) (cls type : Nat) (rx : Rx) (c : Ctl) (h : Handler) (hd : Delivered s cls type rx c) :
    runDev (arrive cls type h rx) s = .next { s with dev := h 0 (rx.typed cls type) { s.dev with c := c } } := by
  obtain ⟨h1, h2, h3⟩ := hd
  have h2' : ingressHolds s.dev.c (rx.typed cls type).port = false := h2
  rw [runDev_running _ _ h1]
  simp [arrive, h2', receive, h3]

@[simp] theorem typed_peer (rx : Rx) (k y : Nat) : (rx.typed k y).peer = rx.peer := rfl
@[simp] theorem typed_tag (rx : Rx) (k y : Nat) : (rx.typed k y).tag = rx.tag := rfl
@[simp] theorem typed_arg (rx : Rx) (k y : Nat) : (rx.typed k y).arg = rx.arg := rfl
@[simp] theorem typed_addr (rx : Rx) (k y : Nat) : (rx.typed k y).addr = rx.addr := rfl
@[simp] theorem typed_status (rx : Rx) (k y : Nat) : (rx.typed k y).status = rx.status := rfl
@[simp] theorem typed_word4 (rx : Rx) (k y : Nat) : (rx.typed k y).word4 = rx.word4 := rfl
@[simp] theorem typed_word5 (rx : Rx) (k y : Nat) : (rx.typed k y).word5 = rx.word5 := rfl
@[simp] theorem typed_port (rx : Rx) (k y : Nat) : (rx.typed k y).port = rx.port := rfl
@[simp] theorem typed_time (rx : Rx) (k y : Nat) : (rx.typed k y).time = rx.time := rfl
@[simp] theorem typed_crc (rx : Rx) (k y : Nat) : (rx.typed k y).crc = rx.crc := rfl
@[simp] theorem typed_payload (rx : Rx) (k y : Nat) : (rx.typed k y).frame.payload = rx.frame.payload := rfl

end Sys2Proof.Machine
end

