-- ==== Sys2Proof/Laws/HostPort.lean ====
section
/-! SUPPORT. The host's requests (R187, R450): a port at rest does nothing, and a request that finds it quiet is accepted and carried out at once. -/

namespace Sys2Proof.Machine

/-- A step that changes nothing, repeated. -/
theorem forN_fixed {α : Type} {f : Nat → α → α} {a : α} (n : Nat) (h : ∀ i, f i a = a) : forN n f a = a := by
  unfold forN
  induction List.range n with
  | nil => rfl
  | cons x xs ih => rw [List.foldl_cons, h]; exact ih

/-- Two steps, then one that changes nothing. -/
theorem forN_two {α : Type} {f : α → α} {a b c : α} (n : Nat) (h1 : f a = b) (h2 : f b = c) (h3 : f c = c) : forN (n + 2) (fun _ x => f x) a = c := by
  unfold forN
  rw [List.range_succ_eq_map, List.range_succ_eq_map, List.map_cons, List.foldl_cons, List.foldl_cons]
  show List.foldl (fun a _ => f a) (f (f a)) _ = c
  rw [h1, h2]
  induction (List.map Nat.succ (List.map Nat.succ (List.range n))) with
  | nil => rfl
  | cons x xs ih => rw [List.foldl_cons, h3]; exact ih

/-- Requests that are all under way leave nothing to carry out. -/
theorem opNext_issued (c : Ctl) (l : List PortOp) (h : ∀ o ∈ l, o.issued = true) : ∀ b, opNext c b l = none := by
  induction l with
  | nil => intro b; rfl
  | cons x xs ih =>
    intro b
    have hx : x.issued = true := h x (by simp)
    simp only [opNext, opReady, hx, Bool.not_true, Bool.false_and, Bool.false_eq_true, ↓reduceIte]
    exact ih (fun o ho => h o (by simp [ho])) _

/-- The first request that is ready, behind requests that are all under way. -/
theorem opNext_last (c : Ctl) (l : List PortOp) (x : PortOp) (h : ∀ o ∈ l, o.issued = true) : ∀ b, opReady c (b ++ l) x = true → opNext c b (l ++ [x]) = some x := by
  induction l with
  | nil => intro b hx; simp only [List.append_nil] at hx; simp [opNext, hx]
  | cons y ys ih =>
    intro b hx
    have hy : y.issued = true := h y (by simp)
    simp only [List.cons_append, opNext, opReady, hy, Bool.not_true, Bool.false_and, Bool.false_eq_true, ↓reduceIte]
    exact ih (fun o ho => h o (by simp [ho])) _ (by simpa using hx)

/-- With nothing to carry out or to accept, the port does nothing. -/
theorem portStep_idle {d : Dev} (h1 : ∀ o ∈ d.c.host.ops, o.issued = true) (h2 : d.c.host.backlog = []) : portStep d = d := by
  simp [portStep, opNext_issued d.c _ h1, hostNext, h2]

theorem portRun_idle {d : Dev} (h1 : ∀ o ∈ d.c.host.ops, o.issued = true) (h2 : d.c.host.backlog = []) : portRun d = d :=
  forN_fixed _ (fun _ => portStep_idle h1 h2)

/-- The new number is above every number in the queue. -/
theorem portNum_gt (h : HostPort) : ∀ o ∈ h.ops, o.num < portNum h := by
  unfold portNum
  have mono : ∀ (l : List PortOp) (n : Nat), n ≤ l.foldl (fun n o => max n (o.num + 1)) n := by
    intro l
    induction l with
    | nil => intro n; exact Nat.le_refl _
    | cons x xs ih => intro n; exact Nat.le_trans (Nat.le_max_left _ _) (ih _)
  have key : ∀ (l : List PortOp) (n : Nat), ∀ o ∈ l, o.num < l.foldl (fun n o => max n (o.num + 1)) n := by
    intro l
    induction l with
    | nil => intro n o ho; simp at ho
    | cons x xs ih =>
      intro n o ho
      rcases List.mem_cons.1 ho with rfl | ho
      · exact Nat.lt_of_lt_of_le (Nat.lt_succ_self _) (Nat.le_trans (Nat.le_max_right _ _) (mono _ _))
      · exact ih _ o ho
  exact key _ 0

/-- A request that finds the port quiet is the next that it accepts. -/
theorem hostNext_quiet {c : Ctl} (q : HostReq) (hq : PortQuiet c) : hostNext { c.host with backlog := [q] } = some q := by
  have h0 : c.host.ops.filter (fun o => o.isRead == true) = [] := by
    rw [List.filter_eq_nil_iff]; intro o ho; simp [(hq.2.2 o ho).1]
  have : hasRoom q.isRead { c.host with backlog := [q] } = true := by
    cases hqr : q.isRead
    · simp only [hasRoom, Bool.false_eq_true, ↓reduceIte, decide_eq_true_eq]; exact Nat.lt_of_le_of_lt (List.length_filter_le _ _) hq.2.1
    · simp only [hasRoom, ↓reduceIte, decide_eq_true_eq]; rw [h0]; simp [readMax]
  simp [hostNext, this]

/-- What a request that finds the port quiet comes to: it is accepted, carried out, and leaves the queue as it was. `t` is what carrying it out leaves. -/
theorem hostRequest_quiet {d : Dev} (q : HostReq) (hq : PortQuiet d.c) (hr : hostReaches d.c = true) {x : PortOp} {u t : Dev}
    (hacc : hostAccept q { d.c with host := { d.c.host with backlog := [q] } } = u.c) (hm : u.m = d.m) (hops : u.c.host.ops = d.c.host.ops ++ [x])
    (hready : opReady u.c d.c.host.ops x = true) (hserve : opServe x u = t)
    (ht : ∀ o ∈ t.c.host.ops, o.issued = true) (hb : t.c.host.backlog = []) : hostRequest q d = t := by
  obtain ⟨hback, hroom, hquiet⟩ := hq
  have hi : ∀ o ∈ d.c.host.ops, o.issued = true := fun o ho => (hquiet o ho).2.1
  have hnext := hostNext_quiet q ⟨hback, hroom, hquiet⟩
  simp only [hostRequest, hr, ↓reduceIte, portRun, onCtl, onHost, hback, List.nil_append, List.length_singleton, Nat.mul_one]
  refine forN_two (b := u) _ ?_ ?_ (portStep_idle ht hb)
  · simp only [portStep]
    rw [opNext_issued _ _ hi]
    simp only [hnext, onCtl, hacc]
    cases u; simp_all
  · simp only [portStep, hops]
    rw [opNext_last u.c _ x hi [] (by simpa using hready)]
    exact hserve

/-- Completing the newest request leaves the others. -/
theorem filter_newest (h : HostPort) (x : PortOp) (hx : x.num = portNum h) : (h.ops ++ [x]).filter (fun o => o.num != portNum h) = h.ops := by
  rw [List.filter_append, List.filter_eq_self.2 (fun o ho => by simpa using Nat.ne_of_lt (portNum_gt h o ho))]
  simp [hx]

/-- A BAR0 write of a form that BAR0 takes, at a port that is quiet: it acts at once, and the queue is as before. -/
theorem hostRequest_write {d t : Dev} (off width : Nat) (v : Dword) (hq : PortQuiet d.c) (hr : hostReaches d.c = true) (h3 : d.c.host.d3 = false)
    (hf : portholeForm off width = true) (h : bar0Write off width v d = t) (ht : t.c.host.ops = d.c.host.ops) (hb : t.c.host.backlog = []) :
    hostRequest { isRead := false, bar0 := true, off := off, width := width, data := v } d = t := by
  obtain ⟨hback, hroom, hquiet⟩ := hq
  have hw : width ≠ 0 := by rintro rfl; simp [portholeForm] at hf
  refine hostRequest_quiet (u := onCtl (onHost (fun h => { h with ops := h.ops ++ [{ isRead := false, bar0 := true, addr := off, width := width, data := v, issued := false, unsup := false, num := portNum h }] })) d)
    (x := { isRead := false, bar0 := true, addr := off, width := width, data := v, issued := false, unsup := false, num := portNum d.c.host }) _ ⟨hback, hroom, hquiet⟩ hr ?_ rfl rfl ?_ ?_ ?_ hb
  · simp [hostAccept, h3, hf, onHost, onCtl, portJoin, portNum, hback]
  · simp only [opReady, Bool.not_false, Bool.true_and, Bool.true_or, Bool.and_true]
    simp only [Bool.not_eq_true', Bool.and_eq_false_imp, List.any_eq_false, beq_iff_eq]
    intro hs o ho e
    have := (hquiet o ho).2.2
    have e2 : portReg (onCtl (onHost (fun h => { h with ops := h.ops ++ [{ isRead := false, bar0 := true, addr := off, width := width, data := v, issued := false, unsup := false, num := portNum h }] })) d).c o = portReg d.c o := rfl
    rw [e2, this] at e
    rw [← e] at hs
    simp at hs
  · simp only [opServe, Bool.false_and, Bool.false_eq_true, ↓reduceIte]
    rw [← h]
    congr 1
    simp only [onCtl, portDone, onHost]
    rw [filter_newest _ _ rfl]
  · rw [ht]; exact fun o ho => (hquiet o ho).2.1

/-- A BAR0 read of a form that BAR0 takes, at a port that is quiet: it is answered at once. -/
theorem hostRequest_read {d : Dev} (off width : Nat) (hq : PortQuiet d.c) (hr : hostReaches d.c = true) (h3 : d.c.host.d3 = false)
    (hf : portholeForm off width = true) {v : Dword} {c : Ctl}
    (h : ∀ x : PortOp, x.num = portNum d.c.host → bar0Read off width (onHost (fun h => { h with ops := h.ops ++ [x] }) d.c) = (v, onHost (fun h => { h with ops := h.ops ++ [x] }) c))
    (ht : c.host.ops = d.c.host.ops) (hb : c.host.backlog = []) :
    hostRequest { isRead := true, bar0 := true, off := off, width := width, data := 0 } d = onCtl (fun _ => onHost (fun h => { h with rsp := h.rsp ++ [.data v] }) c) d := by
  obtain ⟨hback, hroom, hquiet⟩ := hq
  have hw : width ≠ 0 := by rintro rfl; simp [portholeForm] at hf
  have hn : portNum c.host = portNum d.c.host := by unfold portNum; rw [ht]
  refine hostRequest_quiet (u := onCtl (onHost (fun h => { h with ops := h.ops ++ [{ isRead := true, bar0 := true, addr := off, width := width, data := 0, issued := false, unsup := false, num := portNum h }] })) d)
    (x := { isRead := true, bar0 := true, addr := off, width := width, data := 0, issued := false, unsup := false, num := portNum d.c.host }) _ ⟨hback, hroom, hquiet⟩ hr ?_ rfl rfl ?_ ?_ ?_ hb
  · simp [hostAccept, h3, hf, onHost, onCtl, portJoin, portNum, hback]
  · simp only [opReady, Bool.not_false, Bool.true_and, Bool.true_or, Bool.and_true, Bool.not_true, Bool.false_or]
    simp only [Bool.not_eq_true', Bool.and_eq_false_imp, List.any_eq_false, beq_iff_eq, Bool.and_eq_true]
    refine ⟨?_, fun o ho => by simp [(hquiet o ho).1]⟩
    intro hs o ho e
    have := (hquiet o ho).2.2
    have e2 : portReg (onCtl (onHost (fun h => { h with ops := h.ops ++ [{ isRead := true, bar0 := true, addr := off, width := width, data := 0, issued := false, unsup := false, num := portNum h }] })) d).c o = portReg d.c o := rfl
    rw [e2, this] at e
    rw [← e] at hs
    simp at hs
  · have e := h { isRead := true, bar0 := true, addr := off, width := width, data := 0, issued := false, unsup := false, num := portNum d.c.host } rfl
    simp only [opServe, Bool.true_and, Bool.false_eq_true, ↓reduceIte, beq_iff_eq, hw, onCtl]
    simp only [onHost] at e ⊢
    rw [e]
    simp only [readDone, hostAnswer, onHost, portDone, ht]
    simp only [← ht, ← hn]
    rw [filter_newest c.host _ rfl]
  · simp only [onCtl, onHost, ht]; exact fun o ho => (hquiet o ho).2.1

/-- A request that the port accepts without taking it into its queue: a write of the wrong form, or in D3hot. -/
theorem hostRequest_discard {d u : Dev} (q : HostReq) (hq : PortQuiet d.c) (hr : hostReaches d.c = true)
    (hacc : hostAccept q { d.c with host := { d.c.host with backlog := [q] } } = u.c) (hm : u.m = d.m) (hops : u.c.host.ops = d.c.host.ops)
    (hb : u.c.host.backlog = []) : hostRequest q d = u := by
  have hi : ∀ o ∈ d.c.host.ops, o.issued = true := fun o ho => (hq.2.2 o ho).2.1
  have hu : portStep u = u := portStep_idle (by rw [hops]; exact hi) hb
  simp only [hostRequest, hr, ↓reduceIte, portRun, onCtl, onHost, hq.1, List.nil_append, List.length_singleton, Nat.mul_one]
  refine forN_two (b := u) _ ?_ hu hu
  simp only [portStep]
  rw [opNext_issued _ _ hi]
  simp only [hostNext_quiet q hq, onCtl, hacc]
  cases u; simp_all

/-- In D3hot a write is an Unsupported Request, and a read is answered so (R448). -/
theorem hostRequest_d3_write {d : Dev} (q : HostReq) (hq : PortQuiet d.c) (hr : hostReaches d.c = true) (h3 : d.c.host.d3 = true) (hw : q.isRead = false) :
    hostRequest q d = onCtl (hostUnsupported false) d :=
  hostRequest_discard q hq hr (by simp [hostAccept, h3, hw, onCtl, onHost, hostUnsupported, hq.1]) rfl rfl hq.1

theorem hostRequest_d3_read {d : Dev} (q : HostReq) (hq : PortQuiet d.c) (hr : hostReaches d.c = true) (h3 : d.c.host.d3 = true) (hw : q.isRead = true) :
    hostRequest q d = onCtl (fun c => onHost (fun h => { h with rsp := h.rsp ++ [.unsupported] }) (hostUnsupported true c)) d := by
  let x : PortOp := { isRead := true, bar0 := true, addr := 0, width := 0, data := 0, issued := false, unsup := true, num := portNum d.c.host }
  refine hostRequest_quiet (x := x) (u := onCtl (fun c => onHost (fun h => { h with ops := h.ops ++ [x] }) (hostUnsupported true c)) d) q hq hr ?_ rfl rfl ?_ ?_ ?_ hq.1
  · simp [hostAccept, h3, hw, onCtl, onHost, hostUnsupported, hq.1, portJoin, portNum, x]
  · simp only [opReady, x, portReg, Bool.true_or, ↓reduceIte, Option.isSome_none, Bool.false_and, Bool.not_false, Bool.and_self, Bool.not_true, Bool.false_or, Bool.and_true,
      Bool.true_and, Bool.not_eq_true', List.any_eq_false]
    exact fun o ho => by simp [(hq.2.2 o ho).1]
  · simp only [opServe, x, ↓reduceIte, onCtl, portDone, onHost, hostUnsupported]
    rw [filter_newest d.c.host _ rfl]
  · exact fun o ho => (hq.2.2 o ho).2.1

end Sys2Proof.Machine
end

