-- ==== Sys2Proof/Laws/Memory.lean ====
section
/-! SUPPORT. Memory: a read after a write, and that every operation over memory keeps the canonical form. -/

namespace Sys2Proof.Machine

theorem Memory.wf_iff (m : Store) : Memory.wf m = true ↔ Tab.rising m.cells = true ∧ ∀ x ∈ m.cells, x.2 ≠ storeDefault m.gen x.1 := by
  simp [Memory.wf]

/-- Entries of two tables: those of the first stand before those of the second. -/
theorem look_append {α : Type} (j : Nat) (b : Tab α) : ∀ a : Tab α, Tab.look (a ++ b) j = (Tab.look a j).or (Tab.look b j)
  | [] => rfl
  | (k, v) :: a => by
    simp only [List.cons_append, Tab.look]
    split
    · rfl
    · exact look_append j b a

/-- Leaving entries out by key leaves the others. -/
theorem look_filter {α : Type} (p : Nat → Bool) (j : Nat) : ∀ t : Tab α, Tab.look (t.filter (fun x => p x.1)) j = if p j then Tab.look t j else none
  | [] => by simp [Tab.look]
  | (k, v) :: t => by
    simp only [List.filter]
    split
    · simp only [Tab.look, look_filter p j t]
      split <;> simp_all
    · rw [look_filter p j t]
      simp only [Tab.look]
      split
      · split <;> simp_all
      · rfl

/-- The entries of bytes written lie where they are written. -/
theorem look_listed_out {j : Nat} (gen : Nat) : ∀ (bs : List Byte) (k : Nat), (j < k ∨ k + bs.length ≤ j) → Tab.look (listed gen k bs) j = none
  | [], _, _ => rfl
  | b :: bs, k, h => by
    simp only [List.length_cons] at h
    have ih := look_listed_out (j := j) gen bs (k + 1) (by omega)
    unfold listed
    split
    · exact ih
    · simp only [Tab.look, ih]
      split
      · omega
      · rfl

/-- A byte written is listed, or an unlisted key reads as it. -/
theorem look_listed_in (gen : Nat) : ∀ (bs : List Byte) (k i : Nat) (h : i < bs.length),
    (Tab.look (listed gen k bs) (k + i)).getD (storeDefault gen (k + i)) = bs[i]
  | b :: bs, k, 0, _ => by
    unfold listed
    split
    · rw [Nat.add_zero, look_listed_out gen bs (k + 1) (by omega)]
      simp_all
    · simp [Tab.look]
  | b :: bs, k, i + 1, h => by
    have ih := look_listed_in gen bs (k + 1) i (by simpa using h)
    have hk : k + 1 + i = k + (i + 1) := by omega
    rw [hk] at ih
    unfold listed
    split
    · simpa using ih
    · simp only [Tab.look]
      split
      · omega
      · simpa using ih

/-- What a key holds after bytes have been written. -/
theorem storeGet_eq (m : Store) (j : Nat) : storeGet m j = (Tab.look m.cells j).getD (storeDefault m.gen j) := by
  unfold storeGet
  split <;> simp [*]

/-- Writing bytes leaves every byte outside them as it was. -/
theorem storeGet_writeBytes_out {j : Nat} (bs : List Byte) (m : Store) (k : Nat) (h : j < k ∨ k + bs.length ≤ j) :
    storeGet (writeBytes m k bs) j = storeGet m j := by
  simp only [storeGet_eq, writeBytes, look_append, look_listed_out m.gen bs k h, look_filter (fun x => decide (x < k)),
    look_filter (fun x => decide (k + bs.length ≤ x)), decide_eq_true_eq]
  rcases h with h | h
  · simp [h, show ¬ k + bs.length ≤ j by omega]
  · simp [h, show ¬ j < k by omega]

/-- A byte just written reads back. -/
theorem storeGet_writeBytes_in (bs : List Byte) (m : Store) (k i : Nat) (h : i < bs.length) : storeGet (writeBytes m k bs) (k + i) = bs[i] := by
  simp only [storeGet_eq, writeBytes, look_append, look_filter (fun x => decide (x < k)), look_filter (fun x => decide (k + bs.length ≤ x)),
    decide_eq_true_eq, show ¬ k + i < k by omega, show ¬ k + bs.length ≤ k + i by omega]
  simpa using look_listed_in m.gen bs k i h

/-- The bytes of consecutive keys. -/
theorem readBytes_eq (m : Store) (k : Nat) : ∀ n, readBytes m k n = (List.range n).map (fun i => storeGet m (k + i))
  | 0 => rfl
  | n + 1 => by
    rw [readBytes, readBytes_eq m (k + 1) n, List.range_succ_eq_map]
    simp [Nat.add_comm, Nat.add_left_comm]

/-- Bytes just written read back. -/
theorem readBytes_writeBytes (bs : List Byte) (m : Store) (k : Nat) : readBytes (writeBytes m k bs) k bs.length = bs := by
  rw [readBytes_eq]
  apply List.ext_getElem
  · simp
  · intro i h1 h2
    simp [storeGet_writeBytes_in bs m k i h2]

/-- The entries of bytes written, with the keys they may have. -/
theorem mem_listed {gen : Nat} {x : Host.Cell} : ∀ {bs : List Byte} {k : Nat}, x ∈ listed gen k bs →
    k ≤ x.1 ∧ x.1 < k + bs.length ∧ x.2 ≠ storeDefault gen x.1
  | b :: bs, k, h => by
    unfold listed at h
    simp only [List.length_cons]
    split at h
    · have := mem_listed h
      exact ⟨by omega, by omega, this.2.2⟩
    · rcases List.mem_cons.1 h with h | h
      · subst h
        exact ⟨by simp, by simp, by assumption⟩
      · have := mem_listed h
        exact ⟨by omega, by omega, this.2.2⟩

/-- The keys of bytes written rise. -/
theorem listed_above (gen : Nat) : ∀ (bs : List Byte) (k lo : Nat), lo < k → Tab.above lo (listed gen k bs)
  | [], _, _, _ => trivial
  | b :: bs, k, lo, h => by
    unfold listed
    split
    · exact listed_above gen bs (k + 1) lo (by omega)
    · exact ⟨h, listed_above gen bs (k + 1) k (by omega)⟩

/-- A table whose keys rise lies above a bound where its keys do. -/
theorem above_of_rising {α : Type} {lo : Nat} : ∀ {t : Tab α}, Tab.rising t = true → (∀ x ∈ t, lo < x.1) → Tab.above lo t
  | [], _, _ => trivial
  | (k, v) :: t, h, hl => ⟨hl _ List.mem_cons_self, (Tab.rising_cons k v t).1 h⟩

/-- Two tables whose keys rise, the second above the first. -/
theorem rising_append {α : Type} {b : Tab α} (hb : Tab.rising b = true) : ∀ {a : Tab α}, Tab.rising a = true →
    (∀ x ∈ a, ∀ y ∈ b, x.1 < y.1) → Tab.rising (a ++ b) = true
  | [], _, _ => hb
  | (k, v) :: a, ha, hab => by
    rw [List.cons_append, Tab.rising_cons]
    have ha' := (Tab.rising_cons k v a).1 ha
    refine above_of_rising (rising_append hb (Tab.rising_of_above ha') (fun x hx => hab x (List.mem_cons_of_mem _ hx))) (fun x hx => ?_)
    rcases List.mem_append.1 hx with hx | hx
    · exact Tab.lt_of_above ha' hx
    · exact hab _ List.mem_cons_self x hx

/-- Writing bytes keeps the canonical form. -/
@[simp] theorem writeBytes_wf (bs : List Byte) {m : Store} (k : Nat) (h : Memory.wf m = true) : Memory.wf (writeBytes m k bs) = true := by
  rw [Memory.wf_iff] at h ⊢
  obtain ⟨hr, hd⟩ := h
  have hl : Tab.rising (listed m.gen k bs) = true := by
    cases k with
    | zero =>
      cases bs with
      | nil => rfl
      | cons b bs =>
        unfold listed
        split
        · exact Tab.rising_of_above (listed_above m.gen bs 1 0 (by omega))
        · exact (Tab.rising_cons _ _ _).2 (listed_above m.gen bs 1 0 (by omega))
    | succ k => exact Tab.rising_of_above (listed_above m.gen bs (k + 1) k (by omega))
  refine ⟨rising_append (rising_append (Tab.rising_filter _ hr) hl ?_) (Tab.rising_filter _ hr) ?_, ?_⟩
  · intro x hx y hy
    have := mem_listed hx
    have := (List.mem_filter.1 hy).2
    simp at this
    omega
  · intro x hx y hy
    have hx := (List.mem_filter.1 hx).2
    simp at hx
    rcases List.mem_append.1 hy with hy | hy
    · have := mem_listed hy; omega
    · have := (List.mem_filter.1 hy).2
      simp at this
      omega
  · intro x hx
    simp only [writeBytes, List.mem_append] at hx
    rcases hx with hx | hx | hx
    · exact hd x (List.mem_filter.1 hx).1
    · exact (mem_listed hx).2.2
    · exact hd x (List.mem_filter.1 hx).1

/-- The device one of a pair, or of a triple, has its memory in canonical form. -/
abbrev okFst {α : Type} (x : Dev × α) : Prop := Dev.ok x.1
abbrev okSnd {α : Type} (x : α × Dev) : Prop := Dev.ok x.2
abbrev okThird {α β : Type} (x : α × β × Dev) : Prop := Dev.ok x.2.2

/-- A change of control state leaves memory as it was. -/
theorem onCtl_m (f : Ctl → Ctl) (d : Dev) : (onCtl f d).m = d.m := rfl

/-- A change of control state keeps memory's canonical form. -/
theorem onCtl_ok {d : Dev} (f : Ctl → Ctl) (h : Dev.ok d) : Dev.ok (onCtl f d) := h

theorem inCycleDev_ok {d : Dev} (f : Dev → Dev) (h : Dev.ok d) (hf : ∀ d, Dev.ok d → Dev.ok (f d)) : Dev.ok (inCycleDev f d) := by
  unfold inCycleDev
  split
  · exact hf _ h
  · exact onCtl_ok _ (hf _ (onCtl_ok _ h))

/-- A device with another control state and the memory of a device. -/
theorem ok_ctl (c : Ctl) (d : Dev) : Dev.ok { c := c, m := d.m } ↔ Dev.ok d := ⟨fun h => h, fun h => h⟩

theorem ok_mk (c : Ctl) (m : Store) : Dev.ok { c := c, m := m } ↔ Memory.wf m = true := ⟨fun h => h, fun h => h⟩

theorem okFst_mk {α : Type} (d : Dev) (x : α) : okFst (d, x) ↔ Dev.ok d := ⟨fun h => h, fun h => h⟩

theorem okSnd_mk {α : Type} (d : Dev) (x : α) : okSnd (x, d) ↔ Dev.ok d := ⟨fun h => h, fun h => h⟩

theorem okThird_mk {α β : Type} (d : Dev) (x : α) (y : β) : okThird (x, y, d) ↔ Dev.ok d := ⟨fun h => h, fun h => h⟩

theorem ok_store {d : Dev} (h : Dev.ok d) : Memory.wf d.m = true := h

/-- A fold keeps what each of its steps keeps. -/
theorem foldl_keeps {α β : Type} (P : β → Prop) {f : β → α → β} : ∀ (l : List α) {b : β}, (∀ b a, P b → P (f b a)) → P b → P (l.foldl f b)
  | [], _, _, h => h
  | a :: l, _, hf, h => foldl_keeps P l hf (hf _ a h)

/-- A counted loop keeps what its body keeps. -/
theorem forN_keeps {β : Type} (P : β → Prop) (n : Nat) {f : Nat → β → β} {b : β} (hf : ∀ i b, P b → P (f i b)) (h : P b) : P (forN n f b) :=
  foldl_keeps P _ (fun b a hb => hf a b hb) h

theorem mirrorStore_wf {m : Store} (c : Ctl) (p o : Nat) (k : Nat → Nat) (data : List Byte) (h : Memory.wf m = true) :
    Memory.wf (mirrorStore c p o k data m) = true := by
  unfold mirrorStore
  split
  · split
    · exact writeBytes_wf _ _ h
    · exact h
  · exact h

theorem writeCore_wf {m : Store} (c : Ctl) (p o : Nat) (data : List Byte) (h : Memory.wf m = true) :
    Memory.wf (writeCore c p o data m) = true := by
  unfold writeCore
  exact mirrorStore_wf _ _ _ _ _ (writeBytes_wf _ _ h)

theorem writePick_wf {m : Store} (c : Ctl) (p o : Nat) (data : List Byte) (h : Memory.wf m = true) :
    Memory.wf (writePick c p o data m) = true := by
  unfold writePick
  exact mirrorStore_wf _ _ _ _ _ (writeBytes_wf _ _ h)

theorem copyGranule_ok {d : Dev} (src dst : Nat) (h : Dev.ok d) : okFst (copyGranule src dst d) := by
  unfold copyGranule
  simp only [okFst_mk]
  exact writeBytes_wf _ _ (ok_store h)

end Sys2Proof.Machine
end

