-- ==== Sys2Proof/Laws/Keep.lean ====
section
/-! SUPPORT. Every operation of the model that touches memory keeps its canonical form: one lemma for each function that answers a device, in the order of the model's files. -/

namespace Sys2Proof.Machine

theorem putGranule_ok (dst : Nat) (bs : List Byte) (bad : Bool) {d : Dev} (h : Dev.ok d) : Dev.ok (putGranule dst bs bad d) := by
  unfold putGranule
  repeat' (first | split | dsimp only)
  all_goals (with_reducible repeat' (first | exact h | assumption | apply writeBytes_wf | simp only [ok_ctl] | simp only [ok_mk] | apply ok_store | intro _ | split | dsimp only))

theorem snapGranule_ok (a : Nat) (dst : Nat) {d : Dev} (h : Dev.ok d) : Dev.ok (snapGranule a dst d) := by
  unfold snapGranule
  repeat' (first | split | dsimp only)
  all_goals (with_reducible repeat' (first | exact h | assumption | apply onCtl_ok | apply copyGranule_ok | intro _ | split | dsimp only))

theorem copyLine_ok (i : Nat) {d : Dev} (h : Dev.ok d) : Dev.ok (copyLine i d) := by
  unfold copyLine
  repeat' (first | split | dsimp only)
  all_goals (with_reducible repeat' (first | exact h | assumption | apply snapGranule_ok | (refine forN_keeps Dev.ok _ (fun _ _ _ => ?_) ?_) | simp only [ok_ctl] | simp only [ok_mk] | intro _ | split | dsimp only))

theorem forcedCopy_ok (a : Nat) {d : Dev} (h : Dev.ok d) : Dev.ok (forcedCopy a d) := by
  unfold forcedCopy
  repeat' (first | split | dsimp only)
  all_goals (with_reducible repeat' (first | exact h | assumption | apply onCtl_ok | apply copyLine_ok | intro _ | split | dsimp only))

theorem performAt_ok (key : Nat) (data : List Byte) (add : Option Nat) {d : Dev} (h : Dev.ok d) : Dev.ok (performAt key data add d) := by
  unfold performAt
  repeat' (first | split | dsimp only)
  all_goals (with_reducible repeat' (first | exact h | assumption | apply writeBytes_wf | simp only [ok_ctl] | simp only [ok_mk] | apply ok_store | intro _ | split | dsimp only))

theorem performHbm_ok (a : Nat) (data : List Byte) (add : Option Nat) {d : Dev} (h : Dev.ok d) : Dev.ok (performHbm a data add d) := by
  unfold performHbm
  repeat' (first | split | dsimp only)
  all_goals (with_reducible repeat' (first | exact h | assumption | apply onCtl_ok | apply forcedCopy_ok | apply performAt_ok | intro _ | split | dsimp only))

theorem takeSpill_ok (s : Nat) (a : Nat) (home : Nat) {d : Dev} (h : Dev.ok d) : Dev.ok (takeSpill s a home d) := by
  unfold takeSpill
  repeat' (first | split | dsimp only)
  all_goals (with_reducible repeat' (first | exact h | assumption | apply onCtl_ok | apply copyGranule_ok | simp only [ok_ctl] | simp only [ok_mk] | intro _ | split | dsimp only))

theorem holdWrite_ok (s : Nat) (a : Nat) (data : List Byte) (add : Option Nat) (who : HeldFor) {d : Dev} (h : Dev.ok d) : Dev.ok (holdWrite s a data add who d) := by
  unfold holdWrite
  repeat' (first | split | dsimp only)
  all_goals (with_reducible repeat' (first | exact h | assumption | apply onCtl_ok | intro _ | split | dsimp only))

theorem hbmNow_ok (s : Nat) (a : Nat) (data : List Byte) (add : Option Nat) (who : HeldFor) {d : Dev} (h : Dev.ok d) : okFst (hbmNow s a data add who d) := by
  unfold hbmNow
  repeat' (first | split | dsimp only)
  all_goals (with_reducible repeat' (first | exact h | assumption | apply onCtl_ok | apply performHbm_ok | apply takeSpill_ok | apply holdWrite_ok | simp only [okFst_mk] | simp only [ok_ctl] | simp only [ok_mk] | intro _ | split | dsimp only))

theorem writeHbm_ok (s : Nat) (a : Nat) (data : List Byte) (add : Option Nat) (who : HeldFor) {d : Dev} (h : Dev.ok d) : okFst (writeHbm s a data add who d) := by
  unfold writeHbm
  repeat' (first | split | dsimp only)
  all_goals (with_reducible repeat' (first | exact h | assumption | apply holdWrite_ok | apply hbmNow_ok | simp only [okFst_mk] | simp only [ok_ctl] | simp only [ok_mk] | intro _ | split | dsimp only))

theorem sluicePut_ok (s : Nat) (a : Nat) (key : Nat) (bs : List Byte) (bad : Bool) {d : Dev} (h : Dev.ok d) : Dev.ok (sluicePut s a key bs bad d) := by
  unfold sluicePut
  repeat' (first | split | dsimp only)
  all_goals (with_reducible repeat' (first | exact h | assumption | apply onCtl_ok | apply putGranule_ok | intro _ | split | dsimp only))

theorem writeUnit_ok (a : Nat) (data : List Byte) (who : HeldFor) {d : Dev} (h : Dev.ok d) : okFst (writeUnit a data who d) := by
  unfold writeUnit
  repeat' (first | split | dsimp only)
  all_goals (with_reducible repeat' (first | exact h | assumption | apply onCtl_ok | apply writeCore_wf | apply writePick_wf | apply performAt_ok | apply writeHbm_ok | simp only [okFst_mk] | simp only [ok_ctl] | simp only [ok_mk] | apply ok_store | intro _ | split | dsimp only))

theorem addUnit_ok (fmt : Nat) (a : Nat) (data : List Byte) (who : HeldFor) {d : Dev} (h : Dev.ok d) : okFst (addUnit fmt a data who d) := by
  unfold addUnit
  repeat' (first | split | dsimp only)
  all_goals (with_reducible repeat' (first | exact h | assumption | apply onCtl_ok | apply performAt_ok | apply writeHbm_ok | simp only [okFst_mk] | intro _ | split | dsimp only))

theorem listWordFetch_ok (p : Nat) (t : Nat) {d : Dev} (h : Dev.ok d) : Dev.ok (listWordFetch p t d) := by
  unfold listWordFetch
  repeat' (first | split | dsimp only)
  all_goals (with_reducible repeat' (first | exact h | assumption | simp only [ok_ctl] | simp only [ok_mk] | intro _ | split | dsimp only))

theorem pickLoad_ok (p : Nat) (t : Nat) (cycle : Nat) {d : Dev} (h : Dev.ok d) : Dev.ok (pickLoad p t cycle d) := by
  unfold pickLoad
  repeat' (first | split | dsimp only)
  all_goals (with_reducible repeat' (first | exact h | assumption | simp only [ok_ctl] | simp only [ok_mk] | intro _ | split | dsimp only))

theorem skipRest_ok (p t cycle : Nat) : ∀ (n : Nat) {d : Dev}, Dev.ok d → Dev.ok (skipRest p t cycle n d)
  | 0, _, h => h
  | n + 1, d, h => by
    unfold skipRest
    dsimp only
    split
    · exact h
    · split
      · exact onCtl_ok _ h
      · split
        · exact onCtl_ok _ h
        · exact skipRest_ok p t cycle n ((ok_ctl _ _).2 h)

theorem stopPicks_ok (p : Nat) (t : Nat) (cycle : Nat) (x : Treadle) {d : Dev} (h : Dev.ok d) : Dev.ok (stopPicks p t cycle x d) := by
  unfold stopPicks
  repeat' (first | split | dsimp only)
  all_goals (with_reducible repeat' (first | exact h | assumption | (refine foldl_keeps Dev.ok _ (fun _ _ _ => ?_) ?_) | (refine foldl_keeps okFst _ (fun _ _ _ => ?_) ?_) | (refine foldl_keeps okSnd _ (fun _ _ _ => ?_) ?_) | (refine foldl_keeps okThird _ (fun _ _ _ => ?_) ?_) | simp only [ok_ctl] | simp only [ok_mk] | intro _ | split | dsimp only))

theorem stopTreadle_ok (c0 : Ctl) (p : Nat) (t : Nat) (cycle : Nat) {d : Dev} (h : Dev.ok d) : Dev.ok (stopTreadle c0 p t cycle d) := by
  unfold stopTreadle
  repeat' (first | split | dsimp only)
  all_goals (with_reducible repeat' (first | exact h | assumption | apply onCtl_ok | apply skipRest_ok | apply stopPicks_ok | simp only [ok_ctl] | simp only [ok_mk] | intro _ | split | dsimp only))

theorem guardTreadles_ok (cycle : Nat) {d : Dev} (h : Dev.ok d) : Dev.ok (guardTreadles cycle d) := by
  unfold guardTreadles
  repeat' (first | split | dsimp only)
  all_goals (with_reducible repeat' (first | exact h | assumption | apply stopTreadle_ok | (refine forN_keeps Dev.ok _ (fun _ _ _ => ?_) ?_) | (refine foldl_keeps Dev.ok _ (fun _ _ _ => ?_) ?_) | (refine foldl_keeps okFst _ (fun _ _ _ => ?_) ?_) | (refine foldl_keeps okSnd _ (fun _ _ _ => ?_) ?_) | (refine foldl_keeps okThird _ (fun _ _ _ => ?_) ?_) | intro _ | split | dsimp only))

theorem writeOwn_ok (p : Nat) (t : Nat) (a : Nat) (bs : List Byte) {d : Dev} (h : Dev.ok d) : Dev.ok (writeOwn p t a bs d) := by
  unfold writeOwn
  repeat' (first | split | dsimp only)
  all_goals (with_reducible repeat' (first | exact h | assumption | apply writeCore_wf | simp only [ok_ctl] | simp only [ok_mk] | apply ok_store | intro _ | split | dsimp only))

theorem writeRow_ok (p : Nat) (t : Nat) (bits : Nat) (a : Nat) (codes : List Nat) {d : Dev} (h : Dev.ok d) : Dev.ok (writeRow p t bits a codes d) := by
  unfold writeRow
  repeat' (first | split | dsimp only)
  all_goals (with_reducible repeat' (first | exact h | assumption | apply writeOwn_ok | intro _ | split | dsimp only))

theorem kPass_ok (p : Nat) (t : Nat) (r : Running) (num : Nat) (i0 : Nat) (i1 : Nat) (i2 : Nat) (i3 : Nat) (m : Nat) {d : Dev} (h : Dev.ok d) : Dev.ok (kPass p t r num i0 i1 i2 i3 m d) := by
  unfold kPass
  repeat' (first | split | dsimp only)
  all_goals (with_reducible repeat' (first | exact h | assumption | (refine forN_keeps Dev.ok _ (fun _ _ _ => ?_) ?_) | simp only [ok_ctl] | simp only [ok_mk] | apply ok_store | intro _ | split | dsimp only))

theorem writeSample_ok (p : Nat) (t : Nat) (x : Nat × SampleEnt) (dg : Nat × Nat) {d : Dev} (h : Dev.ok d) : Dev.ok (writeSample p t x dg d) := by
  unfold writeSample
  repeat' (first | split | dsimp only)
  all_goals (with_reducible repeat' (first | exact h | assumption | apply onCtl_ok | apply writeUnit_ok | intro _ | split | dsimp only))

theorem sampleDrain_ok (p : Nat) (t : Nat) (rows : List (List Nat)) (status : Nat) {d : Dev} (h : Dev.ok d) : Dev.ok (sampleDrain p t rows status d) := by
  unfold sampleDrain
  repeat' (first | split | dsimp only)
  all_goals (with_reducible repeat' (first | exact h | assumption | apply onCtl_ok | apply writeSample_ok | (refine foldl_keeps Dev.ok _ (fun _ _ _ => ?_) ?_) | (refine foldl_keeps okFst _ (fun _ _ _ => ?_) ?_) | (refine foldl_keeps okSnd _ (fun _ _ _ => ?_) ?_) | (refine foldl_keeps okThird _ (fun _ _ _ => ?_) ?_) | intro _ | split | dsimp only))

theorem drainTile_ok (p : Nat) (t : Nat) (r : Running) (i1 : Nat) (i2 : Nat) (i3 : Nat) (m : Nat) {d : Dev} (h : Dev.ok d) : Dev.ok (drainTile p t r i1 i2 i3 m d) := by
  unfold drainTile
  repeat' (first | split | dsimp only)
  all_goals (with_reducible repeat' (first | exact h | assumption | apply onCtl_ok | apply writeRow_ok | apply sampleDrain_ok | (refine foldl_keeps Dev.ok _ (fun _ _ _ => ?_) ?_) | (refine foldl_keeps okFst _ (fun _ _ _ => ?_) ?_) | (refine foldl_keeps okSnd _ (fun _ _ _ => ?_) ?_) | (refine foldl_keeps okThird _ (fun _ _ _ => ?_) ?_) | simp only [ok_ctl] | simp only [ok_mk] | intro _ | split | dsimp only))

theorem tileIteration_ok (p t : Nat) (r : Running) (n0 n1 : Nat) (it : Nat × Nat × Nat) (x : Dev × Nat) (h : okFst x) :
    okFst (tileIteration p t r n0 n1 it x) := by
  unfold tileIteration
  extract_lets m d
  have hd : Dev.ok d := forN_keeps Dev.ok _ (fun _ _ hb => kPass_ok _ _ _ _ _ _ _ _ _ hb) h
  rw [okFst_mk]
  split
  · exact drainTile_ok _ _ _ _ _ _ _ hd
  · exact hd

theorem matmulWork_ok {d : Dev} (p t : Nat) (h : Dev.ok d) : Dev.ok (matmulWork p t d) := by
  unfold matmulWork
  split
  · exact h
  · split
    · exact h
    · extract_lets n x
      apply onCtl_ok
      exact foldl_keeps okFst _ (fun b a hb => tileIteration_ok _ _ _ _ _ _ _ hb) (onCtl_ok _ h)

theorem drainWork_ok (p : Nat) (t : Nat) {d : Dev} (h : Dev.ok d) : Dev.ok (drainWork p t d) := by
  unfold drainWork
  repeat' (first | split | dsimp only)
  all_goals (with_reducible repeat' (first | exact h | assumption | apply onCtl_ok | apply drainTile_ok | (refine foldl_keeps Dev.ok _ (fun _ _ _ => ?_) ?_) | (refine foldl_keeps okFst _ (fun _ _ _ => ?_) ?_) | (refine foldl_keeps okSnd _ (fun _ _ _ => ?_) ?_) | (refine foldl_keeps okThird _ (fun _ _ _ => ?_) ?_) | intro _ | split | dsimp only))

theorem telStore_ok (base : Nat) (size : Nat) (head : Nat) (l : List (List Byte)) {d : Dev} (h : Dev.ok d) : Dev.ok (telStore base size head l d) := by
  unfold telStore
  repeat' (first | split | dsimp only)
  all_goals (with_reducible repeat' (first | exact h | assumption | apply writeUnit_ok | (refine foldl_keeps Dev.ok _ (fun _ _ _ => ?_) ?_) | (refine foldl_keeps okFst _ (fun _ _ _ => ?_) ?_) | (refine foldl_keeps okSnd _ (fun _ _ _ => ?_) ?_) | (refine foldl_keeps okThird _ (fun _ _ _ => ?_) ?_) | intro _ | split | dsimp only))

theorem telWrite_ok {d : Dev} (h : Dev.ok d) : Dev.ok (telWrite d) := by
  unfold telWrite
  repeat' (first | split | dsimp only)
  all_goals (with_reducible repeat' (first | exact h | assumption | apply onCtl_ok | apply telStore_ok | intro _ | split | dsimp only))

theorem receive_ok {d : Dev} (f : Handler) (rx : Rx) (h : Dev.ok d)
    (hf : ∀ n r d, Dev.ok d → Dev.ok (f n r d)) : Dev.ok (receive f rx d) := by
  unfold receive
  dsimp only
  split
  · split
    · exact hf _ _ _ h
    · exact h
  · exact inCycleDev_ok _ h (fun _ h => hf _ _ _ h)

theorem arrive_ok {d : Dev} (cls type : Nat) (f : Handler) (rx : Rx) (h : Dev.ok d)
    (hf : ∀ n r d, Dev.ok d → Dev.ok (f n r d)) : Dev.ok (arrive cls type f rx d) := by
  unfold arrive
  dsimp only
  split
  · exact h
  · exact receive_ok _ _ h hf

theorem chCopyAt_ok (l : Nat) (w : Nat) (a : Nat) {d : Dev} (h : Dev.ok d) : Dev.ok (chCopyAt l w a d) := by
  unfold chCopyAt
  repeat' (first | split | dsimp only)
  all_goals (with_reducible repeat' (first | exact h | assumption | apply onCtl_ok | apply sluicePut_ok | simp only [ok_ctl] | simp only [ok_mk] | intro _ | split | dsimp only))

theorem chCopy_ok {d : Dev} (h : Dev.ok d) : Dev.ok (chCopy d) := by
  unfold chCopy
  repeat' (first | split | dsimp only)
  all_goals (with_reducible repeat' (first | exact h | assumption | apply onCtl_ok | apply chCopyAt_ok | intro _ | split | dsimp only))

theorem rekeyCopy_ok {d : Dev} (h : Dev.ok d) : Dev.ok (rekeyCopy d) := by
  unfold rekeyCopy
  repeat' (first | split | dsimp only)
  all_goals (with_reducible repeat' (first | exact h | assumption | apply onCtl_ok | apply sluicePut_ok | (refine foldl_keeps Dev.ok _ (fun _ _ _ => ?_) ?_) | (refine foldl_keeps okFst _ (fun _ _ _ => ?_) ?_) | (refine foldl_keeps okSnd _ (fun _ _ _ => ?_) ?_) | (refine foldl_keeps okThird _ (fun _ _ _ => ?_) ?_) | intro _ | split | dsimp only))

theorem snapLine_ok {d : Dev} (h : Dev.ok d) : Dev.ok (snapLine d) := by
  unfold snapLine
  repeat' (first | split | dsimp only)
  all_goals (with_reducible repeat' (first | exact h | assumption | apply onCtl_ok | apply copyLine_ok | intro _ | split | dsimp only))

theorem readPieces_ok : ∀ (l : List (Nat × Nat)) {d : Dev}, Dev.ok d → okSnd (readPieces d l)
  | [], _, h => h
  | (a, n) :: l, d, h => by
    unfold readPieces
    extract_lets r t
    exact readPieces_ok l h

theorem readLong_ok (a : Nat) (n : Nat) {d : Dev} (h : Dev.ok d) : okSnd (readLong a n d) := by
  unfold readLong
  repeat' (first | split | dsimp only)
  all_goals (with_reducible repeat' (first | exact h | assumption | apply readPieces_ok | simp only [okSnd_mk] | intro _ | split | dsimp only))

theorem writeLong_ok (a : Nat) (data : List Byte) {d : Dev} (h : Dev.ok d) : Dev.ok (writeLong a data d) := by
  unfold writeLong
  repeat' (first | split | dsimp only)
  all_goals (with_reducible repeat' (first | exact h | assumption | apply writeUnit_ok | (refine foldl_keeps Dev.ok _ (fun _ _ _ => ?_) ?_) | (refine foldl_keeps okFst _ (fun _ _ _ => ?_) ?_) | (refine foldl_keeps okSnd _ (fun _ _ _ => ?_) ?_) | (refine foldl_keeps okThird _ (fun _ _ _ => ?_) ?_) | intro _ | split | dsimp only))

theorem capture_ok (u : Nat) {d : Dev} (h : Dev.ok d) : Dev.ok (capture u d) := by
  unfold capture
  repeat' (first | split | dsimp only)
  all_goals (with_reducible repeat' (first | exact h | assumption | apply onCtl_ok | apply writeLong_ok | simp only [ok_ctl] | simp only [ok_mk] | intro _ | split | dsimp only))

theorem readoutDone_ok {d : Dev} (h : Dev.ok d) : Dev.ok (readoutDone d) := by
  unfold readoutDone
  repeat' (first | split | dsimp only)
  all_goals (with_reducible repeat' (first | exact h | assumption | apply onCtl_ok | apply writeLong_ok | apply capture_ok | (refine foldl_keeps Dev.ok _ (fun _ _ _ => ?_) ?_) | (refine foldl_keeps okFst _ (fun _ _ _ => ?_) ?_) | (refine foldl_keeps okSnd _ (fun _ _ _ => ?_) ?_) | (refine foldl_keeps okThird _ (fun _ _ _ => ?_) ?_) | intro _ | split | dsimp only))

theorem copyState_ok {d : Dev} (h : Dev.ok d) : Dev.ok (copyState d) := by
  unfold copyState
  repeat' (first | split | dsimp only)
  all_goals (with_reducible repeat' (first | exact h | assumption | apply snapGranule_ok | (refine forN_keeps Dev.ok _ (fun _ _ _ => ?_) ?_) | intro _ | split | dsimp only))

theorem sendExtent_ok (k : Nat) (e : Nat) (dst : Nat) (seat : Nat) (step : Nat) {d : Dev} (h : Dev.ok d) : Dev.ok (sendExtent k e dst seat step d) := by
  unfold sendExtent
  repeat' (first | split | dsimp only)
  all_goals (with_reducible repeat' (first | exact h | assumption | apply onCtl_ok | apply readLong_ok | (refine forN_keeps Dev.ok _ (fun _ _ _ => ?_) ?_) | intro _ | split | dsimp only))

theorem drainExtent_ok (x : Drain) (e : Nat) {d : Dev} (h : Dev.ok d) : Dev.ok (drainExtent x e d) := by
  unfold drainExtent
  repeat' (first | split | dsimp only)
  all_goals (with_reducible repeat' (first | exact h | assumption | apply onCtl_ok | apply sendExtent_ok | intro _ | split | dsimp only))

theorem mirrorSend_ok {d : Dev} (h : Dev.ok d) : Dev.ok (mirrorSend d) := by
  unfold mirrorSend
  repeat' (first | split | dsimp only)
  all_goals (with_reducible repeat' (first | exact h | assumption | apply onCtl_ok | apply drainExtent_ok | intro _ | split | dsimp only))

theorem mirrorResend_ok (e : Nat) {d : Dev} (h : Dev.ok d) : Dev.ok (mirrorResend e d) := by
  unfold mirrorResend
  repeat' (first | split | dsimp only)
  all_goals (with_reducible repeat' (first | exact h | assumption | apply drainExtent_ok | intro _ | split | dsimp only))

theorem gotImgAck_ok (lost : Nat) (rx : Rx) {d : Dev} (h : Dev.ok d) : Dev.ok (gotImgAck lost rx d) := by
  unfold gotImgAck
  repeat' (first | split | dsimp only)
  all_goals (with_reducible repeat' (first | exact h | assumption | apply onCtl_ok | intro _ | split | dsimp only))

theorem holderData_ok (rx : Rx) {d : Dev} (h : Dev.ok d) : Dev.ok (holderData rx d) := by
  unfold holderData
  repeat' (first | split | dsimp only)
  all_goals (with_reducible repeat' (first | exact h | assumption | apply onCtl_ok | apply writeLong_ok | intro _ | split | dsimp only))

theorem gotImgEnd_ok (lost : Nat) (rx : Rx) {d : Dev} (h : Dev.ok d) : Dev.ok (gotImgEnd lost rx d) := by
  unfold gotImgEnd
  repeat' (first | split | dsimp only)
  all_goals (with_reducible repeat' (first | exact h | assumption | apply onCtl_ok | intro _ | split | dsimp only))

theorem gotImgReq_ok (lost : Nat) (rx : Rx) {d : Dev} (h : Dev.ok d) : Dev.ok (gotImgReq lost rx d) := by
  unfold gotImgReq
  repeat' (first | split | dsimp only)
  all_goals (with_reducible repeat' (first | exact h | assumption | apply onCtl_ok | apply sendExtent_ok | intro _ | split | dsimp only))

theorem snapBoundary_ok (u : Nat) (dg : Nat × Nat) {d : Dev} (h : Dev.ok d) : Dev.ok (snapBoundary u dg d) := by
  unfold snapBoundary
  repeat' (first | split | dsimp only)
  all_goals (with_reducible repeat' (first | exact h | assumption | apply onCtl_ok | apply capture_ok | intro _ | split | dsimp only))

theorem genSlice_ok (trimmed : Bool) (lo hi : Nat) : ∀ (ps : List (Nat × Nat × Bool)) (pos : Nat) {d : Dev}, Dev.ok d →
    okSnd (genSlice trimmed lo hi pos ps d)
  | [], _, _, h => by unfold genSlice; exact h
  | p :: ps, pos, d, h => by
    unfold genSlice
    extract_lets stop r sh bs t
    split
    · exact genSlice_ok trimmed lo hi ps _ h
    · exact genSlice_ok trimmed lo hi ps _ (readLong_ok _ _ h)

theorem tailStart_ok (u : Nat) {d : Dev} (h : Dev.ok d) : Dev.ok (tailStart u d) := by
  unfold tailStart
  repeat' (first | split | dsimp only)
  all_goals (with_reducible repeat' (first | exact h | assumption | apply onCtl_ok | simp only [ok_ctl] | simp only [ok_mk] | intro _ | split | dsimp only))

theorem imageSlice_ok (c : Ctl) (lo : Nat) {d : Dev} (h : Dev.ok d) : okSnd (imageSlice c lo d) := by
  unfold imageSlice
  extract_lets trim bytes
  split
  · rw [okSnd_mk]
    exact h
  · exact genSlice_ok _ _ _ _ _ h

theorem parityStep_ok (c : Ctl) (lo : Nat) (x : List Byte × Dev) (h : okSnd x) : okSnd (parityStep c lo x) := by
  unfold parityStep
  rw [okSnd_mk]
  exact imageSlice_ok _ _ h

theorem stripeBytes_ok (c : Ctl) (i : Nat) {d : Dev} (h : Dev.ok d) : okSnd (stripeBytes c i d) := by
  unfold stripeBytes
  extract_lets k first
  split
  · refine foldl_keeps okSnd _ ?_ h
    intro b a hb
    exact parityStep_ok _ _ _ hb
  · exact imageSlice_ok _ _ h

theorem tailSend_ok (x : TailSrc) (i : Nat) {d : Dev} (h : Dev.ok d) : Dev.ok (tailSend x i d) := by
  unfold tailSend
  repeat' (first | split | dsimp only)
  all_goals (with_reducible repeat' (first | exact h | assumption | apply onCtl_ok | apply stripeBytes_ok | simp only [ok_ctl] | simp only [ok_mk] | intro _ | split | dsimp only))

theorem stripeSend_ok {d : Dev} (h : Dev.ok d) : Dev.ok (stripeSend d) := by
  unfold stripeSend
  repeat' (first | split | dsimp only)
  all_goals (with_reducible repeat' (first | exact h | assumption | apply onCtl_ok | apply tailSend_ok | intro _ | split | dsimp only))

theorem stripeResend_ok (i : Nat) {d : Dev} (h : Dev.ok d) : Dev.ok (stripeResend i d) := by
  unfold stripeResend
  repeat' (first | split | dsimp only)
  all_goals (with_reducible repeat' (first | exact h | assumption | apply tailSend_ok | intro _ | split | dsimp only))

theorem gotStripeAck_ok (lost : Nat) (rx : Rx) {d : Dev} (h : Dev.ok d) : Dev.ok (gotStripeAck lost rx d) := by
  unfold gotStripeAck
  repeat' (first | split | dsimp only)
  all_goals (with_reducible repeat' (first | exact h | assumption | apply onCtl_ok | apply tailSend_ok | intro _ | split | dsimp only))

theorem gotRecAck_ok (lost : Nat) (rx : Rx) {d : Dev} (h : Dev.ok d) : Dev.ok (gotRecAck lost rx d) := by
  unfold gotRecAck
  repeat' (first | split | dsimp only)
  all_goals (with_reducible repeat' (first | exact h | assumption | apply onCtl_ok | intro _ | split | dsimp only))

theorem targetData_ok (rx : Rx) {d : Dev} (h : Dev.ok d) : Dev.ok (targetData rx d) := by
  unfold targetData
  repeat' (first | split | dsimp only)
  all_goals (with_reducible repeat' (first | exact h | assumption | apply writeLong_ok | simp only [ok_ctl] | simp only [ok_mk] | intro _ | split | dsimp only))

theorem targetEnd_ok (rx : Rx) {d : Dev} (h : Dev.ok d) : Dev.ok (targetEnd rx d) := by
  unfold targetEnd
  repeat' (first | split | dsimp only)
  all_goals (with_reducible repeat' (first | exact h | assumption | apply readLong_ok | simp only [ok_ctl] | simp only [ok_mk] | intro _ | split | dsimp only))

theorem targetRecord_ok (rx : Rx) {d : Dev} (h : Dev.ok d) : Dev.ok (targetRecord rx d) := by
  unfold targetRecord
  repeat' (first | split | dsimp only)
  all_goals (with_reducible repeat' (first | exact h | assumption | apply onCtl_ok | apply writeLong_ok | simp only [ok_ctl] | simp only [ok_mk] | intro _ | split | dsimp only))

theorem gotStripeReq_ok (lost : Nat) (rx : Rx) {d : Dev} (h : Dev.ok d) : Dev.ok (gotStripeReq lost rx d) := by
  unfold gotStripeReq
  repeat' (first | split | dsimp only)
  all_goals (with_reducible repeat' (first | exact h | assumption | apply onCtl_ok | apply readLong_ok | intro _ | split | dsimp only))

theorem gotRecReq_ok (lost : Nat) (rx : Rx) {d : Dev} (h : Dev.ok d) : Dev.ok (gotRecReq lost rx d) := by
  unfold gotRecReq
  repeat' (first | split | dsimp only)
  all_goals (with_reducible repeat' (first | exact h | assumption | apply onCtl_ok | apply readLong_ok | intro _ | split | dsimp only))

theorem writeImage_ok (go : Bool) (o : Nat) (bs : List Byte) {d : Dev} (h : Dev.ok d) : Dev.ok (writeImage go o bs d) := by
  unfold writeImage
  repeat' (first | split | dsimp only)
  all_goals (with_reducible repeat' (first | exact h | assumption | apply writeLong_ok | intro _ | split | dsimp only))

theorem restoreLocal_ok {d : Dev} (h : Dev.ok d) : Dev.ok (restoreLocal d) := by
  unfold restoreLocal
  repeat' (first | split | dsimp only)
  all_goals (with_reducible repeat' (first | exact h | assumption | apply onCtl_ok | apply readLong_ok | apply writeLong_ok | (refine forN_keeps Dev.ok _ (fun _ _ _ => ?_) ?_) | intro _ | split | dsimp only))

theorem trySource_ok (k : Nat) {d : Dev} (h : Dev.ok d) : Dev.ok (trySource k d) := by
  unfold trySource
  repeat' (first | split | dsimp only)
  all_goals (with_reducible repeat' (first | exact h | assumption | apply onCtl_ok | apply restoreLocal_ok | intro _ | split | dsimp only))

theorem restoreStart_ok (u : Nat) (go : Bool) {d : Dev} (h : Dev.ok d) : Dev.ok (restoreStart u go d) := by
  unfold restoreStart
  repeat' (first | split | dsimp only)
  all_goals (with_reducible repeat' (first | exact h | assumption | apply onCtl_ok | apply trySource_ok | intro _ | split | dsimp only))

theorem restoreData_ok (rx : Rx) {d : Dev} (h : Dev.ok d) : Dev.ok (restoreData rx d) := by
  unfold restoreData
  repeat' (first | split | dsimp only)
  all_goals (with_reducible repeat' (first | exact h | assumption | apply onCtl_ok | apply writeImage_ok | intro _ | split | dsimp only))

theorem restoreStripes_ok (x : Restore) {d : Dev} (h : Dev.ok d) : Dev.ok (restoreStripes x d) := by
  unfold restoreStripes
  repeat' (first | split | dsimp only)
  all_goals (with_reducible repeat' (first | exact h | assumption | apply onCtl_ok | apply writeImage_ok | (refine forN_keeps Dev.ok _ (fun _ _ _ => ?_) ?_) | simp only [ok_ctl] | simp only [ok_mk] | apply ok_store | intro _ | split | dsimp only))

theorem stripesCheck_ok {d : Dev} (h : Dev.ok d) : Dev.ok (stripesCheck d) := by
  unfold stripesCheck
  repeat' (first | split | dsimp only)
  all_goals (with_reducible repeat' (first | exact h | assumption | apply onCtl_ok | apply trySource_ok | apply restoreStripes_ok | (refine foldl_keeps Dev.ok _ (fun _ _ _ => ?_) ?_) | (refine foldl_keeps okFst _ (fun _ _ _ => ?_) ?_) | (refine foldl_keeps okSnd _ (fun _ _ _ => ?_) ?_) | (refine foldl_keeps okThird _ (fun _ _ _ => ?_) ?_) | intro _ | split | dsimp only))

theorem restoreStripeData_ok (rx : Rx) {d : Dev} (h : Dev.ok d) : Dev.ok (restoreStripeData rx d) := by
  unfold restoreStripeData
  repeat' (first | split | dsimp only)
  all_goals (with_reducible repeat' (first | exact h | assumption | apply onCtl_ok | intro _ | split | dsimp only))

theorem restoreStripeEnd_ok (rx : Rx) {d : Dev} (h : Dev.ok d) : Dev.ok (restoreStripeEnd rx d) := by
  unfold restoreStripeEnd
  repeat' (first | split | dsimp only)
  all_goals (with_reducible repeat' (first | exact h | assumption | apply onCtl_ok | apply stripesCheck_ok | simp only [ok_ctl] | simp only [ok_mk] | intro _ | split | dsimp only))

theorem restoreRecData_ok (rx : Rx) {d : Dev} (h : Dev.ok d) : Dev.ok (restoreRecData rx d) := by
  unfold restoreRecData
  repeat' (first | split | dsimp only)
  all_goals (with_reducible repeat' (first | exact h | assumption | apply onCtl_ok | apply stripesCheck_ok | (refine foldl_keeps Dev.ok _ (fun _ _ _ => ?_) ?_) | (refine foldl_keeps okFst _ (fun _ _ _ => ?_) ?_) | (refine foldl_keeps okSnd _ (fun _ _ _ => ?_) ?_) | (refine foldl_keeps okThird _ (fun _ _ _ => ?_) ?_) | intro _ | split | dsimp only))

theorem restoreTimeout_ok (i : Nat) {d : Dev} (h : Dev.ok d) : Dev.ok (restoreTimeout i d) := by
  unfold restoreTimeout
  repeat' (first | split | dsimp only)
  all_goals (with_reducible repeat' (first | exact h | assumption | apply onCtl_ok | apply trySource_ok | apply stripesCheck_ok | intro _ | split | dsimp only))

theorem sweepDone_ok {d : Dev} (h : Dev.ok d) : Dev.ok (sweepDone d) := by
  unfold sweepDone
  repeat' (first | split | dsimp only)
  all_goals (with_reducible repeat' (first | exact h | assumption | apply onCtl_ok | apply trySource_ok | intro _ | split | dsimp only))

theorem restoreComplete_ok {d : Dev} (h : Dev.ok d) : Dev.ok (restoreComplete d) := by
  unfold restoreComplete
  repeat' (first | split | dsimp only)
  all_goals (with_reducible repeat' (first | exact h | assumption | apply onCtl_ok | simp only [ok_ctl] | simp only [ok_mk] | intro _ | split | dsimp only))

theorem rstGo_ok {d : Dev} (h : Dev.ok d) : Dev.ok (rstGo d) := by
  unfold rstGo
  repeat' (first | split | dsimp only)
  all_goals (with_reducible repeat' (first | exact h | assumption | apply restoreStart_ok | intro _ | split | dsimp only))

theorem gotImgData_ok (lost : Nat) (rx : Rx) {d : Dev} (h : Dev.ok d) : Dev.ok (gotImgData lost rx d) := by
  unfold gotImgData
  repeat' (first | split | dsimp only)
  all_goals (with_reducible repeat' (first | exact h | assumption | apply holderData_ok | apply restoreData_ok | intro _ | split | dsimp only))

theorem gotImgDone_ok (lost : Nat) (rx : Rx) {d : Dev} (h : Dev.ok d) : Dev.ok (gotImgDone lost rx d) := by
  unfold gotImgDone
  repeat' (first | split | dsimp only)
  all_goals (with_reducible repeat' (first | exact h | assumption | apply onCtl_ok | apply trySource_ok | intro _ | split | dsimp only))

theorem gotStripeData_ok (lost : Nat) (rx : Rx) {d : Dev} (h : Dev.ok d) : Dev.ok (gotStripeData lost rx d) := by
  unfold gotStripeData
  repeat' (first | split | dsimp only)
  all_goals (with_reducible repeat' (first | exact h | assumption | apply targetData_ok | apply restoreStripeData_ok | intro _ | split | dsimp only))

theorem gotStripeEnd_ok (lost : Nat) (rx : Rx) {d : Dev} (h : Dev.ok d) : Dev.ok (gotStripeEnd lost rx d) := by
  unfold gotStripeEnd
  repeat' (first | split | dsimp only)
  all_goals (with_reducible repeat' (first | exact h | assumption | apply targetEnd_ok | apply restoreStripeEnd_ok | intro _ | split | dsimp only))

theorem gotRecData_ok (lost : Nat) (rx : Rx) {d : Dev} (h : Dev.ok d) : Dev.ok (gotRecData lost rx d) := by
  unfold gotRecData
  repeat' (first | split | dsimp only)
  all_goals (with_reducible repeat' (first | exact h | assumption | apply capture_ok | apply targetRecord_ok | apply restoreRecData_ok | intro _ | split | dsimp only))

theorem snapComplete_ok {d : Dev} (h : Dev.ok d) : Dev.ok (snapComplete d) := by
  unfold snapComplete
  repeat' (first | split | dsimp only)
  all_goals (with_reducible repeat' (first | exact h | assumption | apply onCtl_ok | apply copyState_ok | apply tailStart_ok | simp only [ok_ctl] | simp only [ok_mk] | intro _ | split | dsimp only))

theorem gotHello_ok (lost : Nat) (rx : Rx) {d : Dev} (h : Dev.ok d) : Dev.ok (gotHello lost rx d) := by
  unfold gotHello
  repeat' (first | split | dsimp only)
  all_goals (with_reducible repeat' (first | exact h | assumption | apply onCtl_ok | simp only [ok_ctl] | simp only [ok_mk] | intro _ | split | dsimp only))

theorem gotProve_ok (lost : Nat) (rx : Rx) {d : Dev} (h : Dev.ok d) : Dev.ok (gotProve lost rx d) := by
  unfold gotProve
  repeat' (first | split | dsimp only)
  all_goals (with_reducible repeat' (first | exact h | assumption | apply onCtl_ok | simp only [ok_ctl] | simp only [ok_mk] | intro _ | split | dsimp only))

theorem gotAdmitted_ok (lost : Nat) (rx : Rx) {d : Dev} (h : Dev.ok d) : Dev.ok (gotAdmitted lost rx d) := by
  unfold gotAdmitted
  repeat' (first | split | dsimp only)
  all_goals (with_reducible repeat' (first | exact h | assumption | apply onCtl_ok | intro _ | split | dsimp only))

theorem gotReject_ok (lost : Nat) (rx : Rx) {d : Dev} (h : Dev.ok d) : Dev.ok (gotReject lost rx d) := by
  unfold gotReject
  repeat' (first | split | dsimp only)
  all_goals (with_reducible repeat' (first | exact h | assumption | apply onCtl_ok | intro _ | split | dsimp only))

theorem moveLine_ok {d : Dev} (h : Dev.ok d) : Dev.ok (moveLine d) := by
  unfold moveLine
  repeat' (first | split | dsimp only)
  all_goals (with_reducible repeat' (first | exact h | assumption | apply writeBytes_wf | simp only [ok_ctl] | simp only [ok_mk] | apply ok_store | intro _ | split | dsimp only))

theorem performOne_ok (w : HeldWrite) {d : Dev} (h : Dev.ok d) : Dev.ok (performOne w d) := by
  unfold performOne
  repeat' (first | split | dsimp only)
  all_goals (with_reducible repeat' (first | exact h | assumption | apply onCtl_ok | apply hbmNow_ok | intro _ | split | dsimp only))

theorem performHeld_ok (s : Nat) {d : Dev} (h : Dev.ok d) : Dev.ok (performHeld s d) := by
  unfold performHeld
  repeat' (first | split | dsimp only)
  all_goals (with_reducible repeat' (first | exact h | assumption | apply performOne_ok | (refine foldl_keeps Dev.ok _ (fun _ _ _ => ?_) ?_) | (refine foldl_keeps okFst _ (fun _ _ _ => ?_) ?_) | (refine foldl_keeps okSnd _ (fun _ _ _ => ?_) ?_) | (refine foldl_keeps okThird _ (fun _ _ _ => ?_) ?_) | intro _ | split | dsimp only))

theorem stackBoundary_ok (s : Nat) (old : Nat) {d : Dev} (h : Dev.ok d) : Dev.ok (stackBoundary s old d) := by
  unfold stackBoundary
  repeat' (first | split | dsimp only)
  all_goals (with_reducible repeat' (first | exact h | assumption | apply onCtl_ok | apply performHeld_ok | simp only [ok_ctl] | simp only [ok_mk] | intro _ | split | dsimp only))

theorem spillBack_ok {d : Dev} (h : Dev.ok d) : Dev.ok (spillBack d) := by
  unfold spillBack
  repeat' (first | split | dsimp only)
  all_goals (with_reducible repeat' (first | exact h | assumption | apply onCtl_ok | apply copyGranule_ok | simp only [ok_ctl] | simp only [ok_mk] | intro _ | split | dsimp only))

theorem fanBoundary_ok (ending : Nat) (step : Nat) (r : Readings) {d : Dev} (h : Dev.ok d) : Dev.ok (fanBoundary ending step r d) := by
  unfold fanBoundary
  repeat' (first | split | dsimp only)
  all_goals (with_reducible repeat' (first | exact h | assumption | apply onCtl_ok | apply stackBoundary_ok | (refine forN_keeps Dev.ok _ (fun _ _ _ => ?_) ?_) | (refine foldl_keeps Dev.ok _ (fun _ _ _ => ?_) ?_) | (refine foldl_keeps okFst _ (fun _ _ _ => ?_) ?_) | (refine foldl_keeps okSnd _ (fun _ _ _ => ?_) ?_) | (refine foldl_keeps okThird _ (fun _ _ _ => ?_) ?_) | intro _ | split | dsimp only))

theorem loadCore_ok {d : Dev} (j : Draft) (e : SeatEnt) (x : CoreProg) (p : Nat) (h : Dev.ok d) :
    Dev.ok (loadCore j e x p d) := by
  unfold loadCore
  extract_lets m1 m2 m3 c1 c2
  have h1 : Memory.wf m1 = true := foldl_keeps (fun x : Store => Memory.wf x = true) _ (fun b a hb => writeCore_wf _ _ _ _ hb) h
  clear_value m1
  have h2 : Memory.wf m2 = true := foldl_keeps (fun x : Store => Memory.wf x = true) _ (fun b a hb => writePick_wf _ _ _ _ hb) h1
  clear_value m2
  exact foldl_keeps (fun x : Store => Memory.wf x = true) _ (fun b a hb => writePick_wf _ _ _ _ hb) h2

theorem loadParts_ok (j : Draft) (which : CoreProg → Bool) {d : Dev} (h : Dev.ok d) : Dev.ok (loadParts j which d) := by
  unfold loadParts
  repeat' (first | split | dsimp only)
  all_goals (with_reducible repeat' (first | exact h | assumption | apply loadCore_ok | (refine foldl_keeps Dev.ok _ (fun _ _ _ => ?_) ?_) | (refine foldl_keeps okFst _ (fun _ _ _ => ?_) ?_) | (refine foldl_keeps okSnd _ (fun _ _ _ => ?_) ?_) | (refine foldl_keeps okThird _ (fun _ _ _ => ?_) ?_) | intro _ | split | dsimp only))

theorem loadProgram_ok (j : Draft) {d : Dev} (h : Dev.ok d) : Dev.ok (loadProgram j d) := by
  unfold loadProgram
  repeat' (first | split | dsimp only)
  all_goals (with_reducible repeat' (first | exact h | assumption | apply onCtl_ok | apply loadParts_ok | intro _ | split | dsimp only))

theorem loadGroup_ok (j : Draft) (g : Nat) {d : Dev} (h : Dev.ok d) : Dev.ok (loadGroup j g d) := by
  unfold loadGroup
  repeat' (first | split | dsimp only)
  all_goals (with_reducible repeat' (first | exact h | assumption | apply onCtl_ok | apply loadParts_ok | intro _ | split | dsimp only))

theorem scramble_ok {d : Dev} (h : Dev.ok d) : Dev.ok (scramble d) := by
  unfold scramble
  simp only [ok_mk]
  have h := ok_store h
  rw [Memory.wf_iff] at h ⊢
  refine ⟨Tab.rising_filter _ h.1, fun x hx => ?_⟩
  have hx' := List.mem_filter.1 hx
  have hk : 0x18000000000 ≤ x.1 := by simpa using hx'.2
  have := h.2 x hx'.1
  have e : ∀ g, storeDefault g x.1 = 0 := by
    intro g
    unfold storeDefault
    split
    · rfl
    · rw [if_neg (by omega)]
  rw [e] at this ⊢
  exact this

theorem applyFull_ok (j : Draft) {d : Dev} (h : Dev.ok d) : Dev.ok (applyFull j d) := by
  unfold applyFull
  repeat' (first | split | dsimp only)
  all_goals (with_reducible repeat' (first | exact h | assumption | apply onCtl_ok | apply loadProgram_ok | apply scramble_ok | simp only [ok_ctl] | simp only [ok_mk] | intro _ | split | dsimp only))

theorem reloadOpen_ok (s : Nat) {d : Dev} (h : Dev.ok d) : Dev.ok (reloadOpen s d) := by
  unfold reloadOpen
  repeat' (first | split | dsimp only)
  all_goals (with_reducible repeat' (first | exact h | assumption | apply loadGroup_ok | intro _ | split | dsimp only))

theorem reloadRestore_ok (s : Nat) {d : Dev} (h : Dev.ok d) : Dev.ok (reloadRestore s d) := by
  unfold reloadRestore
  repeat' (first | split | dsimp only)
  all_goals (with_reducible repeat' (first | exact h | assumption | apply onCtl_ok | apply loadGroup_ok | intro _ | split | dsimp only))

theorem draftPull_ok {d : Dev} (h : Dev.ok d) : Dev.ok (draftPull d) := by
  unfold draftPull
  repeat' (first | split | dsimp only)
  all_goals (with_reducible repeat' (first | exact h | assumption | apply onCtl_ok | apply readLong_ok | intro _ | split | dsimp only))

theorem verifyDone_ok {d : Dev} (h : Dev.ok d) : Dev.ok (verifyDone d) := by
  unfold verifyDone
  repeat' (first | split | dsimp only)
  all_goals (with_reducible repeat' (first | exact h | assumption | apply onCtl_ok | apply applyFull_ok | intro _ | split | dsimp only))

theorem traceWrite_ok {d : Dev} (h : Dev.ok d) : Dev.ok (traceWrite d) := by
  unfold traceWrite
  repeat' (first | split | dsimp only)
  all_goals (with_reducible repeat' (first | exact h | assumption | apply onCtl_ok | apply writeUnit_ok | intro _ | split | dsimp only))

theorem onBit_ok {d : Dev} (v : Dword) (b : Nat) (f : Dev → Dev) (h : Dev.ok d)
    (hf : ∀ d, Dev.ok d → Dev.ok (f d)) : Dev.ok (onBit v b f d) := by
  unfold onBit
  split
  · exact hf _ h
  · exact h

theorem writeWord_ok {d : Dev} (off width : Nat) (v : Dword) (b : Block) (h : Dev.ok d) : Dev.ok (writeWord off width v b d) := by
  have ctl : ∀ (f : Ctl → Ctl) (d : Dev), Dev.ok d → Dev.ok (onCtl f d) := fun f _ hd => onCtl_ok f hd
  unfold writeWord
  extract_lets plain
  (repeat' split) <;> with_reducible repeat' (first | exact h | assumption | apply onBit_ok | apply onCtl_ok | exact ctl _ | exact fun d hd => draftPull_ok hd | exact fun d hd => rstGo_ok hd)

theorem writeReg_ok (off : Nat) (width : Nat) (v : Dword) {d : Dev} (h : Dev.ok d) : okFst (writeReg off width v d) := by
  unfold writeReg
  repeat' (first | split | dsimp only)
  all_goals (with_reducible repeat' (first | exact h | assumption | apply onCtl_ok | apply writeWord_ok | simp only [okFst_mk] | intro _ | split | dsimp only))

theorem emitRow_ok (p : Nat) (t : Nat) (r : Running) (q : Nat) (a : Nat) (ys : List Nat) {d : Dev} (h : Dev.ok d) : okFst (emitRow p t r q a ys d) := by
  unfold emitRow
  repeat' (first | split | dsimp only)
  all_goals (with_reducible repeat' (first | exact h | assumption | apply writeRow_ok | simp only [okFst_mk] | simp only [ok_ctl] | simp only [ok_mk] | intro _ | split | dsimp only))

theorem vectorRow_ok (p : Nat) (t : Nat) (r : Running) (it : Nat × Nat × Nat × Nat × Nat) {d : Dev} (h : Dev.ok d) : okFst (vectorRow p t r it d) := by
  unfold vectorRow
  repeat' (first | split | dsimp only)
  all_goals (with_reducible repeat' (first | exact h | assumption | apply emitRow_ok | (refine foldl_keeps Dev.ok _ (fun _ _ _ => ?_) ?_) | (refine foldl_keeps okFst _ (fun _ _ _ => ?_) ?_) | (refine foldl_keeps okSnd _ (fun _ _ _ => ?_) ?_) | (refine foldl_keeps okThird _ (fun _ _ _ => ?_) ?_) | simp only [okFst_mk] | intro _ | split | dsimp only))

theorem vectorWork_ok (op : Nat) (p : Nat) {d : Dev} (h : Dev.ok d) : Dev.ok (vectorWork op p d) := by
  unfold vectorWork
  repeat' (first | split | dsimp only)
  all_goals (with_reducible repeat' (first | exact h | assumption | apply onCtl_ok | apply vectorRow_ok | (refine foldl_keeps Dev.ok _ (fun _ _ _ => ?_) ?_) | (refine foldl_keeps okFst _ (fun _ _ _ => ?_) ?_) | (refine foldl_keeps okSnd _ (fun _ _ _ => ?_) ?_) | (refine foldl_keeps okThird _ (fun _ _ _ => ?_) ?_) | intro _ | split | dsimp only))

theorem readLocal_ok (p : Nat) (own : Bool) (a : Nat) (n : Nat) {d : Dev} (h : Dev.ok d) : okThird (readLocal p own a n d) := by
  unfold readLocal
  repeat' (first | split | dsimp only)
  all_goals (with_reducible repeat' (first | exact h | assumption | (refine foldl_keeps Dev.ok _ (fun _ _ _ => ?_) ?_) | (refine foldl_keeps okFst _ (fun _ _ _ => ?_) ?_) | (refine foldl_keeps okSnd _ (fun _ _ _ => ?_) ?_) | (refine foldl_keeps okThird _ (fun _ _ _ => ?_) ?_) | simp only [okThird_mk] | simp only [ok_ctl] | simp only [ok_mk] | intro _ | split | dsimp only))

theorem foldDigest_ok (o : Nat) (data : List Byte) {d : Dev} (h : Dev.ok d) : Dev.ok (foldDigest o data d) := by
  unfold foldDigest
  repeat' (first | split | dsimp only)
  all_goals (with_reducible repeat' (first | exact h | assumption | apply onCtl_ok | (refine foldl_keeps Dev.ok _ (fun _ _ _ => ?_) ?_) | (refine foldl_keeps okFst _ (fun _ _ _ => ?_) ?_) | (refine foldl_keeps okSnd _ (fun _ _ _ => ?_) ?_) | (refine foldl_keeps okThird _ (fun _ _ _ => ?_) ?_) | intro _ | split | dsimp only))

theorem updUnit_ok (p : Nat) (t : Nat) (copy : Bool) (a : Nat) (data : List Byte) {d : Dev} (h : Dev.ok d) : okFst (updUnit p t copy a data d) := by
  unfold updUnit
  repeat' (first | split | dsimp only)
  all_goals (with_reducible repeat' (first | exact h | assumption | apply onCtl_ok | apply writeUnit_ok | apply foldDigest_ok | simp only [okFst_mk] | simp only [ok_ctl] | simp only [ok_mk] | intro _ | split | dsimp only))

theorem writeLocal_ok (p : Nat) (t : Nat) (copy : Bool) (own : Bool) (a : Nat) (bs : List Byte) {d : Dev} (h : Dev.ok d) : okFst (writeLocal p t copy own a bs d) := by
  unfold writeLocal
  repeat' (first | split | dsimp only)
  all_goals (with_reducible repeat' (first | exact h | assumption | apply writeOwn_ok | apply updUnit_ok | (refine foldl_keeps Dev.ok _ (fun _ _ _ => ?_) ?_) | (refine foldl_keeps okFst _ (fun _ _ _ => ?_) ?_) | (refine foldl_keeps okSnd _ (fun _ _ _ => ?_) ?_) | (refine foldl_keeps okThird _ (fun _ _ _ => ?_) ?_) | simp only [okFst_mk] | intro _ | split | dsimp only))

theorem workingCopy_ok {d : Dev} (p t : Nat) (img : List Word) (o : Nat) (it : Nat × Nat × Nat × Nat × Nat) (news : List Nat) (h : Dev.ok d) :
    okFst (workingCopy p t img o it news d) := by
  unfold workingCopy
  extract_lets own a bits x d1 len last
  have h1 : Dev.ok last.2.2 := by
    simp only [last]
    split
    · exact readLocal_ok _ _ _ _ h
    · exact h
  exact writeLocal_ok _ _ _ _ _ _ h1

theorem updateAfter_ok (p t : Nat) (r : Running) (it : Nat × Nat × Nat × Nat × Nat) (olds news : List Nat) (w : Dev × Bool) (h : okFst w) :
    okFst (updateAfter p t r it olds news w) := by
  unfold updateAfter
  split
  · exact h
  · extract_lets img n base d3 w2
    rw [okFst_mk]
    apply onCtl_ok
    refine foldl_keeps okFst _ ?_ (onCtl_ok _ h)
    intro b o hb
    split
    · exact hb
    · exact workingCopy_ok _ _ _ _ _ _ hb

theorem updatePut_ok (p t : Nat) (r : Running) (it : Nat × Nat × Nat × Nat × Nat) (olds news : List Nat) {d : Dev} (h : Dev.ok d) :
    okFst (updatePut p t r it olds news d) := by
  unfold updatePut
  exact updateAfter_ok _ _ _ _ _ _ _ (writeLocal_ok _ _ _ _ _ _ (onCtl_ok _ h))

theorem updateWith_ok (p t : Nat) (r : Running) (it : Nat × Nat × Nat × Nat × Nat) (x : List Byte × Bool × Dev) (h : okThird x) :
    okFst (updateWith p t r it x) := by
  unfold updateWith
  split
  · rw [okFst_mk]
    exact h
  · exact updatePut_ok _ _ _ _ _ _ h

theorem updateRow_ok (p t : Nat) (r : Running) (it : Nat × Nat × Nat × Nat × Nat) {d : Dev} (h : Dev.ok d) :
    okFst (updateRow p t r it d) := by
  unfold updateRow
  exact updateWith_ok _ _ _ _ _ (readLocal_ok _ _ _ _ h)

theorem vupdWork_ok (p : Nat) {d : Dev} (h : Dev.ok d) : Dev.ok (vupdWork p d) := by
  unfold vupdWork
  repeat' (first | split | dsimp only)
  all_goals (with_reducible repeat' (first | exact h | assumption | apply onCtl_ok | apply updateRow_ok | (refine foldl_keeps Dev.ok _ (fun _ _ _ => ?_) ?_) | (refine foldl_keeps okFst _ (fun _ _ _ => ?_) ?_) | (refine foldl_keeps okSnd _ (fun _ _ _ => ?_) ?_) | (refine foldl_keeps okThird _ (fun _ _ _ => ?_) ?_) | intro _ | split | dsimp only))

theorem regWriteOne_ok (pick : Bool) (off : Nat) (data : List Byte) {d : Dev} (h : Dev.ok d) : okFst (regWriteOne pick off data d) := by
  unfold regWriteOne
  repeat' (first | split | dsimp only)
  all_goals (with_reducible repeat' (first | exact h | assumption | apply onCtl_ok | apply writeReg_ok | simp only [okFst_mk] | intro _ | split | dsimp only))

theorem regWrite_ok (pick : Bool) (off : Nat) (data : List Byte) {d : Dev} (h : Dev.ok d) : okFst (regWrite pick off data d) := by
  unfold regWrite
  repeat' (first | split | dsimp only)
  all_goals (with_reducible repeat' (first | exact h | assumption | apply regWriteOne_ok | (refine foldl_keeps Dev.ok _ (fun _ _ _ => ?_) ?_) | (refine foldl_keeps okFst _ (fun _ _ _ => ?_) ?_) | (refine foldl_keeps okSnd _ (fun _ _ _ => ?_) ?_) | (refine foldl_keeps okThird _ (fun _ _ _ => ?_) ?_) | simp only [okFst_mk] | intro _ | split | dsimp only))

theorem readHere_ok (pick : Bool) (a : Nat) (n : Nat) {d : Dev} (h : Dev.ok d) : okThird (readHere pick a n d) := by
  unfold readHere
  repeat' (first | split | dsimp only)
  all_goals (with_reducible repeat' (first | exact h | assumption | simp only [okThird_mk] | simp only [ok_ctl] | simp only [ok_mk] | intro _ | split | dsimp only))

theorem readRun_ok (pick : Bool) (a : Nat) (n : Nat) {d : Dev} (h : Dev.ok d) : okThird (readRun pick a n d) := by
  unfold readRun
  repeat' (first | split | dsimp only)
  all_goals (with_reducible repeat' (first | exact h | assumption | apply readHere_ok | (refine foldl_keeps Dev.ok _ (fun _ _ _ => ?_) ?_) | (refine foldl_keeps okFst _ (fun _ _ _ => ?_) ?_) | (refine foldl_keeps okSnd _ (fun _ _ _ => ?_) ?_) | (refine foldl_keeps okThird _ (fun _ _ _ => ?_) ?_) | simp only [okThird_mk] | intro _ | split | dsimp only))

theorem overUnits_ok {d : Dev} (pick : Bool) (f : Nat → List Byte → Dev → Dev × Ended) (a : Nat) (data : List Byte) (h : Dev.ok d)
    (hf : ∀ a bs d, Dev.ok d → okFst (f a bs d)) : okFst (overUnits pick f a data d) := by
  unfold overUnits
  refine foldl_keeps okFst _ (fun x u hx => ?_) h
  split
  · exact hx
  · exact hf _ _ _ hx

theorem portDiscard_ok (a : Nat) {d : Dev} (h : Dev.ok d) : Dev.ok (portDiscard a d) := by
  unfold portDiscard
  repeat' (first | split | dsimp only)
  all_goals (with_reducible repeat' (first | exact h | assumption | apply onCtl_ok | intro _ | split | dsimp only))

theorem writePlain_ok (a : Nat) (data : List Byte) (who : HeldFor) {d : Dev} (h : Dev.ok d) : okFst (writePlain a data who d) := by
  unfold writePlain
  repeat' (first | split | dsimp only)
  all_goals (with_reducible repeat' (first | exact h | assumption | apply writeUnit_ok | apply regWrite_ok | apply portDiscard_ok | simp only [okFst_mk] | intro _ | split | dsimp only))

theorem writeRunPlain_ok (a : Nat) (data : List Byte) (who : HeldFor) {d : Dev} (h : Dev.ok d) : okFst (writeRunPlain a data who d) := by
  unfold writeRunPlain
  repeat' (first | split | dsimp only)
  all_goals (with_reducible repeat' (first | exact h | assumption | apply overUnits_ok | apply writePlain_ok | simp only [okFst_mk] | intro _ | split | dsimp only))

theorem atomicReturn_ok (old : Nat) (q : AtomicReq) (who : HeldFor) {d : Dev} (h : Dev.ok d) : okFst (atomicReturn old q who d) := by
  unfold atomicReturn
  repeat' (first | split | dsimp only)
  all_goals (with_reducible repeat' (first | exact h | assumption | apply onCtl_ok | apply overUnits_ok | apply writePlain_ok | simp only [okFst_mk] | intro _ | split | dsimp only))

theorem atomicData_ok (bytes : Nat) (f : Nat → Nat) (q : AtomicReq) (who : HeldFor) {d : Dev} (h : Dev.ok d) : okFst (atomicData bytes f q who d) := by
  unfold atomicData
  repeat' (first | split | dsimp only)
  all_goals (with_reducible repeat' (first | exact h | assumption | apply writeBytes_wf | apply atomicReturn_ok | simp only [okFst_mk] | simp only [ok_ctl] | simp only [ok_mk] | apply ok_store | intro _ | split | dsimp only))

theorem atomicFlag_ok (set : Bool) (q : AtomicReq) (who : HeldFor) {d : Dev} (h : Dev.ok d) : okFst (atomicFlag set q who d) := by
  unfold atomicFlag
  repeat' (first | split | dsimp only)
  all_goals (with_reducible repeat' (first | exact h | assumption | apply onCtl_ok | apply atomicReturn_ok | simp only [okFst_mk] | intro _ | split | dsimp only))

theorem atomicDo_ok (op : Nat) (q : AtomicReq) (who : HeldFor) {d : Dev} (h : Dev.ok d) : okFst (atomicDo op q who d) := by
  unfold atomicDo
  repeat' (first | split | dsimp only)
  all_goals (with_reducible repeat' (first | exact h | assumption | apply onCtl_ok | apply atomicData_ok | apply atomicFlag_ok | simp only [okFst_mk] | intro _ | split | dsimp only))

theorem atomicBytes_ok (bs : List Byte) (who : HeldFor) {d : Dev} (h : Dev.ok d) : okFst (atomicBytes bs who d) := by
  unfold atomicBytes
  repeat' (first | split | dsimp only)
  all_goals (with_reducible repeat' (first | exact h | assumption | apply atomicDo_ok | simp only [okFst_mk] | intro _ | split | dsimp only))

theorem slotWrite_ok (m : Nat) (o : Nat) (width : Nat) (v : Dword) (who : HeldFor) {d : Dev} (h : Dev.ok d) : okFst (slotWrite m o width v who d) := by
  unfold slotWrite
  repeat' (first | split | dsimp only)
  all_goals (with_reducible repeat' (first | exact h | assumption | apply onCtl_ok | apply portDiscard_ok | apply atomicDo_ok | simp only [okFst_mk] | intro _ | split | dsimp only))

theorem writeHere_ok (a : Nat) (data : List Byte) (who : HeldFor) {d : Dev} (h : Dev.ok d) : okFst (writeHere a data who d) := by
  unfold writeHere
  repeat' (first | split | dsimp only)
  all_goals (with_reducible repeat' (first | exact h | assumption | apply portDiscard_ok | apply writePlain_ok | apply atomicBytes_ok | simp only [okFst_mk] | intro _ | split | dsimp only))

theorem writeRun_ok (a : Nat) (data : List Byte) (who : HeldFor) {d : Dev} (h : Dev.ok d) : okFst (writeRun a data who d) := by
  unfold writeRun
  repeat' (first | split | dsimp only)
  all_goals (with_reducible repeat' (first | exact h | assumption | apply writeRunPlain_ok | apply writeHere_ok | simp only [okFst_mk] | intro _ | split | dsimp only))

theorem addHere_ok (fmt : Nat) (a : Nat) (data : List Byte) (who : HeldFor) {d : Dev} (h : Dev.ok d) : okFst (addHere fmt a data who d) := by
  unfold addHere
  repeat' (first | split | dsimp only)
  all_goals (with_reducible repeat' (first | exact h | assumption | apply addUnit_ok | simp only [okFst_mk] | intro _ | split | dsimp only))

theorem addRun_ok (fmt : Nat) (a : Nat) (data : List Byte) (who : HeldFor) {d : Dev} (h : Dev.ok d) : okFst (addRun fmt a data who d) := by
  unfold addRun
  repeat' (first | split | dsimp only)
  all_goals (with_reducible repeat' (first | exact h | assumption | apply overUnits_ok | apply addHere_ok | simp only [okFst_mk] | intro _ | split | dsimp only))

theorem atomicCmd_ok (op : Nat) (a : AtomicReq) {d : Dev} (h : Dev.ok d) : Dev.ok (atomicCmd op a d) := by
  unfold atomicCmd
  repeat' (first | split | dsimp only)
  all_goals (with_reducible repeat' (first | exact h | assumption | apply onCtl_ok | apply atomicDo_ok | intro _ | split | dsimp only))

theorem cpStore_ok (i : Nat) (addr : Nat) (width : Nat) (v : Dword) {d : Dev} (h : Dev.ok d) : Dev.ok (cpStore i addr width v d) := by
  unfold cpStore
  repeat' (first | split | dsimp only)
  all_goals (with_reducible repeat' (first | exact h | assumption | apply onCtl_ok | apply slotWrite_ok | apply writeHere_ok | intro _ | split | dsimp only))

theorem regPiece_ok (a : Nat) (data : List Byte) {d : Dev} (h : Dev.ok d) : okFst (regPiece a data d) := by
  unfold regPiece
  repeat' (first | split | dsimp only)
  all_goals (with_reducible repeat' (first | exact h | assumption | apply onCtl_ok | apply regWriteOne_ok | simp only [okFst_mk] | intro _ | split | dsimp only))

theorem pieceRead_ok (a : Nat) (n : Nat) {d : Dev} (h : Dev.ok d) : okThird (pieceRead a n d) := by
  unfold pieceRead
  repeat' (first | split | dsimp only)
  all_goals (with_reducible repeat' (first | exact h | assumption | apply readHere_ok | apply readRun_ok | simp only [okThird_mk] | intro _ | split | dsimp only))

theorem pieceWrite_ok (who : HeldFor) (dst : Nat) (add : Option Nat) (data : List Byte) {d : Dev} (h : Dev.ok d) : okFst (pieceWrite who dst add data d) := by
  unfold pieceWrite
  repeat' (first | split | dsimp only)
  all_goals (with_reducible repeat' (first | exact h | assumption | apply onCtl_ok | apply writeRun_ok | apply addRun_ok | apply regPiece_ok | simp only [okFst_mk] | intro _ | split | dsimp only))

theorem moveWrite_ok (p : Nat) (num : Nat) (dst : Nat) (add : Option Nat) (data : List Byte) {d : Dev} (h : Dev.ok d) : Dev.ok (moveWrite p num dst add data d) := by
  unfold moveWrite
  repeat' (first | split | dsimp only)
  all_goals (with_reducible repeat' (first | exact h | assumption | apply onCtl_ok | apply pieceWrite_ok | intro _ | split | dsimp only))

theorem moveIssue_ok (p : Nat) (x : Piece) {d : Dev} (h : Dev.ok d) : Dev.ok (moveIssue p x d) := by
  unfold moveIssue
  repeat' (first | split | dsimp only)
  all_goals (with_reducible repeat' (first | exact h | assumption | apply onCtl_ok | apply pieceRead_ok | apply moveWrite_ok | intro _ | split | dsimp only))

theorem imagesLoad_ok (p : Nat) (r : Running) (bs : List Byte) {d : Dev} (h : Dev.ok d) : Dev.ok (imagesLoad p r bs d) := by
  unfold imagesLoad
  repeat' (first | split | dsimp only)
  all_goals (with_reducible repeat' (first | exact h | assumption | apply writePick_wf | (refine forN_keeps Dev.ok _ (fun _ _ _ => ?_) ?_) | simp only [ok_ctl] | simp only [ok_mk] | apply ok_store | intro _ | split | dsimp only))

theorem gatherGot_ok (p : Nat) (k : Nat) (bs : List Byte) {d : Dev} (h : Dev.ok d) : Dev.ok (gatherGot p k bs d) := by
  unfold gatherGot
  repeat' (first | split | dsimp only)
  all_goals (with_reducible repeat' (first | exact h | assumption | apply onCtl_ok | apply imagesLoad_ok | intro _ | split | dsimp only))

theorem gatherAbsent_ok (p : Nat) (k : Nat) {d : Dev} (h : Dev.ok d) : Dev.ok (gatherAbsent p k d) := by
  unfold gatherAbsent
  repeat' (first | split | dsimp only)
  all_goals (with_reducible repeat' (first | exact h | assumption | apply onCtl_ok | apply imagesLoad_ok | intro _ | split | dsimp only))

theorem gatherIssue_ok (p : Nat) (x : Piece) {d : Dev} (h : Dev.ok d) : Dev.ok (gatherIssue p x d) := by
  unfold gatherIssue
  repeat' (first | split | dsimp only)
  all_goals (with_reducible repeat' (first | exact h | assumption | apply onCtl_ok | apply readHere_ok | apply gatherGot_ok | apply gatherAbsent_ok | intro _ | split | dsimp only))

theorem pumpOne_ok (p : Nat) {d : Dev} (h : Dev.ok d) : Dev.ok (pumpOne p d) := by
  unfold pumpOne
  repeat' (first | split | dsimp only)
  all_goals (with_reducible repeat' (first | exact h | assumption | apply onCtl_ok | apply inCycleDev_ok | apply moveIssue_ok | apply gatherIssue_ok | intro _ | split | dsimp only))

theorem pump_ok (p : Nat) {d : Dev} (h : Dev.ok d) : Dev.ok (pump p d) := by
  unfold pump
  repeat' (first | split | dsimp only)
  all_goals (with_reducible repeat' (first | exact h | assumption | apply pumpOne_ok | (refine forN_keeps Dev.ok _ (fun _ _ _ => ?_) ?_) | intro _ | split | dsimp only))

theorem shuttleStart_ok (op : Nat) (p : Nat) (pieces : Running → List Piece) (ok : Running → Bool) {d : Dev} (h : Dev.ok d) : Dev.ok (shuttleStart op p pieces ok d) := by
  unfold shuttleStart
  repeat' (first | split | dsimp only)
  all_goals (with_reducible repeat' (first | exact h | assumption | apply onCtl_ok | apply pump_ok | intro _ | split | dsimp only))

theorem flagPick_ok (clear : Bool) (p : Nat) {d : Dev} (h : Dev.ok d) : Dev.ok (flagPick clear p d) := by
  unfold flagPick
  repeat' (first | split | dsimp only)
  all_goals (with_reducible repeat' (first | exact h | assumption | apply onCtl_ok | apply atomicFlag_ok | intro _ | split | dsimp only))

theorem onCore_ok {d : Dev} (p : Nat) (f : Dev → Dev) (h : Dev.ok d)
    (hf : ∀ d, Dev.ok d → Dev.ok (f d)) : Dev.ok (onCore p f d) := by
  unfold onCore
  split
  · exact hf _ h
  · exact h

theorem bar0Write_ok (off : Nat) (width : Nat) (v : Dword) {d : Dev} (h : Dev.ok d) : Dev.ok (bar0Write off width v d) := by
  unfold bar0Write
  repeat' (first | split | dsimp only)
  all_goals (with_reducible repeat' (first | exact h | assumption | apply onCtl_ok | apply writeReg_ok | intro _ | split | dsimp only))

theorem portholeRead_ok (o : PortOp) {d : Dev} (h : Dev.ok d) : Dev.ok (portholeRead o d) := by
  unfold portholeRead
  repeat' (first | split | dsimp only)
  all_goals (with_reducible repeat' (first | exact h | assumption | apply onCtl_ok | apply readHere_ok | intro _ | split | dsimp only))

theorem portholeWrite_ok (o : PortOp) {d : Dev} (h : Dev.ok d) : Dev.ok (portholeWrite o d) := by
  unfold portholeWrite
  repeat' (first | split | dsimp only)
  all_goals (with_reducible repeat' (first | exact h | assumption | apply onCtl_ok | apply slotWrite_ok | apply writeHere_ok | intro _ | split | dsimp only))

theorem opServe_ok (o : PortOp) {d : Dev} (h : Dev.ok d) : Dev.ok (opServe o d) := by
  unfold opServe
  repeat' (first | split | dsimp only)
  all_goals (with_reducible repeat' (first | exact h | assumption | apply onCtl_ok | apply bar0Write_ok | apply portholeRead_ok | apply portholeWrite_ok | intro _ | split | dsimp only))

theorem portStep_ok {d : Dev} (h : Dev.ok d) : Dev.ok (portStep d) := by
  unfold portStep
  repeat' (first | split | dsimp only)
  all_goals (with_reducible repeat' (first | exact h | assumption | apply onCtl_ok | apply opServe_ok | intro _ | split | dsimp only))

theorem portRun_ok {d : Dev} (h : Dev.ok d) : Dev.ok (portRun d) := by
  unfold portRun
  repeat' (first | split | dsimp only)
  all_goals (with_reducible repeat' (first | exact h | assumption | apply portStep_ok | (refine forN_keeps Dev.ok _ (fun _ _ _ => ?_) ?_) | intro _ | split | dsimp only))

theorem hostRequest_ok (q : HostReq) {d : Dev} (h : Dev.ok d) : Dev.ok (hostRequest q d) := by
  unfold hostRequest
  repeat' (first | split | dsimp only)
  all_goals (with_reducible repeat' (first | exact h | assumption | apply onCtl_ok | apply portRun_ok | intro _ | split | dsimp only))

theorem hostResetRun_ok (down : Bool) (counted : Bool) {d : Dev} (h : Dev.ok d) : Dev.ok (hostResetRun down counted d) := by
  unfold hostResetRun
  repeat' (first | split | dsimp only)
  all_goals (with_reducible repeat' (first | exact h | assumption | apply onCtl_ok | apply portRun_ok | intro _ | split | dsimp only))

theorem portholeTimeout_ok {d : Dev} (h : Dev.ok d) : Dev.ok (portholeTimeout d) := by
  unfold portholeTimeout
  repeat' (first | split | dsimp only)
  all_goals (with_reducible repeat' (first | exact h | assumption | apply onCtl_ok | apply portRun_ok | simp only [ok_ctl] | simp only [ok_mk] | intro _ | split | dsimp only))

theorem slotFill_ok (m : Nat) (off : Nat) (width : Nat) (v : Dword) {d : Dev} (h : Dev.ok d) : Dev.ok (slotFill m off width v d) := by
  unfold slotFill
  repeat' (first | split | dsimp only)
  all_goals (with_reducible repeat' (first | exact h | assumption | apply onCtl_ok | apply slotWrite_ok | apply cpStore_ok | intro _ | split | dsimp only))

theorem writeOver_ok (w : HeldFor) {d : Dev} (h : Dev.ok d) : Dev.ok (writeOver w d) := by
  unfold writeOver
  repeat' (first | split | dsimp only)
  all_goals (with_reducible repeat' (first | exact h | assumption | apply onCtl_ok | intro _ | split | dsimp only))

theorem reqNext_ok (k : Cont) {d : Dev} (h : Dev.ok d) : Dev.ok (reqNext k d) := by
  unfold reqNext
  repeat' (first | split | dsimp only)
  all_goals (with_reducible repeat' (first | exact h | assumption | apply pump_ok | apply portRun_ok | intro _ | split | dsimp only))

theorem reqTake_ok (r : Req) (status : Nat) (data : List Byte) {d : Dev} (h : Dev.ok d) : Dev.ok (reqTake r status data d) := by
  unfold reqTake
  repeat' (first | split | dsimp only)
  all_goals (with_reducible repeat' (first | exact h | assumption | apply onCtl_ok | apply pieceWrite_ok | apply moveWrite_ok | apply gatherGot_ok | apply gatherAbsent_ok | apply writeOver_ok | intro _ | split | dsimp only))

theorem reqAnswer_ok (r : Req) (status : Nat) (data : List Byte) {d : Dev} (h : Dev.ok d) : Dev.ok (reqAnswer r status data d) := by
  unfold reqAnswer
  repeat' (first | split | dsimp only)
  all_goals (with_reducible repeat' (first | exact h | assumption | apply inCycleDev_ok | apply reqNext_ok | apply reqTake_ok | intro _ | split | dsimp only))

theorem gotResponse_ok (isRead : Bool) (lost : Nat) (rx : Rx) {d : Dev} (h : Dev.ok d) : Dev.ok (gotResponse isRead lost rx d) := by
  unfold gotResponse
  repeat' (first | split | dsimp only)
  all_goals (with_reducible repeat' (first | exact h | assumption | apply onCtl_ok | apply reqAnswer_ok | intro _ | split | dsimp only))

theorem reqExpire_ok (tag : Nat) (r : Req) {d : Dev} (h : Dev.ok d) : Dev.ok (reqExpire tag r d) := by
  unfold reqExpire
  repeat' (first | split | dsimp only)
  all_goals (with_reducible repeat' (first | exact h | assumption | apply onCtl_ok | apply inCycleDev_ok | apply reqNext_ok | apply reqTake_ok | intro _ | split | dsimp only))

theorem reqDue_ok (tag : Nat) {d : Dev} (h : Dev.ok d) : Dev.ok (reqDue tag d) := by
  unfold reqDue
  repeat' (first | split | dsimp only)
  all_goals (with_reducible repeat' (first | exact h | assumption | apply onCtl_ok | apply reqAnswer_ok | apply reqExpire_ok | intro _ | split | dsimp only))

theorem reqsDue_ok {d : Dev} (h : Dev.ok d) : Dev.ok (reqsDue d) := by
  unfold reqsDue
  repeat' (first | split | dsimp only)
  all_goals (with_reducible repeat' (first | exact h | assumption | apply reqDue_ok | (refine foldl_keeps Dev.ok _ (fun _ _ _ => ?_) ?_) | (refine foldl_keeps okFst _ (fun _ _ _ => ?_) ?_) | (refine foldl_keeps okSnd _ (fun _ _ _ => ?_) ?_) | (refine foldl_keeps okThird _ (fun _ _ _ => ?_) ?_) | intro _ | split | dsimp only))

theorem serveRead_ok (rx : Rx) {d : Dev} (h : Dev.ok d) : Dev.ok (serveRead rx d) := by
  unfold serveRead
  repeat' (first | split | dsimp only)
  all_goals (with_reducible repeat' (first | exact h | assumption | apply onCtl_ok | apply readRun_ok | intro _ | split | dsimp only))

theorem gotReadReq_ok (lost : Nat) (rx : Rx) {d : Dev} (h : Dev.ok d) : Dev.ok (gotReadReq lost rx d) := by
  unfold gotReadReq
  repeat' (first | split | dsimp only)
  all_goals (with_reducible repeat' (first | exact h | assumption | apply onCtl_ok | apply serveRead_ok | intro _ | split | dsimp only))

theorem heldReadsServe_ok {d : Dev} (h : Dev.ok d) : Dev.ok (heldReadsServe d) := by
  unfold heldReadsServe
  repeat' (first | split | dsimp only)
  all_goals (with_reducible repeat' (first | exact h | assumption | apply onCtl_ok | apply serveRead_ok | (refine foldl_keeps Dev.ok _ (fun _ _ _ => ?_) ?_) | (refine foldl_keeps okFst _ (fun _ _ _ => ?_) ?_) | (refine foldl_keeps okSnd _ (fun _ _ _ => ?_) ?_) | (refine foldl_keeps okThird _ (fun _ _ _ => ?_) ?_) | intro _ | split | dsimp only))

theorem acknowledge_ok (rx : Rx) (e : Ended) {d : Dev} (h : Dev.ok d) : Dev.ok (acknowledge rx e d) := by
  unfold acknowledge
  repeat' (first | split | dsimp only)
  all_goals (with_reducible repeat' (first | exact h | assumption | apply onCtl_ok | intro _ | split | dsimp only))

theorem writeRefused_ok {d e : Dev} (rx : Rx) (h : Dev.ok d) (he : writeRefused rx d = some e) : Dev.ok e := by
  unfold writeRefused at he
  split at he
  · simp only [Option.some.injEq] at he; subst he; exact onCtl_ok _ h
  · simp at he

theorem gotWrite_ok {d : Dev} (lost : Nat) (rx : Rx) (h : Dev.ok d) : Dev.ok (gotWrite lost rx d) := by
  unfold gotWrite
  split
  · rename_i he; exact writeRefused_ok rx h he
  · extract_lets r
    exact acknowledge_ok _ _ (writeRun_ok _ _ _ h)

theorem gotAddWrite_ok {d : Dev} (lost : Nat) (rx : Rx) (h : Dev.ok d) : Dev.ok (gotAddWrite lost rx d) := by
  unfold gotAddWrite
  split
  · rename_i he; exact writeRefused_ok rx h he
  · extract_lets fmt k r
    exact acknowledge_ok _ _ (addRun_ok _ _ _ _ h)

theorem powerOnState_ok (c : Ctl) : Dev.ok (powerOnState c) := rfl

theorem startUp_ok {d : Dev} (h : Dev.ok d) : Dev.ok (startUp d) := by
  unfold startUp
  repeat' (first | split | dsimp only)
  all_goals (with_reducible repeat' (first | exact h | assumption | apply onCtl_ok | intro _ | split | dsimp only))

theorem applyPower_ok {d : Dev} (h : Dev.ok d) : Dev.ok (applyPower d) := by
  unfold applyPower
  repeat' (first | split | dsimp only)
  all_goals (with_reducible repeat' (first | exact h | assumption | apply onCtl_ok | apply startUp_ok | intro _ | split | dsimp only))

theorem resetRelease_ok {d : Dev} (h : Dev.ok d) : Dev.ok (resetRelease d) := by
  unfold resetRelease
  repeat' (first | split | dsimp only)
  all_goals (with_reducible repeat' (first | exact h | assumption | apply onCtl_ok | apply startUp_ok | intro _ | split | dsimp only))

theorem sidebandReset_ok {d : Dev} (h : Dev.ok d) : Dev.ok (sidebandReset d) := by
  unfold sidebandReset
  repeat' (first | split | dsimp only)
  all_goals (with_reducible repeat' (first | exact h | assumption | apply onCtl_ok | apply powerOnState_ok | intro _ | split | dsimp only))

theorem switchOff_ok (why : Nat) (latch : Bool) {d : Dev} (h : Dev.ok d) : Dev.ok (switchOff why latch d) := by
  unfold switchOff
  repeat' (first | split | dsimp only)
  all_goals (with_reducible repeat' (first | exact h | assumption | apply onCtl_ok | apply powerOnState_ok | intro _ | split | dsimp only))

theorem overheat_ok {d : Dev} (h : Dev.ok d) : Dev.ok (overheat d) := by
  unfold overheat
  repeat' (first | split | dsimp only)
  all_goals (with_reducible repeat' (first | exact h | assumption | apply onCtl_ok | apply switchOff_ok | intro _ | split | dsimp only))

theorem restartPower_ok {d : Dev} (h : Dev.ok d) : Dev.ok (restartPower d) := by
  unfold restartPower
  repeat' (first | split | dsimp only)
  all_goals (with_reducible repeat' (first | exact h | assumption | apply onCtl_ok | apply startUp_ok | intro _ | split | dsimp only))

theorem removePower_ok {d : Dev} (h : Dev.ok d) : Dev.ok (removePower d) := by
  unfold removePower
  repeat' (first | split | dsimp only)
  all_goals (with_reducible repeat' (first | exact h | assumption | apply onCtl_ok | apply receive_ok | apply powerOnState_ok | intro _ | split | dsimp only))

theorem clockLost_ok (k : RefClk) {d : Dev} (h : Dev.ok d) : Dev.ok (clockLost k d) := by
  unfold clockLost
  repeat' (first | split | dsimp only)
  all_goals (with_reducible repeat' (first | exact h | assumption | apply onCtl_ok | apply hostResetRun_ok | apply powerOnState_ok | (refine forN_keeps Dev.ok _ (fun _ _ _ => ?_) ?_) | simp only [ok_ctl] | simp only [ok_mk] | apply ok_store | intro _ | split | dsimp only))

theorem clockBack_ok (k : RefClk) {d : Dev} (h : Dev.ok d) : Dev.ok (clockBack k d) := by
  unfold clockBack
  repeat' (first | split | dsimp only)
  all_goals (with_reducible repeat' (first | exact h | assumption | apply onCtl_ok | simp only [ok_ctl] | simp only [ok_mk] | apply ok_store | intro _ | split | dsimp only))

theorem collWrite_ok (p : Nat) (first : Nat) (codes : List Nat) {d : Dev} (h : Dev.ok d) : Dev.ok (collWrite p first codes d) := by
  unfold collWrite
  repeat' (first | split | dsimp only)
  all_goals (with_reducible repeat' (first | exact h | assumption | apply onCtl_ok | apply inCycleDev_ok | apply writeRun_ok | simp only [ok_ctl] | simp only [ok_mk] | intro _ | split | dsimp only))

theorem sumsOut_ok (p : Nat) (x : Sums) {d : Dev} (h : Dev.ok d) : Dev.ok (sumsOut p x d) := by
  unfold sumsOut
  repeat' (first | split | dsimp only)
  all_goals (with_reducible repeat' (first | exact h | assumption | apply onCtl_ok | apply collWrite_ok | (refine foldl_keeps Dev.ok _ (fun _ _ _ => ?_) ?_) | (refine foldl_keeps okFst _ (fun _ _ _ => ?_) ?_) | (refine foldl_keeps okSnd _ (fun _ _ _ => ?_) ?_) | (refine foldl_keeps okThird _ (fun _ _ _ => ?_) ?_) | intro _ | split | dsimp only))

theorem collSettle_ok (p : Nat) {d : Dev} (h : Dev.ok d) : Dev.ok (collSettle p d) := by
  unfold collSettle
  repeat' (first | split | dsimp only)
  all_goals (with_reducible repeat' (first | exact h | assumption | apply onCtl_ok | intro _ | split | dsimp only))

theorem collInput_ok (img : List Word) (r : CollRun) {d : Dev} (h : Dev.ok d) : okThird (collInput img r d) := by
  unfold collInput
  repeat' (first | split | dsimp only)
  all_goals (with_reducible repeat' (first | exact h | assumption | apply readRun_ok | simp only [okThird_mk] | intro _ | split | dsimp only))

theorem collBegin_ok (p : Nat) (r : CollRun) {d : Dev} (h : Dev.ok d) : Dev.ok (collBegin p r d) := by
  unfold collBegin
  repeat' (first | split | dsimp only)
  all_goals (with_reducible repeat' (first | exact h | assumption | apply onCtl_ok | apply collWrite_ok | apply sumsOut_ok | (refine foldl_keeps Dev.ok _ (fun _ _ _ => ?_) ?_) | (refine foldl_keeps okFst _ (fun _ _ _ => ?_) ?_) | (refine foldl_keeps okSnd _ (fun _ _ _ => ?_) ?_) | (refine foldl_keeps okThird _ (fun _ _ _ => ?_) ?_) | intro _ | split | dsimp only))

theorem collFetch_ok (p : Nat) (img : List Word) (r : CollRun) {d : Dev} (h : Dev.ok d) : Dev.ok (collFetch p img r d) := by
  unfold collFetch
  repeat' (first | split | dsimp only)
  all_goals (with_reducible repeat' (first | exact h | assumption | apply onCtl_ok | apply collInput_ok | intro _ | split | dsimp only))

theorem collGo_ok (p : Nat) {d : Dev} (h : Dev.ok d) : Dev.ok (collGo p d) := by
  unfold collGo
  repeat' (first | split | dsimp only)
  all_goals (with_reducible repeat' (first | exact h | assumption | apply onCtl_ok | apply collSettle_ok | apply collBegin_ok | (refine foldl_keeps Dev.ok _ (fun _ _ _ => ?_) ?_) | (refine foldl_keeps okFst _ (fun _ _ _ => ?_) ?_) | (refine foldl_keeps okSnd _ (fun _ _ _ => ?_) ?_) | (refine foldl_keeps okThird _ (fun _ _ _ => ?_) ?_) | intro _ | split | dsimp only))

theorem collStart_ok (ty : Nat) (p : Nat) {d : Dev} (h : Dev.ok d) : Dev.ok (collStart ty p d) := by
  unfold collStart
  repeat' (first | split | dsimp only)
  all_goals (with_reducible repeat' (first | exact h | assumption | apply onCtl_ok | apply inCycleDev_ok | apply collFetch_ok | apply collGo_ok | intro _ | split | dsimp only))

theorem collLost_ok (rx : Rx) {d : Dev} (h : Dev.ok d) : Dev.ok (collLost rx d) := by
  unfold collLost
  repeat' (first | split | dsimp only)
  all_goals (with_reducible repeat' (first | exact h | assumption | apply onCtl_ok | apply collWrite_ok | (refine foldl_keeps Dev.ok _ (fun _ _ _ => ?_) ?_) | (refine foldl_keeps okFst _ (fun _ _ _ => ?_) ?_) | (refine foldl_keeps okSnd _ (fun _ _ _ => ?_) ?_) | (refine foldl_keeps okThird _ (fun _ _ _ => ?_) ?_) | intro _ | split | dsimp only))

theorem collFrame_ok {d : Dev} (way : CollWay) (f : Rx → Dev → Dev) (lost : Nat) (rx : Rx) (h : Dev.ok d)
    (hf : ∀ rx d, Dev.ok d → Dev.ok (f rx d)) : Dev.ok (collFrame way f lost rx d) := by
  unfold collFrame
  extract_lets d1
  have h1 : Dev.ok d1 := by
    simp only [d1]
    split
    · exact h
    · exact collLost_ok _ h
  clear_value d1
  split
  · exact onCtl_ok _ h1
  · exact hf _ _ (onCtl_ok _ h1)

theorem collFor_ok {d : Dev} (f : Nat → CollRun → Nat → Rx → Dev → Dev) (rx : Rx) (h : Dev.ok d)
    (hf : ∀ p r q rx d, Dev.ok d → Dev.ok (f p r q rx d)) : Dev.ok (collFor f rx d) := by
  unfold collFor
  split
  · exact h
  · split
    · exact inCycleDev_ok _ h (fun _ h => collSettle_ok _ (hf _ _ _ _ _ h))
    · exact h

theorem gotPart_ok (lost : Nat) (rx : Rx) {d : Dev} (h : Dev.ok d) : Dev.ok (gotPart lost rx d) := by
  unfold gotPart
  repeat' (first | split | dsimp only)
  all_goals (with_reducible repeat' (first | exact h | assumption | apply sumsOut_ok | apply collFrame_ok | apply collFor_ok | (refine foldl_keeps Dev.ok _ (fun _ _ _ => ?_) ?_) | (refine foldl_keeps okFst _ (fun _ _ _ => ?_) ?_) | (refine foldl_keeps okSnd _ (fun _ _ _ => ?_) ?_) | (refine foldl_keeps okThird _ (fun _ _ _ => ?_) ?_) | intro _ | split | dsimp only))

theorem gotData_ok (lost : Nat) (rx : Rx) {d : Dev} (h : Dev.ok d) : Dev.ok (gotData lost rx d) := by
  unfold gotData
  repeat' (first | split | dsimp only)
  all_goals (with_reducible repeat' (first | exact h | assumption | apply collWrite_ok | apply collFrame_ok | apply collFor_ok | intro _ | split | dsimp only))

theorem gotRing_ok (lost : Nat) (rx : Rx) {d : Dev} (h : Dev.ok d) : Dev.ok (gotRing lost rx d) := by
  unfold gotRing
  repeat' (first | split | dsimp only)
  all_goals (with_reducible repeat' (first | exact h | assumption | apply collWrite_ok | apply collFrame_ok | apply collFor_ok | intro _ | split | dsimp only))

theorem gotDigest_ok (lost : Nat) (rx : Rx) {d : Dev} (h : Dev.ok d) : Dev.ok (gotDigest lost rx d) := by
  unfold gotDigest
  repeat' (first | split | dsimp only)
  all_goals (with_reducible repeat' (first | exact h | assumption | apply onCtl_ok | apply collWrite_ok | apply collFrame_ok | apply collFor_ok | intro _ | split | dsimp only))

theorem gotCready_ok (lost : Nat) (rx : Rx) {d : Dev} (h : Dev.ok d) : Dev.ok (gotCready lost rx d) := by
  unfold gotCready
  repeat' (first | split | dsimp only)
  all_goals (with_reducible repeat' (first | exact h | assumption | apply onCtl_ok | apply collFrame_ok | apply collFor_ok | intro _ | split | dsimp only))

theorem gotVoteUp_ok (lost : Nat) (rx : Rx) {d : Dev} (h : Dev.ok d) : Dev.ok (gotVoteUp lost rx d) := by
  unfold gotVoteUp
  repeat' (first | split | dsimp only)
  all_goals (with_reducible repeat' (first | exact h | assumption | apply onCtl_ok | apply collFrame_ok | intro _ | split | dsimp only))

theorem gotVoteDown_ok (lost : Nat) (rx : Rx) {d : Dev} (h : Dev.ok d) : Dev.ok (gotVoteDown lost rx d) := by
  unfold gotVoteDown
  repeat' (first | split | dsimp only)
  all_goals (with_reducible repeat' (first | exact h | assumption | apply onCtl_ok | apply collFrame_ok | intro _ | split | dsimp only))

theorem fileStart_ok {d : Dev} (h : Dev.ok d) : Dev.ok (fileStart d) := by
  unfold fileStart
  repeat' (first | split | dsimp only)
  all_goals (with_reducible repeat' (first | exact h | assumption | apply onCtl_ok | apply writeLong_ok | intro _ | split | dsimp only))

theorem fileDone_ok {d : Dev} (h : Dev.ok d) : Dev.ok (fileDone d) := by
  unfold fileDone
  repeat' (first | split | dsimp only)
  all_goals (with_reducible repeat' (first | exact h | assumption | apply onCtl_ok | apply readLong_ok | apply writeLong_ok | intro _ | split | dsimp only))

theorem noteStretch_ok (k : Nat) (s : Nat) {d : Dev} (h : Dev.ok d) : Dev.ok (noteStretch k s d) := by
  unfold noteStretch
  repeat' (first | split | dsimp only)
  all_goals (with_reducible repeat' (first | exact h | assumption | apply onCtl_ok | apply writeUnit_ok | intro _ | split | dsimp only))

theorem countsCheck_ok {d : Dev} (h : Dev.ok d) : Dev.ok (countsCheck d) := by
  unfold countsCheck
  repeat' (first | split | dsimp only)
  all_goals (with_reducible repeat' (first | exact h | assumption | apply onCtl_ok | intro _ | split | dsimp only))

theorem firstBeatEnd_ok {d : Dev} (h : Dev.ok d) : Dev.ok (firstBeatEnd d) := by
  unfold firstBeatEnd
  repeat' (first | split | dsimp only)
  all_goals (with_reducible repeat' (first | exact h | assumption | apply fileStart_ok | apply countsCheck_ok | intro _ | split | dsimp only))

theorem stageRestored_ok {d : Dev} (h : Dev.ok d) : Dev.ok (stageRestored d) := by
  unfold stageRestored
  repeat' (first | split | dsimp only)
  all_goals (with_reducible repeat' (first | exact h | assumption | apply onCtl_ok | apply readRun_ok | apply writeRunPlain_ok | (refine foldl_keeps Dev.ok _ (fun _ _ _ => ?_) ?_) | (refine foldl_keeps okFst _ (fun _ _ _ => ?_) ?_) | (refine foldl_keeps okSnd _ (fun _ _ _ => ?_) ?_) | (refine foldl_keeps okThird _ (fun _ _ _ => ?_) ?_) | intro _ | split | dsimp only))

theorem takeUps_ok {d : Dev} (h : Dev.ok d) : Dev.ok (takeUps d) := by
  unfold takeUps
  repeat' (first | split | dsimp only)
  all_goals (with_reducible repeat' (first | exact h | assumption | apply onCtl_ok | (refine foldl_keeps Dev.ok _ (fun _ _ _ => ?_) ?_) | (refine foldl_keeps okFst _ (fun _ _ _ => ?_) ?_) | (refine foldl_keeps okSnd _ (fun _ _ _ => ?_) ?_) | (refine foldl_keeps okThird _ (fun _ _ _ => ?_) ?_) | intro _ | split | dsimp only))

theorem rootCombine_ok {d : Dev} (h : Dev.ok d) : Dev.ok (rootCombine d) := by
  unfold rootCombine
  repeat' (first | split | dsimp only)
  all_goals (with_reducible repeat' (first | exact h | assumption | apply onCtl_ok | apply takeUps_ok | intro _ | split | dsimp only))

theorem timeUpSend_ok (now : Nat) {d : Dev} (h : Dev.ok d) : Dev.ok (timeUpSend now d) := by
  unfold timeUpSend
  repeat' (first | split | dsimp only)
  all_goals (with_reducible repeat' (first | exact h | assumption | apply onCtl_ok | apply takeUps_ok | intro _ | split | dsimp only))

theorem timeDownSend_ok (now : Nat) {d : Dev} (h : Dev.ok d) : Dev.ok (timeDownSend now d) := by
  unfold timeDownSend
  repeat' (first | split | dsimp only)
  all_goals (with_reducible repeat' (first | exact h | assumption | apply onCtl_ok | apply rootCombine_ok | intro _ | split | dsimp only))

theorem gotTimeUp_ok (lost : Nat) (rx : Rx) {d : Dev} (h : Dev.ok d) : Dev.ok (gotTimeUp lost rx d) := by
  unfold gotTimeUp
  repeat' (first | split | dsimp only)
  all_goals (with_reducible repeat' (first | exact h | assumption | apply onCtl_ok | simp only [ok_ctl] | simp only [ok_mk] | apply ok_store | intro _ | split | dsimp only))

theorem gotTimeDown_ok (lost : Nat) (rx : Rx) {d : Dev} (h : Dev.ok d) : Dev.ok (gotTimeDown lost rx d) := by
  unfold gotTimeDown
  repeat' (first | split | dsimp only)
  all_goals (with_reducible repeat' (first | exact h | assumption | apply onCtl_ok | intro _ | split | dsimp only))

theorem guardStops_ok (cycle : Nat) {d : Dev} (h : Dev.ok d) : Dev.ok (guardStops cycle d) := by
  unfold guardStops
  repeat' (first | split | dsimp only)
  all_goals (with_reducible repeat' (first | exact h | assumption | apply onCtl_ok | apply guardTreadles_ok | intro _ | split | dsimp only))

theorem sampleEntry_ok (e : Nat) (x : SampleEnt) {d : Dev} (h : Dev.ok d) : Dev.ok (sampleEntry e x d) := by
  unfold sampleEntry
  repeat' (first | split | dsimp only)
  all_goals (with_reducible repeat' (first | exact h | assumption | apply onCtl_ok | simp only [ok_ctl] | simp only [ok_mk] | intro _ | split | dsimp only))

theorem sampleGuard_ok {d : Dev} (h : Dev.ok d) : Dev.ok (sampleGuard d) := by
  unfold sampleGuard
  repeat' (first | split | dsimp only)
  all_goals (with_reducible repeat' (first | exact h | assumption | apply sampleEntry_ok | (refine foldl_keeps Dev.ok _ (fun _ _ _ => ?_) ?_) | (refine foldl_keeps okFst _ (fun _ _ _ => ?_) ?_) | (refine foldl_keeps okSnd _ (fun _ _ _ => ?_) ?_) | (refine foldl_keeps okThird _ (fun _ _ _ => ?_) ?_) | intro _ | split | dsimp only))

theorem guardStart_ok (cycle : Nat) {d : Dev} (h : Dev.ok d) : Dev.ok (guardStart cycle d) := by
  unfold guardStart
  repeat' (first | split | dsimp only)
  all_goals (with_reducible repeat' (first | exact h | assumption | apply onCtl_ok | apply guardStops_ok | apply sampleGuard_ok | intro _ | split | dsimp only))

theorem openStep_ok (s : Nat) {d : Dev} (h : Dev.ok d) : Dev.ok (openStep s d) := by
  unfold openStep
  repeat' (first | split | dsimp only)
  all_goals (with_reducible repeat' (first | exact h | assumption | apply onCtl_ok | apply reloadOpen_ok | intro _ | split | dsimp only))

theorem beginStep_ok (s : Nat) {d : Dev} (h : Dev.ok d) : Dev.ok (beginStep s d) := by
  unfold beginStep
  repeat' (first | split | dsimp only)
  all_goals (with_reducible repeat' (first | exact h | assumption | apply onCtl_ok | apply noteStretch_ok | apply openStep_ok | intro _ | split | dsimp only))

theorem nextBeat_ok {d : Dev} (h : Dev.ok d) : Dev.ok (nextBeat d) := by
  unfold nextBeat
  repeat' (first | split | dsimp only)
  all_goals (with_reducible repeat' (first | exact h | assumption | apply onCtl_ok | apply noteStretch_ok | simp only [ok_ctl] | simp only [ok_mk] | intro _ | split | dsimp only))

theorem seatProgram_ok {d : Dev} (h : Dev.ok d) : Dev.ok (seatProgram d) := by
  unfold seatProgram
  repeat' (first | split | dsimp only)
  all_goals (with_reducible repeat' (first | exact h | assumption | apply loadProgram_ok | intro _ | split | dsimp only))

theorem restoreSeat_ok {d : Dev} (h : Dev.ok d) : Dev.ok (restoreSeat d) := by
  unfold restoreSeat
  repeat' (first | split | dsimp only)
  all_goals (with_reducible repeat' (first | exact h | assumption | apply onCtl_ok | apply restoreStart_ok | intro _ | split | dsimp only))

theorem startRecovery_ok (f : Nat) {d : Dev} (h : Dev.ok d) : Dev.ok (startRecovery f d) := by
  unfold startRecovery
  repeat' (first | split | dsimp only)
  all_goals (with_reducible repeat' (first | exact h | assumption | apply onCtl_ok | apply reloadRestore_ok | apply seatProgram_ok | apply restoreSeat_ok | simp only [ok_ctl] | simp only [ok_mk] | intro _ | split | dsimp only))

theorem runPlan_ok (p : Plan) {d : Dev} (h : Dev.ok d) : Dev.ok (runPlan p d) := by
  unfold runPlan
  repeat' (first | split | dsimp only)
  all_goals (with_reducible repeat' (first | exact h | assumption | apply onCtl_ok | apply beginStep_ok | apply nextBeat_ok | apply startRecovery_ok | intro _ | split | dsimp only))

theorem seatLost_ok (p : Plan) {d : Dev} (h : Dev.ok d) : okFst (seatLost p d) := by
  unfold seatLost
  repeat' (first | split | dsimp only)
  all_goals (with_reducible repeat' (first | exact h | assumption | apply onCtl_ok | apply seatProgram_ok | apply restoreSeat_ok | simp only [okFst_mk] | intro _ | split | dsimp only))

theorem rosterBoundary_ok (lost : Option Nat) (p : Plan) {d : Dev} (h : Dev.ok d) : okFst (rosterBoundary lost p d) := by
  unfold rosterBoundary
  repeat' (first | split | dsimp only)
  all_goals (with_reducible repeat' (first | exact h | assumption | apply onCtl_ok | apply seatLost_ok | simp only [okFst_mk] | simp only [ok_ctl] | simp only [ok_mk] | intro _ | split | dsimp only))

theorem replayStart_ok {d : Dev} (h : Dev.ok d) : Dev.ok (replayStart d) := by
  unfold replayStart
  repeat' (first | split | dsimp only)
  all_goals (with_reducible repeat' (first | exact h | assumption | apply onCtl_ok | apply noteStretch_ok | apply openStep_ok | simp only [ok_ctl] | simp only [ok_mk] | intro _ | split | dsimp only))

theorem armedStart_ok {d : Dev} (h : Dev.ok d) : Dev.ok (armedStart d) := by
  unfold armedStart
  repeat' (first | split | dsimp only)
  all_goals (with_reducible repeat' (first | exact h | assumption | apply onCtl_ok | apply startRecovery_ok | intro _ | split | dsimp only))

theorem startAt_ok {d : Dev} (h : Dev.ok d) : Dev.ok (startAt d) := by
  unfold startAt
  repeat' (first | split | dsimp only)
  all_goals (with_reducible repeat' (first | exact h | assumption | apply onCtl_ok | apply beginStep_ok | intro _ | split | dsimp only))

theorem deadlines_ok {d : Dev} (h : Dev.ok d) : Dev.ok (deadlines d) := by
  unfold deadlines
  repeat' (first | split | dsimp only)
  all_goals (with_reducible repeat' (first | exact h | assumption | apply onCtl_ok | apply reqsDue_ok | intro _ | split | dsimp only))

theorem boundaryStart_ok {d : Dev} (h : Dev.ok d) : Dev.ok (boundaryStart d) := by
  unfold boundaryStart
  repeat' (first | split | dsimp only)
  all_goals (with_reducible repeat' (first | exact h | assumption | apply onCtl_ok | apply rootCombine_ok | apply deadlines_ok | intro _ | split | dsimp only))

theorem snapshotBoundary_ok (s : Nat) {d : Dev} (h : Dev.ok d) : Dev.ok (snapshotBoundary s d) := by
  unfold snapshotBoundary
  repeat' (first | split | dsimp only)
  all_goals (with_reducible repeat' (first | exact h | assumption | apply onCtl_ok | apply snapBoundary_ok | intro _ | split | dsimp only))

theorem changeBoundary_ok (sealed : Option Nat) {d : Dev} (h : Dev.ok d) : Dev.ok (changeBoundary sealed d) := by
  unfold changeBoundary
  repeat' (first | split | dsimp only)
  all_goals (with_reducible repeat' (first | exact h | assumption | apply onCtl_ok | apply snapshotBoundary_ok | intro _ | split | dsimp only))

theorem measureBoundary_ok (unaligned : Bool) (ending : Nat) (step : Nat) (r : Readings) {d : Dev} (h : Dev.ok d) : Dev.ok (measureBoundary unaligned ending step r d) := by
  unfold measureBoundary
  repeat' (first | split | dsimp only)
  all_goals (with_reducible repeat' (first | exact h | assumption | apply onCtl_ok | apply fanBoundary_ok | apply portRun_ok | (refine foldl_keeps Dev.ok _ (fun _ _ _ => ?_) ?_) | (refine foldl_keeps okFst _ (fun _ _ _ => ?_) ?_) | (refine foldl_keeps okSnd _ (fun _ _ _ => ?_) ?_) | (refine foldl_keeps okThird _ (fun _ _ _ => ?_) ?_) | intro _ | split | dsimp only))

theorem boundaryFinish_ok (u : Bool) (n : Nat) (r : Readings) (x : Combined) (s : Nat) (q : Option Nat) (o : Dev × Plan) (h : okFst o) :
    Dev.ok (boundaryFinish u n r x s q o) := by
  unfold boundaryFinish
  exact onCtl_ok _ (runPlan_ok _ (measureBoundary_ok _ _ _ _ (onCtl_ok _ (changeBoundary_ok _ h))))

theorem runBoundary_ok (r : Readings) {d : Dev} (h : Dev.ok d) : Dev.ok (runBoundary r d) := by
  unfold runBoundary
  extract_lets missed step d1 x stretch unaligned d2 k d3 d4
  exact boundaryFinish_ok _ _ _ _ _ _ _ (rosterBoundary_ok _ _ (onCtl_ok _ (heldReadsServe_ok (onCtl_ok _ (onCtl_ok _ (firstBeatEnd_ok (boundaryStart_ok h)))))))

theorem beatBoundary_ok (r : Readings) {d : Dev} (h : Dev.ok d) : Dev.ok (beatBoundary r d) := by
  unfold beatBoundary
  repeat' (first | split | dsimp only)
  all_goals (with_reducible repeat' (first | exact h | assumption | apply overheat_ok | apply runBoundary_ok | intro _ | split | dsimp only))

theorem localBoundary_ok {d : Dev} (h : Dev.ok d) : Dev.ok (localBoundary d) := by
  unfold localBoundary
  repeat' (first | split | dsimp only)
  all_goals (with_reducible repeat' (first | exact h | assumption | apply onCtl_ok | apply deadlines_ok | intro _ | split | dsimp only))

theorem gotNothing_ok (lost : Nat) (rx : Rx) {d : Dev} (h : Dev.ok d) : Dev.ok (gotNothing lost rx d) := by
  unfold gotNothing
  repeat' (first | split | dsimp only)
  all_goals (with_reducible repeat' (first | exact h | assumption | intro _ | split | dsimp only))

theorem handlerOf_ok (cls : Nat) (type : Nat) (lost : Nat) (rx : Rx) {d : Dev} (h : Dev.ok d) : Dev.ok (handlerOf cls type lost rx d) := by
  unfold handlerOf
  repeat' (first | split | dsimp only)
  all_goals (with_reducible repeat' (first | exact h | assumption | apply gotImgAck_ok | apply gotImgEnd_ok | apply gotImgReq_ok | apply gotStripeAck_ok | apply gotRecAck_ok | apply gotStripeReq_ok | apply gotRecReq_ok | apply gotImgData_ok | apply gotImgDone_ok | apply gotStripeData_ok | apply gotStripeEnd_ok | apply gotRecData_ok | apply gotHello_ok | apply gotProve_ok | apply gotAdmitted_ok | apply gotReject_ok | apply gotResponse_ok | apply gotReadReq_ok | apply gotWrite_ok | apply gotAddWrite_ok | apply gotPart_ok | apply gotData_ok | apply gotRing_ok | apply gotDigest_ok | apply gotCready_ok | apply gotVoteUp_ok | apply gotVoteDown_ok | apply gotTimeUp_ok | apply gotTimeDown_ok | apply gotNothing_ok | intro _ | split | dsimp only))

theorem receiveAny_ok (rx : Rx) {d : Dev} (h : Dev.ok d) : Dev.ok (receiveAny rx d) := by
  unfold receiveAny
  repeat' (first | split | dsimp only)
  all_goals (with_reducible repeat' (first | exact h | assumption | apply receive_ok | apply handlerOf_ok | intro _ | split | dsimp only))

theorem ingressRelease_ok (p : Nat) {d : Dev} (h : Dev.ok d) : Dev.ok (ingressRelease p d) := by
  unfold ingressRelease
  repeat' (first | split | dsimp only)
  all_goals (with_reducible repeat' (first | exact h | assumption | apply receiveAny_ok | simp only [ok_ctl] | simp only [ok_mk] | intro _ | split | dsimp only))

theorem anyFrame_ok (rx : Rx) {d : Dev} (h : Dev.ok d) : Dev.ok (anyFrame rx d) := by
  unfold anyFrame
  repeat' (first | split | dsimp only)
  all_goals (with_reducible repeat' (first | exact h | assumption | apply arrive_ok | apply handlerOf_ok | intro _ | split | dsimp only))

end Sys2Proof.Machine
end

