-- ==== Sys2Proof/Tests/Slice0.lean ====
section
/-! SUPPORT. Own tests: the checks of WellFormed, and for every statement with hypotheses a state and operands that meet them, clause by clause. -/

namespace Sys2Proof.Tests

set_option Elab.async false

open Sys2Proof.Machine

/-! ### Small states -/

/-- A device that runs, with every unit READY, as the tests vary it. -/
def base : Ctl :=
  { Ctl.reset with
    pwr := { Power.reset with input := true, on := true, released := true }
    regs := [(R.READY_MAIN.HOST.off, 0xFFFFFFFFFFFFFFFF), (R.READY_PORT.PORTS.off, 0x3FFFFFFFFF), (R.READY_CORE0.CORES.off, 0xFFFFFFFFFFFFFFFF),
      (R.READY_CORE1.CORES.off, 0xFF)]
    host := { HostPort.reset with linkUp := true } }

/-- A state of a control state: nothing queued, memory with nothing listed. -/
def st (c : Ctl) : State := { pending := [], dev := { c := c, m := { gen := 0, cells := [] } } }

/-- A frame as it arrives on physical port 0. -/
def frame (cls type src dst : Nat) (arg tag addr : Nat) (payload : List Byte) : Rx :=
  let f : Frame := {
    hdr := { ver := 1, cls := BitVec.ofNat 3 cls, first := true, type := BitVec.ofNat 8 type, alive := 0, src := BitVec.ofNat 16 src,
             dst := BitVec.ofNat 16 dst, len := BitVec.ofNat 13 payload.length, port := 0, rosterVer := 0, addr := BitVec.ofNat 64 addr,
             tag := BitVec.ofNat 16 tag, fmt := 0, status := 0, arg := BitVec.ofNat 32 arg, rsv := 0 }
    payload := payload }
  { port := 0, time := 5, frame := f, crc := frameCrc f }

/-- A roster member. -/
def mem (n : Nat) : Member := { num := n, endpoint := false, spare := false, cap := 0, fgroup := n, key := 0 }

/-- A job of three devices and three seats, with nothing of any kind beyond the roster. -/
def job3 : Draft :=
  { reload := false, group := 0, signer := 0, base := 0, digest := 0, sects := [], ngroups := 1, coreGroup := [], period := 0, guardPm := 0
    weave := { broad := false, ver := 1, ownerKey := 0, ownerSig := 0, salt := 0, members := [mem 0, mem 1, mem 2], groups := [[0, 1, 2]],
               shards := [], sheds := [], seatMap := [], digest := 0 }
    mem := { parts := [], regs := [], regions := [], hotCfg := 0 }
    salt := 0, spares := [], selTmo := 0
    check := { n := 0, d := 0, kSample := 0, smpBase := 0, smpEntries := 0, probEntries := 0, retSlots := 0, stageKib := 0, recCfg := 0,
               voteCfg := 0, targets := [] }
    snap := { interval := 0, stateTiles := 0, tailSteps := 0, tailK := 0, trimmed := false, trim := [], targets := [] }
    fanCfg := 0, fanHeatCfg := 0, hbMiss := 0, gov := { seed := 0, records := 0, measSteps := 0, th := [], recs := [] }
    seq := { firstStep := 0, lastStep := 0, bTrain := 0, bMeas := 0, bClose := 0 }
    programs := [], patches := [], samples := [] }

/-- A peer in a state. -/
def peer (n : Nat) : Peer :=
  { state := n, level := 1, reason := 0, qport := 0, beat := 0, active := false, attempts := 0, deadline := none, lapse := none, nonce := 0, theirs := none,
    sentAdmitted := false, gotAdmitted := false }

/-- Roster number `me` of the three, its peers in a state, ports 0 and 1 UP, beats running. -/
def inJob (me state : Nat) : Ctl :=
  let up (p : Nat) (c : Ctl) : Ctl := setF (portF R.PORT_STATUS.STATE p) 2 (setF (portF R.PORT_STATUS.LOGICAL p) p (setB (portF R.PORT_STATUS.MAPPED p) true c))
  setB R.BEAT_STATUS.RUNNING true (setB R.SEL_STATUS.ROSTER true (up 0 (up 1
    { base with
      job := some job3
      peers := ([0, 1, 2].filter (· != me)).map (fun n => (n, peer state))
      place := { PlaceSt.reset with me := some me, serving := [(0, 0), (1, 1), (2, 2)] } })))

/-- The control state that the checks of R255 leave. -/
def checked (c : Ctl) (cls type : Nat) (rx : Rx) : Ctl := (selvedge (rx.typed cls type) c).1

/-- A frame that is delivered at a control state. -/
def arrives (c : Ctl) (cls type : Nat) (rx : Rx) : Bool :=
  running c && !ingressHolds c rx.port && (selvedge (rx.typed cls type) c).2.deliver && (selvedge (rx.typed cls type) c).2.lost == 0

theorem delivered_of {c : Ctl} {cls type : Nat} {rx : Rx} (h : arrives c cls type rx = true) : Delivered (st c) cls type rx (checked c cls type rx) := by
  simp only [arrives, Bool.and_eq_true, Bool.not_eq_true', beq_iff_eq] at h
  obtain ⟨⟨⟨h1, h2⟩, h3⟩, h4⟩ := h
  refine ⟨h1, h2, Prod.ext rfl ?_⟩
  show (selvedge (rx.typed cls type) c).2 = _
  rcases hx : (selvedge (rx.typed cls type) c).2 with ⟨a, b⟩
  rw [hx] at h3 h4
  cases h3; cases h4; rfl

/-- A frame is delivered at a control state, and what the checks leave satisfies a test. -/
def Meets (c : Ctl) (cls type : Nat) (rx : Rx) (p : Ctl → Bool) : Prop := ∃ c', Delivered (st c) cls type rx c' ∧ p c' = true

theorem meets_of {c : Ctl} {cls type : Nat} {rx : Rx} {p : Ctl → Bool} (h : (arrives c cls type rx && p (checked c cls type rx)) = true) : Meets c cls type rx p := by
  simp only [Bool.and_eq_true] at h
  exact ⟨_, delivered_of h.1, h.2⟩

/-- Readings of nothing but sensors. -/
def sensors (l : List Reading) : Readings :=
  { temps := l, cores := [], lanes := [], mpEyes := [], fec := [], links := [], upsets := [], act := ⟨0, 0, 0, 0, 0, 0⟩ }

/-! ### Well-formed commands: an ill-formed one for each check -/

theorem test_wf_core : (Instr.vmap 72).wf = false ∧ (Instr.vmap 71).wf = true := by decide
theorem test_wf_treadle : (Instr.nop 0 6).wf = false ∧ (Instr.nop 0 5).wf = true := by decide
theorem test_wf_engine_treadle : (Instr.matmul 0 4).wf = false ∧ (Instr.matmul 0 3).wf = true := by decide
theorem test_wf_port : (Instr.restart 38).wf = false ∧ (Instr.restart 37).wf = true := by decide
theorem test_wf_lane : (Instr.laneFail 0 8).wf = false ∧ (Instr.laneFail 0 7).wf = true := by decide
theorem test_wf_unit : (Instr.cvData8 16 0).wf = false ∧ (Instr.cvData8 15 0).wf = true := by decide
theorem test_wf_width : (Instr.portholeRead 0 0).wf = false ∧ (Instr.portholeRead 0 1).wf = true := by decide
theorem test_wf_known : (Instr.knownAnswerPick ⟨0, .column 3 128, 0, false, false⟩).wf = false ∧ (Instr.knownAnswerPick ⟨0, .column 3 127, 0, false, false⟩).wf = true := by decide
theorem test_wf_frame : (Instr.write { frame 2 3 0 0 0 0 0 [] with port := 38 }).wf = false := by decide
theorem test_wf_main : (Instr.selfTestTimeout (.main 64)).wf = false := by decide
theorem test_wf_readings : (Instr.beatBoundary (sensors [⟨104, 0⟩])).wf = false ∧ (Instr.beatBoundary (sensors [⟨103, 0⟩])).wf = true := by decide
theorem test_wf_channel : (Instr.channelMoveStart 240).wf = false ∧ (Instr.retrain 256 true).wf = false := by decide
theorem test_wf_count : (Instr.seqCntWrite 0 32 0).wf = false := by decide
theorem test_wf_master : (Instr.atomicSlotFill 3 0 8 0).wf = false := by decide
theorem test_wf_slot : (Instr.atomicSlotFill 2 0x20 8 0).wf = false ∧ (Instr.atomicSlotFill 2 0x1F 8 0).wf = true := by decide

/-! ### The block as a whole -/

theorem met_FrontCommandRuns : ∃ s : State, s.pending = [.evtPop, .underate] ∧ step s = exec .evtPop { s with pending := [.underate] } :=
  ⟨{ st base with pending := [.evtPop, .underate] }, rfl, rfl⟩

theorem test_idle : step (st base) = .next (st base) := rfl

theorem met_OffModuleTakesOnlyPinCommands : Instr.isPin .underate = false ∧ running State.reset.dev.c = false := by decide

theorem met_StepKeepsMemoryForm : (st base).MemOk ∧ ∃ t, step (st base) = .next t := ⟨rfl, _, rfl⟩

theorem met_ControlCommandsKeepMemory : Instr.isControl .evtPop = true ∧ ∃ t, exec .evtPop (st base) = .next t := ⟨rfl, _, runCtl_running _ _ (by decide)⟩

/-! ### Power, pins, clocks, SMBus -/

/-- A control state with other pins. -/
def pins (input on latched released : Bool) : Ctl := { base with pwr := { base.pwr with input := input, on := on, latched := latched, released := released } }

theorem met_PowerPinsAndRegulators :
    (pins false false false false).pwr.input = false ∧ (pins true true false false).pwr.released = false ∧ (pins true true false true).pwr.released = true ∧
    (running base = true ∧ running (pins true true false false) = false) ∧
    (base.fw.staging = false ∧ ({ base with fw := { base.fw with staging := true } } : Ctl).fw.staging = true ∧
      getF (setF R.FW_STATUS.ACTIVE_SLOT 1 base) R.FW_STATUS.ACTIVE_SLOT = 1 ∧ getF base R.FW_STATUS.ACTIVE_SLOT = 0) ∧
    ((pins true true false true).pwr.input = true ∧ (pins true true false true).pwr.on = true) ∧
    ((pins true false true true).pwr.on = false ∧ (pins true false true true).pwr.latched = true) ∧
    ((pins true false false true).pwr.on = false ∧ (pins true false false true).pwr.latched = false) := by decide +kernel

theorem met_ReferenceClocks : base.pwr.input = true ∧ running base = true ∧ base.host.linkUp = true ∧
    (pins true true false false).pwr.input = true ∧ running (pins true true false false) = false ∧
    (getF (inJob 0 2) (portF R.PORT_STATUS.STATE 1) ∈ [1, 2, 3]) ∧ ({ base with pwr := { base.pwr with held := true } } : Ctl).pwr.held = true := by decide +kernel

/-- The device with its SMB_ADDR pins low. -/
def low : Ctl := { base with pwr := { base.pwr with smbAddr := 0 } }

theorem met_SmbusCommands : low.pwr.input = true ∧ (0x58 : BitVec 7).toNat = 0x58 + low.pwr.smbAddr.toNat ∧
    (let x : SmbWrite := ⟨0x58, 0x18, none⟩
     x.addr.toNat = 0x58 + low.pwr.smbAddr.toNat ∧ ∀ b, x.pec = some b → b.toNat = 0) ∧
    (0x59 : BitVec 7).toNat ≠ 0x58 + low.pwr.smbAddr.toNat := by
  refine ⟨rfl, by decide +kernel, ⟨by decide +kernel, fun b h => by cases h⟩, by decide +kernel⟩

/-- The CRC-8 of SMBus: the check value of "123456789" with the polynomial x^8 + x^2 + x + 1 is 0xF4. -/
theorem test_pec : pecOf [0x31, 0x32, 0x33, 0x34, 0x35, 0x36, 0x37, 0x38, 0x39] = 0xF4 := by decide +kernel

theorem test_pin_peak : (match exec (.pin ⟨0x58, false⟩ 700) (st low) with | .next t => t.dev.c.pwr.pinPeak | _ => 0) = 700 := by decide +kernel

/-! ### The host port -/

theorem met_HostPortAndLink : running base = true ∧ base.host.linkUp = true ∧ base.host.loopback = false ∧ hostLink base = true ∧ base.pwr.noPcie = false ∧
    running { base with host := HostPort.reset } = true ∧ ({ base with host := HostPort.reset } : Ctl).host.linkUp = false ∧
    hostLink { base with host := { base.host with loopback := true } } = false ∧ (∀ o ∈ base.host.ops, o.isRead = false → o.issued = true) := by decide +kernel

/-- An event queue with one old record, and an age limit of 3 beats. -/
def aged : Ctl := setF R.EVT_IRQ.AGE 3 { base with ticks := 3, host := { base.host with evq := [⟨1, 2, 0⟩] } }

/-- The device in D3hot. -/
def asleep : Ctl := { base with host := { base.host with d3 := true } }

theorem met_EventQueueAndInterrupts : running aged = true ∧ aged.host.evq = ⟨1, 2, 0⟩ :: [] ∧ 0 < getF aged R.EVT_IRQ.AGE ∧
    0 + getF aged R.EVT_IRQ.AGE ≤ aged.ticks ∧ hostReaches aged = true ∧ aged.host.d3 = false ∧ hostReaches asleep = true ∧ asleep.host.d3 = true ∧
    hostReaches { base with host := HostPort.reset } = false := by decide +kernel

/-- Vector 19 with its status bit and its enable. -/
def vector (status enable master : Bool) : Ctl :=
  setReg R.IRQ_STATUS.adr (if status then 1 <<< 19 else 0) (setReg R.IRQ_ENABLE.adr (if enable then 1 <<< 19 else 0)
    (setReg (msixWord 19 3) 0
      { base with host := { base.host with cfg := { base.host.cfg with msixEn := true, command := if master then 4 else 0 } } }))

theorem met_CausesAndEventRecords :
    (getReg (vector true true true) R.IRQ_STATUS.adr).getLsbD 19 = true ∧
    ((getReg (vector false false true) R.IRQ_STATUS.adr).getLsbD 19 = false ∧ (getReg (vector false false true) R.IRQ_ENABLE.adr).getLsbD 19 = false) ∧
    ((getReg (vector false true true) R.IRQ_STATUS.adr).getLsbD 19 = false ∧ (getReg (vector false true true) R.IRQ_ENABLE.adr).getLsbD 19 = true ∧
      msixOpen 19 (vector false true true) = true) ∧
    ((getReg (vector false true false) R.IRQ_ENABLE.adr).getLsbD 19 = true ∧ msixOpen 19 (vector false true false) = false) ∧
    (base.host.gather = none ∧ base.host.evq.length < 4096) := by decide +kernel

theorem met_CausesAndEventRecords_full : ∃ c : Ctl, c.host.gather = none ∧ 4096 ≤ c.host.evq.length :=
  ⟨{ base with host := { base.host with evq := List.replicate 4096 ⟨0, 0, 0⟩ } }, rfl, Nat.le_of_eq List.length_replicate.symm⟩

theorem met_RegisterWrites :
    (running base = true ∧ hostReaches base = true ∧ base.host.d3 = false) ∧ hostReaches { base with host := HostPort.reset } = false ∧
    (hostReaches asleep = true ∧ asleep.host.d3 = true) ∧ (¬ (2 = 4 ∨ 2 = 8) ∧ 0x12 % 8 ≠ 0) ∧
    (R.PORTHOLE_BASE.adr % 4 = 0 ∧ regTest R.PORTHOLE_BASE.adr 4 = false) ∧ (regTest 0x90000 8 = true ∧ blockAt 0x90000 = none) ∧
    (regTest R.EVT_IRQ.adr 4 = true ∧ blockAt R.EVT_IRQ.adr = some .host ∧ writesReach (setReg R.READY_MAIN.HOST.off 0 base) R.EVT_IRQ.adr .host = false) ∧
    mainReady base 4 = true ∧ coreReady base 5 = true ∧ mainReady base 7 = true ∧ regTest R.PORTHOLE_BASE.adr 8 = true ∧ regTest R.VOTE_CTRL.adr 4 = true ∧
    regTest R.REC_AT.adr 8 = true ∧ regTest R.REC_CFG.adr 4 = true := by decide +kernel

/-! ### Firmware, heartbeats, self-tests, the draft -/

/-- FW_STATUS.PHASE, with a standby. -/
def phase (n : Nat) : Ctl := setF R.FW_STATUS.PHASE n (setB R.FAN_CP.STANDBY_OK true (setB R.BEAT_STATUS.RUNNING true base))

/-- FW_AUTH is 0: bit 3 of READY_MAIN. -/
def noAuth (c : Ctl) : Ctl := setReg R.READY_MAIN.HOST.off 0xFFFFFFFFFFFFFFF7 c

theorem met_FirmwareStaging : running base = true ∧ (mainReady base 1 || mainReady base 2) = true ∧ base.fw.dead = false ∧
    (fwPhase base ≠ 3 ∧ fwPhase base ≠ 4) ∧
    (let c : Ctl := { phase 1 with fw := { base.fw with recv := [1, 2, 3, 4] } }
     fwPhase c = 1 ∧ c.fw.staging = false ∧ c.fw.recv.length + 4 ≤ 0x1000000 ∧ mainReady c 3 = true) ∧
    ({ base with fw := { base.fw with staging := true } } : Ctl).fw.staging = true := by decide +kernel

theorem met_FirmwareUpdate : running (phase 2) = true ∧ (mainReady (phase 2) 1 || mainReady (phase 2) 2) = true ∧ (phase 2).fw.dead = false ∧
    (fwPhase (phase 2) = 2 ∧ getB (phase 2) R.FAN_CP.STANDBY_OK = true) ∧ fwPhase (phase 1) ≠ 2 ∧
    (fwPhase (phase 3) = 3 ∧ getB (phase 3) R.FAN_CP.STANDBY_OK = true) ∧
    (fwPhase (phase 4) = 4 ∧ getB (phase 4) R.BEAT_STATUS.RUNNING = true) ∧ mainReady (noAuth base) 3 = false ∧ mainReady base 3 = true := by decide +kernel

theorem met_FirmwareUpdate_secver : ∃ (c : Ctl) (x : FwImage), c.fw.cps.look (getF c R.FAN_CP.ACTIVE) = some x ∧ x.secver ≤ c.fuses.minSecver :=
  ⟨{ base with fw := { base.fw with cps := [(0, ⟨1, 0, 0⟩)] } }, ⟨1, 0, 0⟩, by decide +kernel⟩

theorem met_HeartbeatsReportsAndSelfTests :
    (let c : Ctl := { setB R.FAN_CP.STANDBY_OK true base with fan := { base.fan with missed := 2 } }
     running c = true ∧ mainReady c 7 = true ∧ c.fw.dead = false ∧ heartbeatDue c = true ∧ getB c R.FAN_CP.STANDBY_OK = true ∧ fwPhase c ≠ 4) ∧
    (mainReady base 3 = true ∧ base.att.next = none) ∧
    (let c : Ctl := setReg R.READY_CORE1.CORES.off 0 base
     testOpen c (.core 71) = true ∧ Func.core 71 ≠ .main 1 ∧ Func.core 71 ≠ .main 2 ∧ Func.core 71 ≠ .main 3) ∧
    (let c : Ctl := setReg R.READY_MAIN.HOST.off 0xFFFFFFFFFFFFFFF9 base
     testOpen c (.main 1) = true ∧ testOpen c (.main 2) = true) ∧
    (let c : Ctl := setB (portF R.PORT_STATUS.MAPPED 37) true (setReg R.READY_PORT.PORTS.off 0 base)
     testOpen c (.port 37) = true ∧ getB c (portF R.PORT_STATUS.MAPPED 37) = true ∧ getF c (portF R.PORT_STATUS.STATE 37) = 0) := by decide +kernel

theorem met_HeartbeatsReportsAndSelfTests_done : ({ base with att := { base.att with next := some [7] } } : Ctl).att.next = some [7] := rfl

/-- DRAFT_STATUS.STATE. -/
def drafting (n : Nat) : Ctl := setF R.DRAFT_STATUS.STATE n base

theorem met_DraftReceiving : running base = true ∧ mainReady base 3 = true ∧ base.fw.dead = false ∧ getF (drafting 1) R.DRAFT_STATUS.STATE = 1 ∧
    getF (drafting 2) R.DRAFT_STATUS.STATE = 2 ∧ getF base R.DRAFT_STATUS.STATE ≠ 2 ∧ (mainReady base 1 || mainReady base 2) = true ∧
    getB base R.DRAFT_PIN_CTRL.LOCK = false ∧ getB (setB R.DRAFT_PIN_CTRL.LOCK true base) R.DRAFT_PIN_CTRL.LOCK = true := by decide +kernel

theorem met_DraftConcludes :
    (loaderOn (drafting 2) = true ∧ getF (drafting 2) R.DRAFT_STATUS.STATE = 2 ∧ getF (drafting 1) R.DRAFT_STATUS.STATE ≠ 2) ∧
    (let c := setF R.BEAT_NOW.BEAT 9 (setF R.DRAFT_START_AT.BEAT 9 (setB R.DRAFT_STATUS.LOADED true (inJob 0 2)))
     getF c R.DRAFT_START_AT.BEAT ≠ 0 ∧ getB c R.DRAFT_STATUS.LOADED = true ∧ c.step.opened = false ∧ c.draft.startDone = false ∧
       (myPos c).isSome = true ∧ beatsRun c = true ∧ c.time.inGuard = false ∧ getF c R.BEAT_NOW.BEAT = getF c R.DRAFT_START_AT.BEAT ∧
       getF c R.REC_STATE.STATE = 0 ∧ getF (setF R.DRAFT_START_AT.BEAT 8 c) R.DRAFT_START_AT.BEAT < getF (setF R.DRAFT_START_AT.BEAT 8 c) R.BEAT_NOW.BEAT) := by
  decide +kernel

/-! ### Check-value units, tension, debug -/

theorem met_CheckValueUnits : running base = true ∧ 15 < 16 ∧ mainReady base (48 + 15) = true ∧ getB base (cvF R.CV_CFG.OWNER 15) = false ∧
    getB (setF (cvF R.CV_CFG.OWNER 15) 1 base) (cvF R.CV_CFG.OWNER 15) = true := by decide +kernel

/-- Physical port 3 in loopback, and selected. -/
def looped : Ctl := setF R.TEN_LB_CTRL.INDEX 3 (setF R.TEN_LB_CTRL.TYPE 2 (setF (portF R.PORT_CTRL.LOOP 3) 1 (setF (portF R.PORT_STATUS.STATE 3) 4 base)))

theorem met_TensionAndLoopback :
    ({ base with tenKey := true } : Ctl).tenKey = true ∧ (0 : Word) ≠ 0x54454E31 ∧ base.tenKey = false ∧
    (tenOffsets.any (fun o => regTest o 8)) = true ∧ (tenOffsets.any (fun o => regTest o 4)) = true ∧
    loopSelected (tenOther base) = false ∧ loopSelected (tenOther looped) = true ∧
    (let c := setF R.TEN_LB_CTRL.LENGTH 1 (setB R.TEN_LB_STATUS.RUNNING true base)
     getB c R.TEN_LB_STATUS.RUNNING = true ∧ 0 < getF c R.TEN_LB_CTRL.LENGTH ∧ getB (tenOther c) R.TEN_LB_STATUS.RUNNING = true) := by decide +kernel

/-- Debug mode with the accumulator window open: core 0 quiesced. -/
def window : Ctl := setB (engF R.ENG_STATUS.QUIESCED 0 0) true (setB R.DBG_CTRL.MODE true base)

/-- A trace ring of two entries. -/
def ring (head tail : Nat) : Ctl :=
  setF R.DBG_TRACE_TAIL.TAIL tail (setF R.DBG_TRACE_HEAD.HEAD head (setF R.DBG_TRACE_SIZE.ENTRIES 2 { base with trace := [⟨1, 2⟩] }))

theorem met_HostReads : PortQuiet base ∧ hostServes base = true ∧ PortQuiet asleep ∧ hostReaches asleep = true ∧ asleep.host.d3 = true ∧ mainReady asleep 6 = true := by
  unfold PortQuiet; decide +kernel

theorem met_DebugMode :
    (let c : Ctl := { setB R.BEAT_STATUS.RUNNING true base with job := some job3 }
     getB c (quiesceBit 3) = false ∧ quiesceAccepted c 3 = false ∧ quiesceAccepted base 3 = true ∧ getB base R.BEAT_STATUS.RUNNING = false ∧
       getB (setB (quiesceBit 3) true c) (quiesceBit 3) = true ∧ getB (setB (quiesceBit 3) true c) R.BEAT_STATUS.RUNNING = true) ∧
    (accOpen window = true ∧ (accSelected window).2.2 < 131072) ∧ accOpen base = false ∧
    (let c := setF R.DBG_ACC_IDX.INDEX 131079 window
     accOpen c = true ∧ 131072 ≤ (accSelected c).2.2) ∧
    ((ring 1 0).trace = ⟨1, 2⟩ :: [] ∧ ringFree (getF (ring 1 0) R.DBG_TRACE_SIZE.ENTRIES) (getF (ring 1 0) R.DBG_TRACE_HEAD.HEAD) (getF (ring 1 0) R.DBG_TRACE_TAIL.TAIL) = 0) ∧
    (getF (ring 0 0) R.DBG_TRACE_SIZE.ENTRIES ≠ 0 ∧
      ringFree (getF (ring 0 0) R.DBG_TRACE_SIZE.ENTRIES) (getF (ring 0 0) R.DBG_TRACE_HEAD.HEAD) (getF (ring 0 0) R.DBG_TRACE_TAIL.TAIL) ≠ 0) := by
  decide +kernel

/-! ### Acting registers, the governor -/

/-- A step is OPEN. -/
def openC (c : Ctl) : Ctl := setB R.STEP_STATUS.OPEN true c

theorem met_ActingRegisters :
    (coreReady base 71 = true ∧ 31 < 32 ∧ stepOpen base = false ∧ stepOpen (openC base) = true ∧ mainReady base 4 = true ∧ base.time.inGuard = false) ∧
    (let c : Ctl := { base with time := { base.time with inGuard := true } }
     mainReady c 4 = true ∧ c.time.inGuard = true ∧ 0 < (1 : Word).toNat % 32) ∧
    (let c := setF R.REC_AT.BEAT 1 (setF R.REC_STATE.STATE 3 base)
     armHeeded c = true ∧ getF c R.BEAT_NOW.BEAT < getF c R.REC_AT.BEAT) ∧
    (let c := setF R.BEAT_NOW.BEAT 1 (setF R.REC_AT.BEAT 1 (setF R.REC_STATE.STATE 3 base))
     armHeeded c = true ∧ getF c R.REC_AT.BEAT ≤ getF c R.BEAT_NOW.BEAT) ∧ armHeeded base = false := by decide +kernel

/-- Two tensor records, word w of record id selected. -/
def recSel (id w : Nat) : Ctl := setF R.GOV_REC_SEL.WORD w (setF R.GOV_REC_SEL.ID id (setF R.GOV_CFG.RECORDS 2 base))

/-- A telemetry ring of 4 entries, n of them to be written. -/
def tel (n : Nat) : Ctl := openC (setF R.GOV_TEL_SIZE.ENTRIES 4 { base with gov := { base.gov with tel := List.replicate n [0] } })

theorem met_GovernorWindow : mainReady base 6 = true ∧
    (let c := recSel 1 0
     let id := getF c R.GOV_REC_SEL.ID
     0 < id ∧ id < getF c R.GOV_CFG.RECORDS ∧ recWordRw (getF c R.GOV_REC_SEL.WORD) = true ∧ stepOpen c = false ∧ getF c R.GOV_REC_SEL.WORD = 0 ∧
       (4 : Word).toNat % 16 ≤ 4) ∧
    (0 < getF (recSel 1 79) R.GOV_REC_SEL.WORD ∧ recWordRw (getF (recSel 1 79) R.GOV_REC_SEL.WORD) = true) ∧
    (stepOpen (openC (recSel 1 0)) = true ∧ recWordRw (getF (openC (recSel 1 0)) R.GOV_REC_SEL.WORD) = true) ∧ getF (recSel 0 0) R.GOV_REC_SEL.ID = 0 ∧
    (let c := tel 3
     stepOpen c = true ∧ c.gov.tel ≠ [] ∧ getF c R.GOV_TEL_SIZE.ENTRIES ≠ 0 ∧
       c.gov.tel.length ≤ ringFree (getF c R.GOV_TEL_SIZE.ENTRIES) (getF c R.GOV_TEL_HEAD.HEAD) (getF c R.GOV_TEL_TAIL.TAIL)) ∧
    (let c := tel 4
     c.gov.tel ≠ [] ∧ getF c R.GOV_TEL_SIZE.ENTRIES ≠ 0 ∧
       ringFree (getF c R.GOV_TEL_SIZE.ENTRIES) (getF c R.GOV_TEL_HEAD.HEAD) (getF c R.GOV_TEL_TAIL.TAIL) < c.gov.tel.length) := by decide +kernel

/-! ### Ports, frames, admission, time -/

/-- Port 37 in a state, its lanes as they are. -/
def port37 (n : Nat) : Ctl := setF (portF R.PORT_STATUS.STATE 37) n base

theorem met_LanesLasersAndPorts :
    (7 < 8 ∧ portReady base 37 = true ∧ (portSt base 37).rxOut.getLsbD 7 = false ∧
      getF (chargeUnit kLaser (srcPort 37) base) (lanesF R.PORT_LANES.SPARE_LASER 37 7) = 0) ∧
    (let c := setPortSt 37 (fun x => { x with rxOut := 0x80, lighting := 0x80 }) base
     (portSt c 37).rxOut.getLsbD 7 = true ∧ (portSt c 37).lighting.getLsbD 7 = true) ∧
    (getF (port37 1) (portF R.PORT_STATUS.STATE 37) = 1 ∧ (port37 1).pwr.noFabric = false ∧
      ({ port37 1 with pwr := { base.pwr with noFabric := true } } : Ctl).pwr.noFabric = true ∧ laneWidth (portSt (port37 1) 37).txOut ≠ 0 ∧ laneWidth (portSt (port37 1) 37).rxOut ≠ 0) ∧
    (portReady (port37 4) 37 = true ∧ getF (port37 4) (portF R.PORT_STATUS.STATE 37) = 4 ∧ portLoop (port37 4) 37 = false) ∧
    getF (port37 3) (portF R.PORT_STATUS.STATE 37) = 3 := by decide +kernel

/-- A read request, an alive frame of a peer, and frames that fail the checks. -/
def ask (src dst : Nat) : Rx := frame 2 0x01 src dst 256 7 0x1000 []

/-- A write without a payload. -/
def short : Rx := frame 2 0x03 1 0 0 7 0 []

theorem met_ReceivedFrameChecks :
    ((inJob 0 2).ten = none ∧ portHears (inJob 0 2) (ask 1 0).port = true) ∧
    frameCrc (ask 1 0).frame ≠ ({ ask 1 0 with crc := (ask 1 0).crc ^^^ 1 } : Rx).crc ∧ frameCrc (ask 1 0).frame = (ask 1 0).crc ∧
    (member (inJob 0 2) (ask 9 0).frame.hdr.src.toNat = none ∧ getB (inJob 0 2) R.SEL_STATUS.ROSTER = true) ∧
    (let c : Ctl := setB R.SEL_STATUS.ROSTER false { inJob 0 2 with job := none }
     member c 1 = none ∧ getB c R.SEL_STATUS.ROSTER = false ∧ portHears c 0 = true) ∧
    (peerIs (inJob 0 3) 1 3 = true ∧ (member (inJob 0 3) 1).isSome = true) ∧
    (some (ask 1 2).frame.hdr.dst.toNat ≠ (inJob 0 2).place.me ∧ peerIs (inJob 0 2) 1 3 = false) ∧
    ((member (inJob 0 1) 1).isSome = true ∧ peerIs (inJob 0 1) 1 3 = false ∧ some (ask 1 0).frame.hdr.dst.toNat = (inJob 0 1).place.me ∧
      isAdmission (ask 1 0).frame.hdr = false ∧ peerIs (inJob 0 1) 1 2 = false) ∧
    (peerIs (inJob 0 2) 1 2 = true ∧ peerIs (inJob 0 2) 1 3 = false ∧ malformed (inJob 0 2) short.frame = true ∧ frameCrc short.frame = short.crc) ∧
    malformed (inJob 0 2) (ask 1 0).frame = false ∧
    (let c := setF R.PLACE_STATUS.ROSTER_VER 2 (inJob 0 2)
     malformed c (ask 1 0).frame = false ∧ (ask 1 0).frame.hdr.rosterVer.toNat ≠ getF c R.PLACE_STATUS.ROSTER_VER ∧ c.place.prevVer = none) ∧
    ((ask 1 0).frame.hdr.rosterVer.toNat = getF (inJob 0 2) R.PLACE_STATUS.ROSTER_VER ∧ (ask 1 0).frame.hdr.port.toNat = (logPort (inJob 0 2) 0).getD 0 ∧
      (ask 1 0).frame.hdr.port.toNat ≠ (logPort (inJob 0 2) 1).getD 0) ∧
    ((aliveTest 1 2 0 0 (ask 1 0).frame.hdr (inJob 0 2)).2.1 = true ∧
      (let f : Flow := { peer := 1, cls := 2, port := 0, tx := none, rx := some 1, last := 0 }
       (aliveTest 1 2 0 0 { (ask 1 0).frame.hdr with first := false } { inJob 0 2 with flows := [(flowKey 1 2 0, f)] }).2.1 = false)) ∧
    (selvedge (ask 1 0) (inJob 0 2)).2.deliver = true := by decide +kernel

theorem met_FramesHeldAndReleased :
    ingressHolds { inJob 0 2 with ingress := [ask 1 0] } (ask 1 0).port = true ∧ ingressHolds (inJob 0 2) (ask 1 0).port = false ∧
    ((inJob 0 2).ten = none ∧ portHears (inJob 0 2) short.port = true ∧ frameCrc short.frame = short.crc ∧ (member (inJob 0 2) short.peer).isSome = true ∧
      peerIs (inJob 0 2) short.peer 3 = false ∧ some short.frame.hdr.dst.toNat = (inJob 0 2).place.me ∧ peerIs (inJob 0 2) short.peer 2 = true ∧
      malformed (inJob 0 2) short.frame = true) ∧
    ({ inJob 0 2 with ingress := [ask 1 0] } : Ctl).ingress.find? (fun r => r.port == 0) = some (ask 1 0) := by decide +kernel

/-- A handshake under way with peer 1, its HELLO received or not. -/
def shaking (t : Option (BitVec 256 × Nat)) : Ctl :=
  { inJob 0 1 with peers := [(1, { peer 1 with active := true, theirs := t })] }

/-- A HELLO that carries a level. -/
def helloOf (level : Byte) : Rx := frame 0 0x10 1 0 0 0 0 (level :: List.replicate 103 0)

theorem met_AdmissionFrames :
    Meets (shaking none) 0 0x10 (helloOf 1) (fun c => (peerOf c 1).map (fun p => (p.active, p.theirs)) == some (true, none) &&
      levelOk (leNat ((helloOf 1).frame.payload.take 4) % 16)) ∧
    Meets (shaking none) 0 0x10 (helloOf 0) (fun c => (peerOf c 1).isSome && !levelOk (leNat ((helloOf 0).frame.payload.take 4) % 16)) ∧
    Meets (shaking none) 0 0x12 (frame 0 0x12 1 0 0 0 0 [1, 0, 0, 0]) (fun c => (peerOf c 1).map (·.active) == some true) ∧
    Meets (inJob 0 2) 0 0x13 (frame 0 0x13 1 0 0 0 0 [5, 0, 0, 0]) (fun c => (peerOf c 1).isSome) :=
  ⟨meets_of (by decide +kernel), meets_of (by decide +kernel), meets_of (by decide +kernel), meets_of (by decide +kernel)⟩

set_option maxRecDepth 100000 in
theorem met_AdmissionFrames_prove :
    Meets (shaking (some (3, 1))) 0 0x11 (frame 0 0x11 1 0 0 0 0 (List.replicate 312 0))
      (fun c => (peerOf c 1).map (fun p => (p.active, p.theirs)) == some (true, some (3, 1))) := meets_of (by decide +kernel)

/-- Peer 1 in a state, its deadline at the present boundary, after a number of attempts. -/
def waits (n tries : Nat) : Ctl := { inJob 0 2 with peers := [(1, { peer n with active := n == 1, deadline := some 0, attempts := tries })] }

/-- The same among 64 handshakes of others under way. -/
def crowded (n : Nat) : Ctl :=
  let c := setF R.SEL_PEER_SEL.DEVICE 1 (waits n 0)
  { c with peers := c.peers ++ (List.range 64).map (fun i => (2 + i, { peer 1 with active := true })) }

theorem met_AdmissionTimers :
    (running (waits 1 2) = true ∧ peerOf (waits 1 2) 1 = some { peer 1 with active := true, deadline := some 0, attempts := 2 } ∧ peerDue (waits 1 2) 1 1 = true) ∧
    peerDue (waits 1 3) 1 1 = true ∧ (peerDue (waits 4 3) 1 4 = true ∧ handshakeFree (waits 4 3) 1 = true) ∧
    (let c := setF R.SEL_PEER_SEL.DEVICE 1 (waits 3 0)
     mainReady c 9 = true ∧ getF c R.SEL_PEER_SEL.DEVICE = 1 ∧ (peerOf c 1).map (·.state) = some 3 ∧ handshakeFree (setPeerState 1 1 c) 1 = true) ∧
    (let c := crowded 3
     mainReady c 9 = true ∧ getF c R.SEL_PEER_SEL.DEVICE = 1 ∧ (peerOf c 1).map (·.state) = some 3 ∧ handshakeFree (setPeerState 1 1 c) 1 = false) ∧
    ((peerOf (setF R.SEL_PEER_SEL.DEVICE 1 (waits 4 0)) 1).map (·.state) = some 4 ∧ (peerOf (crowded 4) 1).map (·.state) = some 4 ∧
      handshakeFree (crowded 4) 1 = false) ∧
    (peerOf (setF R.SEL_PEER_SEL.DEVICE 1 (waits 2 0)) 1).map (·.state) = some 2 ∧
    (let f : Flow := { peer := 1, cls := 2, port := 0, tx := none, rx := none, last := 0 }
     let c : Ctl := { inJob 0 2 with flows := [(5, f)], ticks := 16 }
     c.flows.look 5 = some f ∧ flowBusy c f = false ∧ f.last + 16 ≤ c.ticks) := by decide +kernel

/-- The guard of a beat. -/
def guarded (me : Nat) : Ctl := { inJob me 2 with time := { base.time with inGuard := true } }

/-- A 32-byte time message. -/
def timeMsg (type src dst : Nat) : Rx := frame 0 type src dst 0 0 0 (List.replicate 32 0)

theorem met_TimeMessages_frames :
    Meets (guarded 0) 0 0x01 (timeMsg 1 1 0) (fun c => beatsRun c && c.time.inGuard && c.time.mine.isNone && (treeChildren c).contains 1 &&
      timeField ((timeMsg 1 1 0).typed 0 1) 0 8 == getF c R.BEAT_NOW.BEAT) ∧
    Meets (guarded 1) 0 0x02 (timeMsg 2 0 1) (fun c => timeOn c && treeParent c == some 0 && getB c R.BEAT_STATUS.RUNNING && c.time.inGuard && !c.time.gotDown) ∧
    Meets (guarded 0) 0 0x02 (timeMsg 2 1 0) (fun c => treeParent c != some 1) ∧
    Meets (setF R.BEAT_NOW.BEAT 9 (guarded 0)) 0 0x01 (timeMsg 1 1 0) (fun c => timeField ((timeMsg 1 1 0).typed 0 1) 0 8 != getF c R.BEAT_NOW.BEAT) :=
  ⟨meets_of (by decide +kernel), meets_of (by decide +kernel), meets_of (by decide +kernel), meets_of (by decide +kernel)⟩

theorem met_TimeMessages_own :
    (running (guarded 1) = true ∧ beatsRun (guarded 1) = true ∧ (guarded 1).time.inGuard = true ∧ (guarded 1).time.mine = none ∧ treeParent (guarded 1) = some 0) ∧
    peerIs (takeUps (st (guarded 1)).dev).c 0 2 = true ∧
    peerIs (takeUps (st { guarded 1 with peers := [(0, peer 1)] }).dev).c 0 2 = false ∧ isRoot (guarded 0) = true ∧
    (let c : Ctl := { guarded 0 with time := { base.time with misses := [(1, 8)] } }
     beatsRun c = true ∧ c.time.missLimit.getD 1 (timeGuards c) ≤ c.time.misses.getD 1 0) := by decide +kernel

theorem met_CombiningIsMonotonic : ∃ (c : Ctl) (l : List Nat), ∃ n ∈ l, ∃ m, c.time.ups.look n = some m :=
  ⟨{ base with time := { base.time with ups := [(1, ⟨0, 0, 3, true, true, 9, none⟩)] } }, [1], 1, by simp, _, rfl⟩

/-- The timebase is out of service: bit 4 of READY_MAIN. -/
def noTime (c : Ctl) : Ctl := setReg R.READY_MAIN.HOST.off 0xFFFFFFFFFFFFFFEF c

theorem met_BoundariesAndGuard :
    (timeOn (guarded 0) = true ∧ getB (guarded 0) R.BEAT_STATUS.RUNNING = true ∧ (guarded 0).time.inGuard = true ∧ tooHot (sensors [⟨0, 999⟩]) = false ∧
      tooHot (sensors [⟨0, 1000⟩]) = true ∧ (inJob 0 2).time.inGuard = false) ∧
    (let c : Ctl := { setB R.BEAT_STATUS.RUNNING false (inJob 0 2) with time := { base.time with joined := true } }
     timeOn c = true ∧ getB c R.BEAT_STATUS.RUNNING = false ∧ c.time.joined = true) ∧
    (timeOn (setB R.BEAT_STATUS.RUNNING false (inJob 0 2)) = true ∧ (setB R.BEAT_STATUS.RUNNING false (inJob 0 2)).time.joined = false) ∧
    (beatsRun (inJob 0 2) = true ∧ beatsRun base = false ∧ timeOn (noTime base) = false) ∧
    (({ inJob 0 2 with jitter := true } : Ctl).jitter = true ∧ ({ inJob 0 2 with jitter := true } : Ctl).time.inGuard = false ∧ base.jitter = false) := by
  decide +kernel

/-- A commit beat of step 5, with a latched vote. -/
def voted (v : Nat) : Ctl :=
  setF R.VOTE_STATE.VOTE v (setB R.VOTE_STATE.VOTE_VALID true (setF R.STEP_NOW.STEP 5 (setB R.STEP_STATUS.COMMIT true (openC { inJob 0 2 with
    step := { base.step with hasVote := true } }))))

theorem met_BoundariesAndGuard_steps :
    (0 < 2 ^ 64 ∧ 16 ≤ 16) ∧ commitBeat base = false ∧
    (commitBeat (voted 0) = true ∧ decidingVote (voted 0) = 0 ∧ (decidingVote (voted 1)).getLsbD trNonfin = true ∧ (decidingVote (voted 1)).getLsbD trHalt = false ∧
      getF (voted 1) R.VOTE_COUNTS.SKIPS < 0xFFFFFFFF ∧ (voted 0).step.hasVote = true ∧ getB (voted 0) R.VOTE_STATE.VOTE_VALID = true) ∧
    (decidingVote (voted 16)).getLsbD trStop = true ∧ ((decidingVote (voted 2)).getLsbD trStop = false ∧ (decidingVote (voted 2)).getLsbD trCkfail = true) ∧
    stepOpen base = false := by decide +kernel

/-! ### The sequencer and the picks -/

/-- An open step with treadle t of core 71 as given. -/
def tread (t : Nat) (x : Treadle) : Ctl := { openC base with treadles := [(6 * 71 + t, x)] }

/-- A treadle that reads its list. -/
def reading : Treadle := { Treadle.idle with active := true, closed := false, done := false }

/-- An image of an opcode, with one word of its own. -/
def img (op i v : Nat) : List Word := ((List.replicate 64 0).set 0 (BitVec.ofNat 32 (256 + op))).set i (BitVec.ofNat 32 v)

/-- A started pick of an image. -/
def going (x : List Word) : Running :=
  { image := x, idx := 0, word := 0, segEnd := true, stepEnd := false, hollow := false, counts := [1, 1, 1, 1], mTail := 0, worked := false,
    lost := false, todo := [], waiting := 0, got := [] }

/-- A loaded image. -/
def loaded (x : List Word) : Loaded := { image := x, idx := 0, word := 0, segEnd := true, stepEnd := false, due := 0 }

/-- Core 71's treadle t with a started pick. -/
def runs (t : Nat) (x : List Word) : Ctl := tread t { reading with runs := [going x] }

theorem met_TreadleFetchAndLoad :
    (let c := tread 5 { reading with off := coreBytes - 4, ahead := List.replicate 15 0 }
     let x := trAt c 71 5
     running c = true ∧ x.active = true ∧ x.ended = false ∧ x.ahead.length < 16 ∧ x.ahead.any wordStepEnd = false ∧ stepOpen c = true ∧ c.copying.contains 71 = false ∧
       x.off + 4 * x.next < coreBytes ∧ ({ c with copying := [71] } : Ctl).copying.contains 71 = true) ∧
    (trAt (tread 5 { reading with ahead := List.replicate 16 0 }) 71 5).ahead.length = 16 ∧
    (let c := tread 5 { reading with ahead := [0x800] }
     let x := trAt c 71 5
     let m : Store := { gen := 0, cells := [(pickKey 71 + 1, 1)] }
     let c0 := setF (trF R.TR_STATE.PICK 71 5) (wordIndex 0x800) (setTr 71 5 (fun x => { x with ahead := [], early := x.closed }) c)
     x.ahead = 0x800 :: [] ∧ mayLoad c 71 x = true ∧ wordEmpty 0x800 = false ∧ stepOpen c = true ∧ x.hollow = false ∧ x.closed = false ∧
       refusal c0 (cntOf c0 71) (logCore c0 71) 5 (pickImage m 71 (wordIndex 0x800)) = none ∧
       refusal c0 (cntOf c0 71) (logCore c0 71) 5 (pickImage { m with cells := [] } 71 (wordIndex 0x800)) = some 0x01) := by decide +kernel

/-- Core 71's treadle 5 with an image that waits for local flag 0, and core 71's flags. -/
def waiting (t : Nat) (flags : Dword) (engines : BitVec 4) : Ctl :=
  { setLocalFlags 71 flags (tread t { reading with load := some (loaded (img 0x10 12 1)) }) with cores := [(71, ⟨some 63, 1, engines⟩)] }

theorem met_WaitsTestTheirFlagsTogether :
    (let c := waiting 0 0 0xF
     let x := trAt c 71 0
     x.load = some (loaded (img 0x10 12 1)) ∧ beatAllows c 71 = true ∧ prevAllows 0 x = true ∧ x.hollow = false ∧ localPending c 71 5 (img 0x10 12 1) ≠ 0) ∧
    (let c := waiting 0 1 0xF
     localPending c 71 5 (img 0x10 12 1) = 0 ∧ chipPending c (img 0x10 12 1) = 0 ∧ engineAbsent c 71 0 = false) ∧
    engineAbsent (waiting 0 1 0) 71 0 = true ∧ (imgWaitLocal (img 0 1 0) = 0 ∧ imgWaitChip (img 0 1 0) = 0) ∧
    (2 : Dword) &&& ~~~ localFlags (waiting 0 2 0) 71 = 0 ∧ (1 : Dword) &&& localFlags (waiting 0 2 0) 71 = 0 ∧
    (1 : Dword) &&& ~~~ chipGroup { base with chip := 1 } 0 = 0 := by decide +kernel

theorem met_PicksCompleteAndSetFlags :
    (let r : Running := { going (img 0 1 0) with worked := true }
     let c := tread 5 { reading with runs := [r] }
     (trAt c 71 5).runs = r :: [] ∧ runComplete c r = true ∧ c.time.inGuard = false) ∧
    ((trAt (runs 5 (img 0x30 1 0)) 71 5).runs = going (img 0x30 1 0) :: [] ∧ runComplete (runs 5 (img 0x30 1 0)) (going (img 0x30 1 0)) = false) ∧
    (let c := tread 5 { reading with load := some (loaded (img 0x30 1 0)), hollow := true }
     let x := trAt c 71 5
     x.load = some (loaded (img 0x30 1 0)) ∧ x.hollow = true ∧ fullWhenHollow (imgOp (img 0x30 1 0)) = false ∧ beatAllows c 71 = true ∧ prevAllows 5 x = true) ∧
    ({ base with delayed := [⟨71, 5, 1, 0, 1⟩] } : Ctl).delayed.find? (fun e => e.p == 71 && e.t == 5) = some ⟨71, 5, 1, 0, 1⟩ ∧
    curRun (runs 5 (img 0 1 0)) 71 5 0x00 = some (going (img 0 1 0)) ∧ curRun base 71 5 0x00 = none := by decide +kernel

theorem met_EnginePicks :
    (curRun (runs 3 (img 0x10 1 0)) 71 3 0x10 = some (going (img 0x10 1 0)) ∧ slotReading (runs 3 (img 0x10 1 0)) 71 3 (img 0x10 1 0) = false ∧
      imgDrain (img 0x10 1 0) = false) ∧
    (let c : Ctl := { runs 3 (img 0x10 1 0) with snap := { base.snap with dumps := [(0, slotKey 71 3 (imgSlot (img 0x10 1 0)))] } }
     slotReading c 71 3 (img 0x10 1 0) = true ∧ curRun c 71 3 0x10 = some (going (img 0x10 1 0))) ∧
    (curRun (runs 3 (img 0x11 1 0)) 71 3 0x11 = some (going (img 0x11 1 0)) ∧ slotReading (runs 3 (img 0x11 1 0)) 71 3 (img 0x11 1 0) = false) := by
  decide +kernel

theorem met_VectorPicks :
    (curRun (runs 4 (img 0x20 1 0)) 71 4 0x20 = some (going (img 0x20 1 0)) ∧ imgAmax (img 0x20 1 0) = false) ∧
    curRun (runs 4 (img 0x21 1 0)) 71 4 0x21 = some (going (img 0x21 1 0)) ∧
    (let c : Ctl := { runs 4 (img 0x22 1 0) with step := { base.step with hasVote := true } }
     curRun c 71 4 0x22 = some (going (img 0x22 1 0)) ∧ updWrites c 71 (going (img 0x22 1 0)) = false) ∧
    (let c := setB R.CHK_DIG_STATUS.SWEEP true (setB R.STEP_STATUS.COMMIT true (setF R.MEM_PART.SIZE 1 (runs 4 (img 0x22 1 0))))
     curRun c 71 4 0x22 = some (going (img 0x22 1 0)) ∧ updWrites c 71 (going (img 0x22 1 0)) = true ∧ getB c R.CHK_DIG_STATUS.SWEEP = true ∧
       updShard c 71 (going (img 0x22 1 0)) = true) ∧
    (let c := runs 4 (img 0x22 1 0)
     curRun c 71 4 0x22 = some (going (img 0x22 1 0)) ∧ updWrites c 71 (going (img 0x22 1 0)) = true ∧ getB c R.CHK_DIG_STATUS.SWEEP = false ∧
       ((runRows (going (img 0x22 1 0))).foldl (fun acc it => if acc.2 then acc else updateRow 71 4 (going (img 0x22 1 0)) it acc.1)
         (({ (st c).dev with c := drawn c } : Dev), false)).2 = false) := by decide +kernel

/-- What the rows of a VMAP with AMAX give on an otherwise empty device. -/
def amaxes (x : List Word) : List Nat :=
  ((runRows (going x)).foldl (fun acc it =>
    ((vectorRow 71 4 (going x) it acc.1).1, if (vectorRow 71 4 (going x) it acc.1).2.isEmpty then acc.2 else (vectorRow 71 4 (going x) it acc.1).2))
    (({ (st (runs 4 x)).dev with c := drawn (runs 4 x) } : Dev), [])).2

theorem met_VectorPicks_amax :
    let x (vlen : Word) := (img 0x20 1 0x2000000).set 4 vlen
    curRun (runs 4 (x 1)) 71 4 0x20 = some (going (x 1)) ∧ imgAmax (x 1) = true ∧ (amaxes (x 1)).getLast?.isSome = true ∧ amaxes (x 0) = [] := by decide +kernel

theorem met_ShuttleAndFlagPicks :
    (curRun (runs 5 (img 0x30 23 0)) 71 5 0x30 = some (going (img 0x30 23 0)) ∧ imgAdd (img 0x30 23 0) = false) ∧
    (curRun (runs 5 (img 0x30 23 16)) 71 5 0x30 = some (going (img 0x30 23 16)) ∧ imgAdd (img 0x30 23 16) = true) ∧
    curRun (runs 5 (img 0x31 1 0)) 71 5 0x31 = some (going (img 0x31 1 0)) ∧ curRun (runs 5 (img 0x32 1 0)) 71 5 0x32 = some (going (img 0x32 1 0)) ∧
    curRun base 71 5 0x30 = none ∧
    (let c := workDone 71 5 (runs 5 (img 0x33 29 0xFFFF0000))
     curRun (runs 5 (img 0x33 29 0xFFFF0000)) 71 5 0x33 = some (going (img 0x33 29 0xFFFF0000)) ∧
       (imgOparg (img 0x33 29 0xFFFF0000) / 2 ^ 12 % 2 == 1) = false ∧ targetOf c (imgBase (img 0x33 29 0xFFFF0000) 2 / 2 ^ 48) = .here ∧ mainReady c 5 = true) ∧
    (let c := workDone 71 5 { inJob 0 2 with treadles := [(431, { reading with runs := [going (img 0x33 29 0x10000)] })] }
     targetOf c (imgBase (img 0x33 29 0x10000) 2 / 2 ^ 48) = .peer 1) := by decide +kernel

theorem met_MovePiecesCoverTheRow : ∃ x ∈ cutRow none 301 0x180000000000 (0x180000000000 + 255) 300, inRegSpace x.src = false ∧ inRegSpace x.dst = false := by
  decide +kernel

/-! ### Atomics, remote memory access, the porthole -/

/-- The commons are out of service: bit 5 of READY_MAIN. -/
def noCommons (c : Ctl) : Ctl := setReg R.READY_MAIN.HOST.off 0xFFFFFFFFFFFFFFDF c

theorem met_AtomicsAndStagingSlots : running base = true ∧ mainReady base 5 = true ∧ (AtomicReq.mk false 0x3FFFFFF 1 0 0).ret = false ∧
    ((0x10 : BitVec 8).toNat % 16 = 0 ∧ 6 < (7 : BitVec 8).toNat % 16) ∧ (2 < 3 ∧ 0x1F < 0x20) ∧
    (hostServes asleep = false ∧ hostServes base = true ∧ mainReady (noCommons base) 5 = false ∧ hostServes (noCommons base) = true) ∧
    0x10 ∈ [0x00, 0x08, 0x10] ∧ 0x1C ∉ [0x00, 0x08, 0x10, 0x18] := by
  decide +kernel

theorem met_AtomicsChangeTheirLocationOnly : (running base = true ∧ mainReady base 5 = true ∧ (AtomicReq.mk false 0 1 0 0).ret = false) ∧
    ∃ t, exec (.faddI64 ⟨false, 0, 1, 0, 0⟩) (st base) = .next t := ⟨by decide +kernel, _, runDev_running _ _ (by decide +kernel)⟩

/-- A commit beat of a tight weave, with WEIGHTS of 1 GiB at 0, or an ordinary beat. -/
def weights (commit opened : Bool) : Ctl :=
  { setF R.MEM_PART.SIZE 1 (setB R.STEP_STATUS.COMMIT commit (inJob 0 2)) with step := { base.step with opened := opened } }

/-- A write and an add-write of 4 bytes to local address 0. -/
def put4 (type : Nat) : Rx :=
  let f := (frame 2 type 1 0 0 7 0 [1, 2, 3, 4]).frame
  let f : Frame := { f with hdr := { f.hdr with fmt := 5 } }
  { port := 0, time := 5, frame := f, crc := frameCrc f }

theorem met_RemoteRequests_reads :
    Meets (weights false true) 2 0x01 (ask 1 0) (fun c => !(getB c R.STEP_STATUS.COMMIT && !getB c R.BEAT_CFG.WEAVE && inShard c ((ask 1 0).addr % 2 ^ 48) (ask 1 0).arg)) ∧
    Meets (weights true true) 2 0x01 (ask 1 0) (fun c => getB c R.STEP_STATUS.COMMIT && !getB c R.BEAT_CFG.WEAVE && inShard c ((ask 1 0).addr % 2 ^ 48) (ask 1 0).arg) :=
  ⟨meets_of (by decide +kernel), meets_of (by decide +kernel)⟩

theorem met_RemoteRequests_writes :
    Meets (weights false false) 2 0x03 (put4 3) (fun c => !(c.step.opened && inShard c 0 4)) ∧
    Meets (weights false true) 2 0x03 (put4 3) (fun c => c.step.opened && inShard c 0 4) ∧
    Meets (weights false false) 2 0x04 (put4 4) (fun c => !(c.step.opened && inShard c 0 4)) ∧
    Meets (weights false true) 2 0x04 (put4 4) (fun c => c.step.opened && inShard c 0 4) :=
  ⟨meets_of (by decide +kernel), meets_of (by decide +kernel), meets_of (by decide +kernel), meets_of (by decide +kernel)⟩

/-- An outstanding request of tag 7 to peer 1. -/
def asked (isRead : Bool) : Req :=
  { peer := 1, port := 0, isRead := isRead, len := 4, addr := 0, deadline := 3, cont := .none, held := none }

/-- The same in the table, at a boundary count. -/
def out1 (isRead : Bool) (ticks : Nat) : Ctl := { inJob 0 2 with reqs := [(7, asked isRead)], ticks := ticks }

/-- Forced coincidence in force, and the next boundary the deadline. -/
def meeting (isRead : Bool) : Ctl := { out1 isRead 2 with ten := some [(R.TEN_COINCIDE.COUNT.off, getReg (setF R.TEN_COINCIDE.COUNT 1 base) R.TEN_COINCIDE.COUNT.off)] }

theorem met_RemoteResponses_read :
    Meets (out1 true 0) 2 0x02 (frame 2 2 1 0 0 7 0 [1, 2, 3, 4]) (fun c => c.reqs.look 7 == some (asked true) && !coincides c (asked true)) ∧
    Meets (inJob 0 2) 2 0x02 (frame 2 2 1 0 0 7 0 [1, 2, 3, 4]) (fun c => (c.reqs.look 7).isNone) ∧
    Meets (out1 false 0) 2 0x02 (frame 2 2 1 0 0 7 0 [1, 2, 3, 4]) (fun c => c.reqs.look 7 == some (asked false)) ∧
    Meets (meeting true) 2 0x02 (frame 2 2 1 0 0 7 0 [1, 2, 3, 4]) (fun c => c.reqs.look 7 == some (asked true) && coincides c (asked true)) :=
  ⟨meets_of (by decide +kernel), meets_of (by decide +kernel), meets_of (by decide +kernel), meets_of (by decide +kernel)⟩

theorem met_RemoteResponses_ack :
    Meets (out1 false 0) 2 0x05 (frame 2 5 1 0 0 7 0 []) (fun c => c.reqs.look 7 == some (asked false) && !coincides c (asked false)) ∧
    Meets (out1 true 0) 2 0x05 (frame 2 5 1 0 0 7 0 []) (fun c => c.reqs.look 7 == some (asked true)) ∧
    Meets (inJob 0 2) 2 0x05 (frame 2 5 1 0 0 7 0 []) (fun c => (c.reqs.look 7).isNone) ∧
    Meets (meeting false) 2 0x05 (frame 2 5 1 0 0 7 0 []) (fun c => c.reqs.look 7 == some (asked false) && coincides c (asked false)) :=
  ⟨meets_of (by decide +kernel), meets_of (by decide +kernel), meets_of (by decide +kernel), meets_of (by decide +kernel)⟩

theorem met_RemoteResponses_deadline : (out1 true 2).reqs.look 7 = some (asked true) ∧ (out1 true 2).ticks < (asked true).deadline ∧
    (asked true).deadline ≤ (out1 true 3).ticks ∧ (asked true).held = none := by decide +kernel

/-- A porthole read under way. -/
def reader : PortOp := { isRead := true, bar0 := false, addr := 0, width := 4, data := 0, issued := true, unsup := false, num := 0 }

theorem met_PortholeAccesses :
    (hostServes base = true ∧ base.host.ops = [] ∧ base.host.backlog = [] ∧ 8 % 8 = 0 ∧ portholeForm 8 8 = true ∧ portholeForm 4 8 = false) ∧
    (targetOf base 0xFFFF = .here ∧ targetOf (inJob 0 2) 1 = .peer 1 ∧ targetOf base 1 = .nowhere) ∧
    (hostReaches asleep = true ∧ asleep.host.d3 = true ∧ asleep.host.ops = [] ∧ asleep.host.backlog = []) ∧ hostReaches { base with host := HostPort.reset } = false ∧
    ({ base with host := { base.host with ops := [reader] } } : Ctl).host.ops.find? (fun o => o.isRead && !o.bar0) = some reader ∧
    base.host.ops.find? (fun o => o.isRead && !o.bar0) = none := by decide +kernel

/-- A porthole write of 4 bytes at address `a` that the host has just made. -/
def writer (a : Nat) : PortOp := { isRead := false, bar0 := false, addr := a, width := 4, data := 0, issued := false, unsup := false, num := 0 }

/-- What becomes of it at a device where stack 0 takes writes or not. -/
def written (stop : Bool) (a : Nat) : Ended :=
  (writeHere a (leBytes 4 0) (.porthole 0) { (st base).dev with c := { (if stop then setF (idxF R.FAN_HEAT.LEVEL 8 0) 3 (setF R.MEM_PART.SIZE 1 base) else base) with
    host := { base.host with ops := [writer a] } } }).2

theorem met_PortholeAccesses_writes : written false 0x100 = .now 0 ∧ written true 0x100 = .later 0 := by decide +kernel

theorem met_PortholeAccesses_full :
    let o : PortOp := { writer 0 with issued := true }
    let c : Ctl := { base with host := { base.host with ops := List.replicate 64 o } }
    hostReaches c = true ∧ opNext c [] c.host.ops = none ∧
      hostNext { c.host with backlog := c.host.backlog ++ [{ isRead := false, bar0 := false, off := 0, width := 4, data := 0 }] } = none ∧
      (let d : Ctl := { base with host := { base.host with ops := List.replicate 32 reader } }
       opNext d [] d.host.ops = none ∧
       hostNext { d.host with backlog := d.host.backlog ++ [{ isRead := true, bar0 := false, off := 0, width := 4, data := 0 }] } = none) := by decide +kernel

/-! ### Collectives and the vote -/

/-- An open step in the job; treadle 5 of core 71 has started a COLL pick of a type over group 0, its input in absent memory or not. -/
def collC (type a : Nat) : Ctl :=
  { openC (inJob 0 2) with treadles := [(431, { reading with runs := [going ((img 0x38 22 type).set 25 (BitVec.ofNat 32 a))] })] }

/-- The image of `collC`. -/
def collI (type a : Nat) : List Word := (img 0x38 22 type).set 25 (BitVec.ofNat 32 a)

theorem met_CollectivesStart : ∀ x ∈ [1, 2, 3, 4, 5],
    71 < 72 ∧ curRun (collC x 0) 71 5 opColl = some (going (collI x 0)) ∧ groupRank (collC x 0) (imgF (collI x 0) 52 0 12) = some ([0, 1, 2], 0) ∧
      imgF (collI x 0) 22 0 8 = x := by decide +kernel

/-- Whether a collective whose input lies at local address a × 2^32 runs once it has fetched it. -/
def collThere (a : Nat) : Bool :=
  let c := collC 1 a
  let r0 := collOf c (going (collI 1 a)) [0, 1, 2] 0
  let r1 := { r0 with undef := r0.undef || collClash c 71 (going (collI 1 a)) r0 }
  let again (q : CollRun) : CollRun := if q.id = r0.id then { q with undef := true } else q
  let marked : Dev := onCtl (fun c => onColl (fun x => { x with started := r0.id :: x.started, runs := x.runs.map (fun e => (e.1, again e.2)) })
    (updRun 71 5 (fun (q : Running) => { q with worked := true, waiting := q.waiting + 1 }) c)) (st c).dev
  let fetched : Dev := inCycleDev (fun d =>
    let i := collInput (collI 1 a) r1 d
    onCtl (if i.2.1 then onColl (fun x => { x with runs := Tab.put x.runs 71 { r1 with input := i.1 } }) else tsAbsent 71 0) i.2.2) marked
  (fetched.c.coll.runs.look 71).isSome

theorem met_CollectivesStart_input : collThere 0 = true ∧ collThere 0x7000 = false := by decide +kernel

/-- A running collective of a type with an ID of 9, of three seats. -/
def collR (type : Nat) (digest : Bool) : CollRun :=
  { id := 9, type := type, members := [0, 1, 2], rank := 0, sub := 3, chunk := 4, root := 0, fmt := 5, base := 0, input := [], digest := digest,
    undef := false, ready := [], queue := [], mine := [], theirs := [], left := 9, digs := [] }

/-- An open step with that collective running on core 71. -/
def collG (type : Nat) (digest : Bool) : Ctl := { openC (inJob 0 2) with coll := { base.coll with runs := [(71, collR type digest)], started := [9] } }

theorem met_CollectiveFrames_stray : Meets (inJob 0 2) 1 0x04 (frame 1 4 1 0 0 0 9 []) (fun c => collStray .across (frame 1 4 1 0 0 0 9 []) c) :=
  meets_of (by decide +kernel)

/-- A frame of a collective is delivered, is of the running one, and comes from rank 1. -/
def hears (k type : Nat) (digest : Bool) (bs : List Byte) : Bool :=
  let rx := frame 1 k 1 0 0 0 9 bs
  let c := checked (collG type digest) 1 k rx
  arrives (collG type digest) 1 k rx && !collStray .across rx c && (c.coll.runs.find? (fun e => e.2.id == rx.word4) == some (71, collR type digest)) &&
    ((List.range (collR type digest).ranks).find? (fun q => ((collR type digest).members[q]?).bind (deviceOf (hear (BitVec.ofNat 5 rx.arg) c)) == some rx.peer) == some 1)

theorem met_CollectiveFrames : (hears 0x01 1 false [0, 0, 0, 0] = true ∧ (collR 1 false).reduces = true) ∧
    (∀ x ∈ [(1, false), (2, false), (3, false), (3, true), (4, false), (5, false)], hears 0x02 x.1 x.2 [0, 0, 0, 0] = true) ∧
    hears 0x03 5 false [0, 0, 0, 0] = true ∧ hears 0x04 1 false [] = true ∧ (hears 0x10 3 true (List.replicate 16 0) = true ∧ (collR 3 true).digest = true) := by
  decide +kernel

/-- A VOTE runs on core 71 with COLL_ID 9. -/
def voteC (me : Nat) (sent : Bool) (core : Option Nat) : Ctl :=
  { openC (inJob me 2) with coll := { base.coll with vote := some (core, 9), started := [9] }, step := { base.step with voteSent := sent } }

theorem met_VoteCommands :
    (curRun (collC 6 0) 71 5 opColl = some (going (collI 6 0)) ∧ imgF (collI 6 0) 22 0 8 = 6) ∧
    ((voteC 0 false (some 71)).coll.vote = some (some 71, 9) ∧ (voteC 0 false (some 71)).step.voteSent = false ∧ votesMissing (voteC 0 false (some 71)) ≠ []) := by decide +kernel

theorem met_VoteCommands_frames :
    Meets (voteC 0 false (some 71)) 1 0x05 (frame 1 5 1 0 0 0 9 []) (fun c => !collStray .up (frame 1 5 1 0 0 0 9 []) c && (treeChildren (hear 0 c)).contains 1) ∧
    Meets (voteC 1 true (some 71)) 1 0x06 (frame 1 6 0 1 0 0 9 [])
      (fun c => !collStray .down (frame 1 6 0 1 0 0 9 []) c && c.coll.vote == some (some 71, 9) && treeParent (hear 0 c) == some 0) ∧
    Meets (voteC 1 true none) 1 0x06 (frame 1 6 0 1 0 0 9 [])
      (fun c => !collStray .down (frame 1 6 0 1 0 0 9 []) c && c.coll.vote == some (none, 9) && treeParent (hear 0 c) == some 0) :=
  ⟨meets_of (by decide +kernel), meets_of (by decide +kernel), meets_of (by decide +kernel)⟩

/-! ### Recovery and restores -/

/-- The retain state of an otherwise quiet device. -/
def retC (f : Retain → Retain) : Ctl := { inJob 0 2 with ret := f base.ret }

theorem met_RecoverySteps :
    (retC (fun r => { r with filing := some (4, true) })).ret.filing = some (4, true) ∧ (retC (fun r => { r with restoring := [4] })).ret.restoring = 4 :: [] ∧
    (let c := setF R.RST_STATUS.STATE 2 (setF R.REC_STATE.STATE 1 (retC (fun r => { r with resume := some 0 })))
     c.ret.resume = some 0 ∧ beatsRun c = true ∧ c.time.inGuard = false ∧ getF c R.REC_STATE.STATE = 1 ∧ 0 ≤ getF c R.BEAT_NOW.BEAT ∧ restoreWhole c = true) ∧
    (let c := retC (fun r => { r with armed := some 0 })
     beatsRun c = true ∧ c.time.inGuard = false ∧ stepOpen c = false ∧ c.ret.armed = some (getF c R.BEAT_NOW.BEAT)) := by decide +kernel

theorem met_RetainedInputsReleased :
    (let c : Ctl := setF R.STEP_ROLLBACK.STEP 4 (setF R.STEP_CHECKED.STEP 5 { base with step := { base.step with hasChecked := true, hasRollback := true } })
     c.step.hasChecked = true ∧ 5 ≤ getF c R.STEP_CHECKED.STEP ∧ c.step.hasRollback = true ∧ getF c R.STEP_ROLLBACK.STEP < 5) ∧
    (let c : Ctl := setF R.STEP_CHECKED.STEP 1 { base with step := { base.step with hasChecked := true } }
     1 ≤ getF c R.STEP_CHECKED.STEP ∧ c.step.hasRollback = false ∧ 0 < 1) := by decide +kernel

/-- A restore in a phase, with one request outstanding. -/
def restoring (ph : RstPhase) : Restore :=
  { step := 1, seat := 0, go := true, phase := ph, next := 0, total := 1, out := [(0, 3)], got := [], recs := [], record := [], stripes := [], good := [], lost := [] }

/-- The device with that restore, at a boundary count. -/
def rstC (ph : RstPhase) (ticks : Nat) : Ctl := { inJob 0 2 with snap := { base.snap with restore := some (restoring ph) }, ticks := ticks }

/-- Memory whose state section counts a number of logical cores. -/
def coresIn (c : Ctl) (n : Nat) : Nat :=
  leNat (readBytes { gen := 0, cells := if n = 0 then [] else [(stateArea c 0 + 0x40, BitVec.ofNat 8 n)] } (stateArea c 0 + 0x40) 2)

theorem met_RestoreCommands :
    (mainReady (inJob 0 2) 8 = true ∧ (inJob 0 2).job.isSome = true ∧ (inJob 0 2).step.opened = false ∧ (inJob 0 2).snap.restore = none) ∧
    (let c : Ctl := { inJob 0 2 with step := { base.step with opened := true } }
     c.step.opened = true ∧ getF c R.REC_STATE.STATE ≠ 3) ∧
    (let c := setB R.CHK_DIG_STATUS.SWEEP true (inJob 0 2)
     getB c R.CHK_DIG_STATUS.SWEEP = true ∧ c.slu.held = [] ∧ c.snap.restore = none) ∧
    ((rstC .ready 0).snap.restore = some (restoring .ready) ∧ (restoring .ready).phase = .ready ∧ coresIn (rstC .ready 0) 0 ≠ lcores (rstC .ready 0).fuses.grade ∧
      coresIn (rstC .ready 0) 64 = lcores (rstC .ready 0).fuses.grade) ∧
    ((restoring .stripes).out.look 0 = some 3 ∧ (rstC .stripes 2).ticks < 3 ∧ 3 ≤ (rstC .stripes 3).ticks ∧ (restoring .stripes).phase = .stripes) := by
  decide +kernel

/-- Memory whose image header in the local copy is marked TRIMMED, or not. -/
def trimmedM (c : Ctl) (b : Bool) : Store := { gen := 0, cells := if b then [(stateArea c 0 + 0x12, 1)] else [(stateArea c 0 + 0x30, 1)] }

theorem met_RestoreCommands_sweep :
    let c := setB R.CHK_DIG_STATUS.SWEEP true (rstC .sweep 0)
    let swept (b : Bool) : Ctl := setB R.CHK_DIG_STATUS.SWEEP false (setLiveDig (sweepDigest { c := c, m := trimmedM c b }) c)
    c.slu.held = [] ∧ c.snap.restore = some (restoring .sweep) ∧ (restoring .sweep).phase = .sweep ∧ headerTrimmed (swept true) (trimmedM c true) = true ∧
      headerTrimmed (swept false) (trimmedM c false) = false ∧ (headerDigest (swept false) (trimmedM c false) 0 == sweepDigest { c := c, m := trimmedM c false }) = false := by
  decide +kernel

theorem met_RestoreCommands_go :
    mySeat (inJob 0 2) = some 0 ∧ mySeat { inJob 0 2 with place := { PlaceSt.reset with me := some 0, serving := [] } } = none ∧
    getF (setF R.REC_STATE.STATE 3 (inJob 0 2)) R.REC_STATE.STATE = 3 ∧ (restoring .ready).go = true ∧ (restoring .ready).step < 2 ^ 64 ∧
    ((restoring .record).out.look 0 = some 3 ∧ (restoring .mirror).out.look 0 = some 3 ∧ holderDevice (rstC .mirror 3) = some 0) := by decide +kernel

/-! ### Snapshots, mirrors, the tailrace -/

/-- A snapshot job of two lines that has copied w of them. -/
def snapC (w : Nat) (copied : List Nat) (bad : Bool) : Ctl :=
  setF R.SLU_SNAP.W w (setF R.SLU_SNAP.LINES 2 (setB R.SLU_STATUS.SNAP_ACTIVE true
    { inJob 0 2 with slu := { base.slu with copied := copied, snapBad := bad } }))

/-- A drain of an image of 2 extents with n outstanding. -/
def drain (next n : Nat) : Drain :=
  { step := 1, seat := 0, dst := 1, next := next, total := 2, out := (List.range n).map (fun e => (e, 3)), ended := false }

/-- The device with that drain, its snapshot of step 1 complete. -/
def drainC (next n ticks : Nat) : Ctl := { inJob 0 2 with snap := { base.snap with drain := some (drain next n), done := some 1, whole := some 1 }, ticks := ticks }

theorem met_SnapshotSteps :
    (getB (snapC 1 [] false) R.SLU_STATUS.SNAP_ACTIVE = true ∧ getF (snapC 1 [] false) R.SLU_SNAP.W < getF (snapC 1 [] false) R.SLU_SNAP.LINES) ∧
    getB base R.SLU_STATUS.SNAP_ACTIVE = false ∧
    (snapLinesDone (snapC 2 [] false) = true ∧ (snapC 2 [] false).snap.dumps = []) ∧
    ((drainC 1 0 0).snap.drain = some (drain 1 0) ∧ (drain 1 0).next < (drain 1 0).total ∧ (drain 1 63).out.length < 64 ∧ extentHere (drainC 1 0 0) 1 1 = true) ∧
    64 ≤ (drain 1 64).out.length ∧ ((drain 1 1).out.look 0 = some 3 ∧ 3 ≤ (drainC 1 1 3).ticks ∧ (drainC 1 1 2).ticks < 3) := by decide +kernel

/-- The header of a frame of 4,096 payload bytes from peer 1. -/
def bigHdr (type tag : Nat) : Header :=
  { ver := 1, cls := 3, first := true, type := BitVec.ofNat 8 type, alive := 0, src := 1, dst := 0, len := 4096, port := 0, rosterVer := 0, addr := 0,
    tag := BitVec.ofNat 16 tag, fmt := 0, status := 0, arg := 1, rsv := 0 }

/-- Such a frame. -/
def big (type tag : Nat) (bs : List Byte) : Rx :=
  { port := 0, time := 5, frame := { hdr := bigHdr type tag, payload := bs }, crc := frameCrc { hdr := bigHdr type tag, payload := bs } }

/-- What its alive test leaves. -/
def bigAfter (type tag : Nat) (c : Ctl) : Ctl × Bool × Nat := aliveTest 1 3 ((logPort c 0).getD 0) 0 (bigHdr type tag) c

/-- What the checks of R255 ask of a control state for such a frame, payload and check value apart. -/
def bigPasses (type tag : Nat) (c : Ctl) : Bool :=
  arrives c 2 0x03 (put4 3) && decide (((bigHdr type tag).cls, (bigHdr type tag).type) = (BitVec.ofNat 3 3, BitVec.ofNat 8 type)) && c.ten.isNone &&
    portHears c 0 && decide (member c 1 = some (mem 1)) && !peerIs c 1 3 && decide (some 0 = c.place.me) && peerIs c 1 2 &&
    lenAllowed 3 (BitVec.ofNat 8 type).toNat 4096 && !staleVer c (bigHdr type tag) && !(0 != (logPort c 0).getD 0) && decide ((bigAfter type tag c).2 = (true, 0))

/-- A frame of 4,096 bytes, of a type of class 3 that has that length, is delivered at a device that meets the checks. -/
theorem big_delivered (type tag : Nat) (bs : List Byte) (c : Ctl) (hbs : bs.length = 4096) (h : bigPasses type tag c = true) :
    Delivered (st c) 3 type (big type tag bs) (lpeCount R.LPE_RX.COUNT ((logPort c 0).getD 0) (bigAfter type tag c).1) := by
  simp only [bigPasses, Bool.and_eq_true, Bool.not_eq_true', decide_eq_true_eq, Option.isNone_iff_eq_none] at h
  obtain ⟨⟨⟨⟨⟨⟨⟨⟨⟨⟨⟨hrun, _⟩, hten⟩, hhear⟩, hm⟩, h3⟩, hme⟩, h2⟩, hlen⟩, hver⟩, hport⟩, hal⟩ := h
  have hr := delivered_of hrun
  refine ⟨hr.1, hr.2.1, ?_⟩
  have hmal : malformed c ((big type tag bs).typed 3 type).frame = false := by
    simp [malformed, wrongLength, big, bigHdr, Rx.typed, isAdmission, hbs] at hlen ⊢
    exact hlen
  have h := selvedge_passes ((big type tag bs).typed 3 type) c (mem 1) hten hhear rfl hm h3 hme (.inr h2) hmal hver
  refine h.trans ?_
  show (let q := (logPort c 0).getD 0
        if (0 != q) = true then _ else
        let r := bigAfter type tag c
        if r.2.1 = true then (lpeCount R.LPE_RX.COUNT q r.1, (⟨true, r.2.2⟩ : Arrival)) else (r.1, ⟨false, 0⟩)) = _
  simp [hport, hal]

/-- The device mirrors seat 1. -/
def mirrors : Ctl := setB R.PLACE_SELF.SERVING true (setF R.PLACE_SELF.MIRRORS 1 (inJob 0 2))

theorem met_MirrorFrames_data (tag : Nat) (ht : tag = 1 ∨ tag = 2) : ∃ c,
    Delivered (st mirrors) 3 0x01 (big 0x01 tag (List.replicate 4096 0)) c ∧ c.snap.restore = none ∧ getF c R.PLACE_SELF.MIRRORS = 1 ∧
      getB c R.PLACE_SELF.SERVING = true := by
  rcases ht with rfl | rfl <;> exact ⟨_, big_delivered _ _ _ mirrors List.length_replicate (by decide +kernel), by decide +kernel⟩

/-- A valid mirror image of seat 1, step 1. -/
def holds : Ctl := setF (mirF R.MIR_IMG0.STATE 1) 2 (setF (mirF R.MIR_IMG0.SEAT 1) 1 (setF (mirF R.MIR_IMG0.STEP 1) 1 mirrors))

theorem met_MirrorFrames_source :
    Meets (drainC 1 1 0) 3 0x02 (frame 3 2 1 0 1 0 0 []) (fun c => c.snap.drain == some (drain 1 1)) ∧
    ((drain 1 1).dst = 1 ∧ (drain 1 1).seat = 0 ∧ 1 = (drain 1 1).step % 2 ^ 32 ∧ (drain 1 1).next < (drain 1 1).total) ∧
    Meets (drainC 2 0 0) 3 0x04 (frame 3 4 1 0 1 0 0 []) (fun c => c.snap.restore.isNone && c.snap.drain == some (drain 2 0)) :=
  ⟨meets_of (by decide +kernel), by decide, meets_of (by decide +kernel)⟩

theorem met_MirrorFrames_holder :
    Meets holds 3 0x03 (frame 3 3 1 0 1 1 0 (List.replicate 32 0)) (fun c => mirFind c 1 1 == some 1) ∧
    Meets mirrors 3 0x03 (frame 3 3 1 0 1 1 0 (List.replicate 32 0)) (fun c => (mirFind c 1 1).isNone) ∧
    Meets holds 3 0x05 (frame 3 5 1 0 1 1 0 []) (fun c => mirFind c 1 1 == some 1 && getF c (mirF R.MIR_IMG0.STATE 1) == mirValid && decide (0 < imageLen c)) ∧
    Meets mirrors 3 0x05 (frame 3 5 1 0 1 1 0 []) (fun c => (mirFind c 1 1).isNone) :=
  ⟨meets_of (by decide +kernel), meets_of (by decide +kernel), meets_of (by decide +kernel), meets_of (by decide +kernel)⟩

/-- A generation of seat 0, step 1, of two stripes: the next to send, those outstanding, the devices that owe a commit acknowledgement. -/
def gen (next : Nat) (out : Tab Nat) (waiting : Option (List Nat)) : TailSrc :=
  { step := 1, seat := 0, next := next, total := 2, dig := (0, 0), out := out, crcs := [], waiting := waiting, devs := [some 1] }

/-- The device with that generation, seat 1 its one target, tensor parts of 1 GiB. -/
def tailC (g : List TailSrc) (ticks : Nat) : Ctl :=
  setF R.IMG_CFG.TAIL_K 1 (setF R.MEM_PART.SIZE 1 { inJob 0 2 with
    snap := { base.snap with tails := g }, ticks := ticks
    job := some { job3 with snap := { job3.snap with targets := [⟨1, false⟩] } } })

theorem met_TailraceCommands_own :
    (let c := tailC [gen 1 [] none] 0
     c.snap.tails.find? (fun x => decide (x.next < x.total)) = some (gen 1 [] none) ∧ stripeLen (genLen c (tailTrim c)) (tailK c) 1 ≠ 0) ∧
    ((gen 1 [(0, 3)] none).out.look 0 = some 3 ∧ 3 ≤ (tailC [gen 1 [(0, 3)] none] 3).ticks) ∧ (tailC [] 0).snap.tails = [] ∧
    (let c := setF R.STEP_ROLLBACK.STEP 1 (tailC [gen 2 [] none] 0)
     c.snap.tails.find? (fun x => tailPhase x == tailWaiting && decide (x.step ≤ getF c R.STEP_ROLLBACK.STEP)) = some (gen 2 [] none)) := by decide +kernel

theorem met_TailraceCommands_acks :
    Meets (tailC [gen 1 [(0, 3)] none] 0) 3 0x13 (frame 3 0x13 1 0 1 0 0 []) (fun c => tailFind c 1 == some (gen 1 [(0, 3)] none) &&
      (gen 1 [(0, 3)] none).out.has 0 && stripeDevice c 0 0 == some 1 && targetDevices c 0 == [some 1]) ∧
    Meets (tailC [gen 2 [] (some [0])] 0) 3 0x16 (frame 3 0x16 1 0 1 0 0 []) (fun c => tailFind c 1 == some (gen 2 [] (some [0])) && targetPlace c 0 1 == 0) :=
  ⟨meets_of (by decide +kernel), meets_of (by decide +kernel)⟩

/-- A generation slot of seat 1, step 1, with stripe 0 and its record. -/
def slot : TailSlot := { step := 1, crcs := [(0, 5)], record := some 1, recLen := 8, whole := true }

/-- The device that keeps it. -/
def keeper : Ctl := { inJob 0 2 with snap := { base.snap with slots := [(2, slot)] } }

theorem met_TailraceCommands_data : ∃ c, Delivered (st mirrors) 3 0x11 (big 0x11 1 (List.replicate 4096 0)) c ∧ c.snap.restore = none :=
  ⟨_, big_delivered _ _ _ mirrors List.length_replicate (by decide +kernel), by decide +kernel⟩

theorem met_TailraceCommands_target :
    Meets (inJob 0 2) 3 0x12 (frame 3 0x12 1 0 1 1 0 (List.replicate 8 0)) (fun c => c.snap.restore.isNone) ∧
    Meets (inJob 0 2) 3 0x15 (frame 3 0x15 1 0 1 1 0 [0]) (fun c => c.snap.restore.isNone && mySeat c != some 1) :=
  ⟨meets_of (by decide +kernel), meets_of (by decide +kernel)⟩

theorem met_TailraceCommands_requests :
    Meets keeper 3 0x14 (frame 3 0x14 1 0 1 1 0 []) (fun c => slotFind c 1 1 == some 0 && slotOf c 1 0 == some slot && slot.crcs.look 0 == some 5) ∧
    Meets keeper 3 0x17 (frame 3 0x17 1 0 1 1 0 []) (fun c => slotFind c 1 1 == some 0 && slotOf c 1 0 == some slot && slot.record.isSome) ∧
    Meets (inJob 0 2) 3 0x14 (frame 3 0x14 1 0 1 1 0 []) (fun c => (slotFind c 1 1).isNone) ∧
    Meets (inJob 0 2) 3 0x17 (frame 3 0x17 1 0 1 1 0 []) (fun c => (slotFind c 1 1).isNone) :=
  ⟨meets_of (by decide +kernel), meets_of (by decide +kernel), meets_of (by decide +kernel), meets_of (by decide +kernel)⟩

/-! ### The sluice -/

/-- A channel move of logical channel 0 from channel 0 to spare slot 0, its watermark at w. -/
def moving (w : Nat) : Ctl :=
  setF R.SLU_CHMOVE.W w (setF R.SLU_CHMOVE.DEST_FB 1 { base with slu := { base.slu with chLive := true } })

/-- A re-key, its watermark at w. -/
def rekeying (w : Nat) : Ctl := setF R.SLU_REKEY.W w { base with slu := { base.slu with rkLive := true } }

/-- Stack 0 without a spare, its fallback slots taken up to n. -/
def spareless (n : Nat) : Ctl :=
  forN n (fun f c => setF (idxF R.MP_FB_SLOT.LOGICAL 4 f) (60 + f) (setB (idxF R.MP_FB_SLOT.USED 4 f) true c)) (forN 2 (fun i c => setF (chF R.HBM_CH_MAP.STATE (30 + i)) 5 c) base)

theorem met_SluiceCommands_moves :
    (mainReady base 8 = true ∧ 239 < channels base.fuses.grade ∧ base.slu.chLive = false ∧ (spareChannels base (homeStack 239)).isEmpty = false) ∧
    ((moving 0).slu.chLive = true ∧ (moving 0).slu.chWait.contains 239 = false) ∧
    (spareChannels (spareless 4) (homeStack 0) = [] ∧ chHome (spareless 4) 0 = .phys 0 ∧ freeSlot (spareless 4) = some 4) ∧
    (let c : Ctl := { spareless 4 with slu := { base.slu with spill := [⟨0, slotAddr 4 0, 0⟩] } }
     spareChannels c (homeStack 0) = [] ∧ chHome c 0 = .phys 0 ∧ freeSlot c = none ∧ emptySlots c ≠ [] ∧ c.slu.chWait.contains 0 = false) ∧
    (spareChannels (spareless 5) (homeStack 0) = [] ∧ chHome (spareless 5) 0 = .phys 0 ∧ emptySlots (spareless 5) = []) := by decide +kernel

theorem met_SluiceCommands :
    (let c := moving 0
     c.slu.chLive = true ∧ c.slu.chDone = false ∧ getF c R.SLU_CHMOVE.W < moveEndUnit ∧
       granuleAddr c (getF c R.SLU_CHMOVE.LOGICAL) (getF c R.SLU_CHMOVE.W) (saltFor c (getF c R.SLU_CHMOVE.W)) = some 0) ∧
    (let c := setF R.SLU_CHMOVE.LOGICAL 50 (moving (moveEndUnit - 1))
     c.slu.chLive = true ∧ c.slu.chDone = false ∧ getF c R.SLU_CHMOVE.W < moveEndUnit ∧ granuleAddr c (getF c R.SLU_CHMOVE.LOGICAL) (getF c R.SLU_CHMOVE.W) (saltFor c (getF c R.SLU_CHMOVE.W)) = none) ∧
    getF (moving moveEndUnit) R.SLU_CHMOVE.W = moveEndUnit ∧
    (getF (rekeying (moveEndUnit - 1)) R.SLU_REKEY.W < moveEndUnit ∧ getF (rekeying moveEndUnit) R.SLU_REKEY.W = moveEndUnit ∧ (rekeying 0).slu.rkDone = false) ∧
    (base.slu.rkLive = false ∧ (rekeying 0).slu.rkLive = true) ∧
    (0 < hbmEnd base.fuses.grade ∧ scrubFinds base (scrubKey base 0) .clean = .clean ∧ scrubFinds base (scrubKey base 0) .corrected = .corrected ∧
      (let c : Ctl := { base with bad := [scrubKey base 0 / 32] }
       poisoned c (scrubKey c 0 / 32 * 32) 32 = true)) ∧
    (let c := setF R.MEM_HOT_CFG.BEATS 2 (setF R.MEM_HOT_STATUS.RUN 2 base)
     getF c R.MEM_HOT_STATUS.RUN ≠ 0 ∧ max 1 (getF c R.MEM_HOT_CFG.BEATS) ≤ getF c R.MEM_HOT_STATUS.RUN ∧ getB c R.SLU_CTRL.AUTO_REKEY = false ∧
       chHome c (getF c R.MEM_HOT_STATUS.CHANNEL) = .phys 0) ∧ getF base R.MEM_HOT_STATUS.RUN = 0 := by decide +kernel

/-- Stack 7, the target of a move of channel 239, and every stack, in WRITE_STOP. -/
def stopping (c : Ctl) : Ctl := forN 8 (fun s c => setF (idxF R.FAN_HEAT.LEVEL 8 s) 3 c) c

theorem met_SluiceCommands_waits :
    (let c := moving 0
     let dest := [(0, homeStackOf (getF c R.SLU_CHMOVE.LOGICAL) (moveEnd c true))]
     sluiceWaits c dest = false ∧ sluiceWaits (stopping c) dest = true) ∧
    (let c := rekeying 0
     sluiceWaits c (groupStacks (setF R.SLU_REKEY.W 1 c) 0) = false ∧ sluiceWaits (stopping c) (groupStacks (setF R.SLU_REKEY.W 1 (stopping c)) 0) = true) ∧
    (spillOf base 0 = none ∧ writeStop base 7 = false) ∧
    (scrubFinds base (scrubKey base 0) .uncorrectable = .uncorrectable ∧ poisoned base (scrubKey base 0 / 32 * 32) 32 = false) := by decide +kernel

/-! ### The fantail -/

/-- A core move of core 0. -/
def moveC (line : Nat) (switched : Bool) : CoreMove := { key := srcCore 0, logical := 0, src := 0, dst := 70, line := line, carried := false, switched := switched }

theorem met_FantailCommands :
    (mainReady base 7 = true ∧ base.coreMove = none ∧
      (let c1 : Ctl := { base with fan := { base.fan with waiting := [] } }
       (coreSlot c1 0).logical.isSome = true ∧ (spareCore c1 0).isSome = true)) ∧
    ((moveC 53247 false).switched = false ∧ (moveC 53247 false).line < moveLines ∧ (moveC 0 true).switched = true) ∧
    (255 < 256 ∧ getF (setF (chF R.HBM_CH_MAP.STATE 255) 4 base) (chF R.HBM_CH_MAP.STATE 255) = 4 ∧
      base.fan.retiring.contains 255 = false ∧ ({ base with fan := { base.fan with retiring := [255] } } : Ctl).fan.retiring.contains 255 = true) ∧
    (getF (setF R.FAN_STATUS.STANDING 3 base) R.FAN_STATUS.STANDING = 3 ∧ getF (inJob 0 2) R.FAN_STATUS.STANDING ≠ 3 ∧ (inJob 0 2).job.isSome = true) ∧
    (71 < 72 ∧ 4000 ≤ ({ base with fan := { base.fan with cool := [(71, 4000)] } } : Ctl).fan.cool.getD 71 0) ∧ base.slu.spill = [] := by decide +kernel

/-- Roster number 2 in its own beat, with an accumulator and thresholds. -/
def decider (acc tBase : Nat) : Ctl :=
  setF R.FAN_CFG.T_BASE tBase (setF R.FAN_STATUS.ACC acc (setF R.BEAT_NOW.BEAT 2 (inJob 2 2)))

/-- A spilled granule of stack 0. -/
def spilled : Ctl := { setF (heatF R.FAN_HEAT.SPILLED 0) 1 base with slu := { base.slu with spill := [⟨0, 0x10000000000, 0⟩] } }

/-- A known-answer pick of the vector unit of core 71, a free spare, with its turn come. -/
def vectorTurn : Ctl := { base with fan := { base.fan with kapUnit := [(71, 3)] } }

theorem met_MeasurementsAndStanding :
    (mainReady base 7 = true ∧ 255 < 256 ∧ mainReady base (16 + 255 / 32) = true ∧ base.slu.calib.contains 255 = false ∧
      ({ base with slu := { base.slu with calib := [255] } } : Ctl).slu.calib.contains 255 = true) ∧
    (coreReady vectorTurn 71 = true ∧ kapFree vectorTurn 71 (kapTreadle .vector) = true ∧ kapDue vectorTurn 71 .vector = true ∧
      kapCycles .vector + 1000 ≤ 300000 ∧ 0 < kapCycles .vector + 1000) ∧
    (let c := decider 640 10
     c.place.me = some 2 ∧ getF c R.BEAT_NOW.BEAT % 65536 = 2 ∧ getB c R.BEAT_STATUS.RUNNING = true ∧ c.time.inGuard = false ∧ c.time.comb.bind (·.lost) = none ∧
       getF c R.FAN_STATUS.STANDING ≤ 1 ∧ effThreshold c ≤ min 1023 (getF c R.FAN_STATUS.ACC / 64)) ∧
    (let c := setF R.FAN_CFG.FLOOR 100 (decider 640 10)
     min 1023 (getF c R.FAN_STATUS.ACC / 64) < effThreshold c ∧ fanCfg c R.FAN_CFG.T_BASE ≤ min 1023 (getF c R.FAN_STATUS.ACC / 64)) ∧
    (let c := decider 639 10
     min 1023 (getF c R.FAN_STATUS.ACC / 64) < effThreshold c ∧ min 1023 (getF c R.FAN_STATUS.ACC / 64) < fanCfg c R.FAN_CFG.T_BASE) ∧
    spilled.slu.spill.find? (fun e => !writeStop spilled e.stack && !writeStop spilled (hbmStack spilled (256 * e.granule))) = some ⟨0, 0x10000000000, 0⟩ := by decide +kernel

theorem met_MeasurementsAndStanding_picks :
    (77 ≤ 77 ∧ 52 ≤ 76 ∧ 76 < 77 ∧ 51 < 52) ∧
    (let k (late mismatch : Bool) : KnownAnswer := ⟨71, .vector, 300000, late, mismatch⟩
     (k true false).core = 71 ∧ (k true false).late = true ∧ (k false true).mismatch = true ∧ (k false false).late = false ∧ (k false false).mismatch = false) ∧
    fanCfg (decider 640 10) R.FAN_CFG.T_BASE = 10 := by decide +kernel

/-! ### Statements with bounds alone -/

theorem met_RecordsAtTheSeal : SealKind.clean ≠ .measured ∧ SealKind.skipped ≠ .measured := by decide

theorem met_ShortFormatCodes : fmtDecode .s8 0x77 = .fin false 15 4 ∧ fmtDecode .s8w 0x7B = .fin false 7 13 := by decide +kernel

theorem met_NonFiniteValues : numMul (.fin false 0 0) (.inf true) = .nan ∧ numMul .nan (.fin false 1 0) = .nan := by decide +kernel

theorem met_FindingsScoresAndSources : srcLane 37 7 = 0xA12F ∧ srcShared 31 = 0xE01F := by decide

/-! ### The worked examples of the spec -/

/-- Example "F32 into S4" (02_number_formats.md). -/
theorem test_f32_into_s4 :
    [0x40A00000, 0x40D00000, 0x40E00000, 0x40200000, 0x3FA00000, 0xBEC00000, 0xBE800000, 0xFF800000, 0x7FC00000].map
      (fun x => let n := narrow .s4 true (f32 x); (n.code, n.overs, n.vanished, n.nonfin)) =
    [(0x6, false, false, false), (0x7, false, false, false), (0x7, true, false, false), (0x4, false, false, false), (0x2, false, false, false),
     (0x9, false, false, false), (0x0, false, true, false), (0x8, false, false, true), (0x8, false, false, true)] := by decide +kernel

/-- Example "stochastic rounding at 1.0" (02_number_formats.md). -/
theorem test_stochastic :
    let up := numAdd (.fin false 1 0) (.fin false 1 (-25))
    let down := numAdd (.fin false 1 0) (.fin true 1 (-25))
    [roundStochastic up 0x3FFF, roundStochastic up 0x4000, roundStochastic down 0x7FFF, roundStochastic down 0x8000] =
      [0x3F800001, 0x3F800000, 0x3F800000, 0x3F7FFFFF] := by decide +kernel

/-- Example "an ACC48 column into S8" (02_number_formats.md), under both settings of OUT_SATCONV. -/
theorem test_acc48_into_s8 :
    [0x40F400000000, 0x40FE00000000, 0x3D2000000000, 0xBC8000000000, 0x7FC000000000, 0x7FE000000000].map
      (fun x => let v := numScale 3 (fmtDecode .acc48 x); ((narrow .s8 true v).code, (narrow .s8 false v).code, (narrow .s8 true v).vanished)) =
    [(0x76, 0x76, false), (0x77, 0x78, false), (0x03, 0x03, false), (0x80, 0x80, true), (0x78, 0x78, false), (0x7C, 0x7C, false)] := by decide +kernel

/-- The operands of Example A (03_matrix_engine.md): rows 40 and 77 and 126 others. -/
def exampleA (x y z : Nat) : List Machine.Num := (List.range 128).map (fun k => fmtDecode .b16 (if k = 40 then x else if k = 77 then y else z))

/-- Example A: overflow and NaN in one B16 column; ENG_FNF0 from the event. -/
theorem test_example_a :
    let o := passColumn (exampleA 0x4D80 0x3F80 0x3F80) (exampleA 0x4D80 0xFFC1 0x3F00) none 200 none
    let kp : KPass := { p := 9, e := 1, img := (List.replicate 64 0).set 1 0x40000, idx := 0x2A4, num := 0, clear := true, m := 128, cols := [], f := 200 }
    o.entry = 0x7FE000000000 ∧ o.flags + tsInUse = 0x109 ∧ imgSlot kp.img = 2 ∧ o.event.map (fnfWord kp 0 5) = some 0x0012A4004D050023 := by decide +kernel

/-- The columns of Example B (03_matrix_engine.md), by arrangement. -/
def exampleB (n : Nat) (f : Nat → Nat × Nat) : List Machine.Num × List Machine.Num :=
  ((List.range n).map (fun k => fmtDecode .s8 (f k).1), (List.range n).map (fun k => fmtDecode .s8 (f k).2))

/-- Example B: cancellation in S8, in one pass and in two. -/
theorem test_example_b :
    let one := exampleB 128 (fun k => if k < 63 then (0x77, 0x77) else if k = 63 then (0x08, 0x01) else if k = 64 then (0x01, 0x01) else (0x77, 0xF7))
    let p0 := exampleB 128 (fun k => if k < 63 then (0x77, 0x77) else if k = 63 then (0x08, 0x01) else if k = 64 then (0x01, 0x01) else (0, 0xF7))
    let p1 := exampleB 128 (fun k => if k < 63 then (0x77, 0xF7) else (0, 0))
    let e0 := (passColumn p0.1 p0.2 none 0 none).entry
    let e1 := (passColumn p1.1 p1.2 none 0 (some (fmtDecode .acc48 e0))).entry
    (passColumn one.1 one.2 none 0 none).entry = 0x3C0800000000 ∧ e0 = 0x452EBE000004 ∧ e1 = 0x3C0000000000 ∧
      narrowCode .f32 false (fmtDecode .acc48 e1) = 0x38000000 ∧ narrowCode .f32 false (fmtDecode .acc48 0x3C0800000000) = 0x38100000 := by decide +kernel

/-- Example C (03_matrix_engine.md): zero times infinity in row 93 of an S8 column. -/
theorem test_example_c :
    let o := passColumn ((List.range 128).map (fun k => fmtDecode .s8 (if k = 93 then 0 else 0x38))) ((List.range 128).map (fun k => fmtDecode .s8 (if k = 93 then 0x78 else 0x38)))
      none 0 (some (fmtDecode .acc48 0x40F400000000))
    let kp : KPass := { p := 9, e := 3, img := (List.replicate 64 0).set 1 0xA0000, idx := 0x0F1, num := 2, clear := false, m := 128, cols := [], f := 0 }
    o.entry = 0x7FE000000000 ∧ o.flags + tsInUse = 0x102 ∧ imgSlot kp.img = 5 ∧ o.event.map (fnfWord kp 0 17) = some 0x0010F1005D110055 := by decide +kernel

/-- Example "an S8 exponent at its boundary" (04_scaling_and_weight_update.md). -/
theorem test_scale_rule : [0x406CCCCD, 0x40700000, 0x40733333].map (fun a => scaleRule 1 a 1 0) = [5, 5, 4] := by decide +kernel

/-- The record of the example "a gradient tensor through a skipped step" (04_scaling_and_weight_update.md), before step 1,300. -/
def gradient : TRec :=
  { fmt := 2, auto := true, carry := false, shared := false, nfAllow := false, hlenM1 := 3, margin := 1, scale := 15, readScale := 15, cold := false,
    samples := 4, head := 0, penalty := 0, cleanRun := 2, written := false, nonfin := false, sharedWr := false, conv := 0, sat := 0, van := 0, nf := 0,
    amax := 0, sharedAmax := 0, totSat := 0, totVan := 0, totNf := 0, lowers := 0,
    hist := [(0, 0x3F47AE14), (1, 0x3F1C28F6), (2, 0x3F28F5C3), (3, 0x3F170A3D)] }

/-- That example: seals 1,300 to 1,305, SKIPPED at 1,301 after three non-finite outputs. -/
theorem test_gradient :
    let clean (a : Nat) (r : TRec) : TRec := sealRec .clean { r with written := true, amax := a }
    let r0 := clean 0x3F4CCCCD gradient
    let r1 := sealRec .skipped { r0 with written := true, nonfin := true, nf := 3 }
    let r4 := clean 0x3F3851EC (clean 0x3F333333 (clean 0x3F400000 r1))
    let r5 := clean 0x3F666666 r4
    let show' (r : TRec) : Nat × Nat × Int × Int := (r.penalty, r.cleanRun, r.scale, r.readScale)
    show' r0 = (0, 3, 15, 15) ∧ show' r1 = (1, 0, 14, 14) ∧ r1.lowers = 1 ∧ show' r4 = (1, 3, 14, 14) ∧ show' r5 = (0, 0, 14, 14) := by decide +kernel

/-- Example "one multiset, two results" (09_collectives_and_placement.md): the four orders of addition. -/
theorem test_ring_orders :
    let v := [0xCB800000, 0x4B800000, 0x3F800000, 0x3F800000]
    (List.range 4).map (fun c => (List.range 3).foldl (fun s i => addF32 s (v.getD ((c + 2 + i) % 4) 0)) (v.getD ((c + 1) % 4) 0)) =
      [0, 0x40000000, 0x40000000, 0x40000000] := by decide +kernel

/-- Example "one salt replaced by another" (07_hbm_and_millpond.md). -/
theorem test_hbm_place : [hbmPlace 0x6400 0 240, hbmPlace 0x15400 0 240, hbmPlace 0x6400 1 240, hbmPlace 0x15400 1 240] =
    [(100, 0), (25, 1), (25, 0), (100, 1)] := by decide +kernel

/-- Example "three check values over one string" (08_fabric_links.md): CV_STATE after the three writes, and the three results. -/
theorem test_check_values :
    let bs := leBytes 4 0x34333231 ++ leBytes 4 0x38373635 ++ leBytes 1 0x39
    crcFeedAll 0 (crcInit 0) bs = 0x1CF96D7C ∧ [0, 1, 2].map (fun p => crcResult p (crcFeedAll p (crcInit p) bs)) = [0xE3069283, 0x6C40DF5F0B497347, 0x29B1] := by
  decide +kernel

/-- Example "a remote fetch-add with return" (06_address_space_and_core_memory.md): the decoded request and what the add leaves. -/
theorem test_fetch_add :
    let q := atomicOf 0x12 1 0 0xFFFF040005001000
    atomicOf 0x0000010000000012 1 0 0xFFFF040005001000 = (2, ⟨true, 0x100, 1, 0, 0xFFFF040005001000⟩) ∧ q.1 = 2 ∧
    (match exec (.faddI64 ⟨false, 0x100, 1, 0, 0⟩) { st base with dev := { (st base).dev with m := { gen := 0, cells := [(commonsBase + 0x100, 0x29)] } } } with
     | .next t => leNat (readBytes t.dev.m (commonsBase + 0x100) 8)
     | _ => 0) = 42 := by decide +kernel

/-- Example "a norm bound in H16" (10_step_checking_and_replay.md): sums of 4^x, the bound, and the faulty sum. -/
theorem test_norm_bound :
    let a := [0x4200, 0xBE00, 0x3800].map (fmtDecode .h16)
    let w := [0x4000, 0x4000, 0xBC00].map (fmtDecode .h16)
    normFails a w (.fin false 5 (-1)) 0 = false ∧ normFails a w (.fin false 261 (-1)) 0 = true := by decide +kernel

/-- Example "reading the record of a NaN weight" (14_host_port.md). -/
theorem test_event_record :
    let e := mkEvent 3 1 (srcEngine 9 1) 0x009524D0A011 5780000 1204 base
    (e.dw0, e.dw1) = (0x0058322020250103, 0x009524D0A01104B4) := by decide +kernel

/-- The members of the example "a seat fails and a spare steps in" (09_collectives_and_placement.md). -/
def eight : Weave :=
  let m (n g : Nat) (sp : Bool) : Member := { num := n, endpoint := false, spare := sp, cap := 4, fgroup := g, key := 0 }
  { job3.weave with members := [m 0 10 false, m 1 10 false, m 2 10 false, m 3 11 false, m 4 11 false, m 5 12 false, m 6 12 false, m 7 12 false,
      m 8 13 true, m 9 10 true] }

/-- That example: the mirror table, and device 8 substituted for seat 4. -/
theorem test_mirrors_and_spare :
    mirrorList eight = [0, 1, 2, 3, 4, 5, 6, 7] ∧ (List.range 8).map (holderOf eight) = [3, 4, 5, 6, 7, 0, 1, 2] ∧
    spareSubst { base with job := some { job3 with weave := eight }, place := { PlaceSt.reset with serving := (List.range 8).map (fun n => (n, n)), failed := [4] } } eight 4
      = some 8 := by decide +kernel

/-! ### The queue of commands -/

/-- The table gives its rows no bits, so no word spells a command. -/
theorem test_no_bits (n w : Nat) : decodeTableWord n w = none ∧ State.reset.withFetchWord n w = State.reset := ⟨rfl, rfl⟩

end Sys2Proof.Tests
end

section
/-! ## Proofs: the block as a whole

What holds of every command at once, and of the state after reset. -/

namespace Sys2Proof.Machine

/-! ### The shape of every command -/

/-- A meaning that pins, management controller or supply give acts in every state, and leaves the queue. -/
theorem pinDev_next (f : Dev → Dev) (s : State) : ∃ t, pinDev f s = .next t ∧ t.pending = s.pending :=
  ⟨onDev f s, rfl, onDev_pending f s⟩

/-- A meaning that acts while the module runs answers a next state in either case, and leaves the queue. -/
theorem runDev_next (f : Dev → Dev) (s : State) : ∃ t, runDev f s = .next t ∧ t.pending = s.pending := by
  cases hr : running s.dev.c with
  | true => exact ⟨_, runDev_running f s hr, rfl⟩
  | false => exact ⟨s, runDev_off f s hr, rfl⟩

/-- Each command is one function of the device: a command of a pin, the management controller or the supply applies it
always, any other while the module runs (R429, R487). Control commands are the functions `onCtl f`. -/
theorem exec_eq_pinDev_or_runDev (i : Instr) : ∃ f : Dev → Dev, ∀ s, exec i s = bif i.isPin then pinDev f s else runDev f s := by
  cases i <;> exact ⟨_, fun _ => rfl⟩

/-- Settles O2: a command is a function of the device, which `pinDev` and `runDev` lift to the block without touching its queue. -/
theorem commandsAnswerAndKeepTheQueue : Obligations.CommandsAnswerAndKeepTheQueue := by
  intro i s
  obtain ⟨f, hf⟩ := exec_eq_pinDev_or_runDev i
  rw [hf s]
  cases i.isPin with
  | true => exact pinDev_next f s
  | false => exact runDev_next f s

/-! ### The state after reset -/

/-- With no word listed, each holds its power-on value (R8). -/
theorem getReg_of_regs_nil {c : Ctl} (h : c.regs = []) (off : Nat) : getReg c off = regReset off := by
  rw [getReg, h, Tab.look]

/-- With no word listed, a field is read out of the reset columns alone. -/
theorem getF_of_regs_nil {c : Ctl} (h : c.regs = []) (f : Fld) : getF c f = fldGet (regReset f.off) f := by
  rw [getF, getReg_of_regs_nil h]

/-- A pin command that leaves power-on state, but for what the pins hold, puts every register word at its power-on value (R429). -/
theorem pinDev_powerOnState (g : Power → Power) (s : State) :
    ∃ t, pinDev (fun d => onCtl (onPwr g) (powerOnState d.c)) s = .next t ∧ t.pending = s.pending ∧
      ∀ off, getReg t.dev.c off = regReset off :=
  ⟨_, rfl, rfl, fun off => getReg_of_regs_nil rfl off⟩

/-- Settles O6: no word is listed in the reset state, so each register shows the reset columns; both pin commands leave power-on state. -/
theorem stateAfterReset : Obligations.StateAfterReset := by
  have word : ∀ off, getReg State.reset.dev.c off = regReset off := getReg_of_regs_nil rfl
  refine ⟨word, ?pins, ?fields, rfl, rfl, ?port, ?core0, ?core1, ?status, ?enable, rfl, rfl, rfl, rfl, rfl, rfl, rfl, Nat.zero_le _, rfl⟩
  case pins =>
    intro s i hi
    obtain rfl | rfl : i = .sidebandReset ∨ i = .powerRemoved := by simpa using hi
    · exact pinDev_powerOnState _ s
    · exact pinDev_powerOnState _ s
  case fields =>
    simp only [getF_of_regs_nil (c := State.reset.dev.c) rfl]
    decide +kernel
  case port | core0 | core1 | status | enable =>
    rw [word]
    decide +kernel

end Sys2Proof.Machine
end

section
/-! ## Proofs: number formats

A code is a sign and a magnitude. Outside S4 the magnitude alone says which class the code is of (R33, R38), and the
magnitudes of the classes follow each other: zero and subnormals, normals, the infinity, the NaNs. -/

namespace Sys2Proof.Machine

/-! ### The classes of codes -/

/-- The bits of a code below its sign: exponent field and fraction (R33). -/
def fmtMag (f : Format) (n : Nat) : Nat := n % 2 ^ (fmtExpBits f + fmtFracBits f)

/-- Whether the sign bit of a code is set (R33). -/
def fmtNeg (f : Format) (n : Nat) : Bool := decide (2 ^ (fmtBits f - 1) ≤ n % 2 ^ fmtBits f)

/-- The magnitude of an infinity; the NaNs lie above it (R33). -/
def fmtTop (f : Format) : Nat := (2 ^ fmtExpBits f - 1) * 2 ^ fmtFracBits f

theorem fmtMag_lt (f : Format) (n : Nat) : fmtMag f n < 2 ^ fmtExpBits f * 2 ^ fmtFracBits f := by
  rw [← Nat.pow_add]
  exact Nat.mod_lt _ (Nat.two_pow_pos _)

theorem fmtMag_div (f : Format) (n : Nat) :
    n % 2 ^ fmtBits f / 2 ^ fmtFracBits f % 2 ^ fmtExpBits f = fmtMag f n / 2 ^ fmtFracBits f := by
  have below : fmtExpBits f + fmtFracBits f ≤ fmtBits f := by unfold fmtBits; omega
  rw [fmtMag, ← Nat.mod_mod_of_dvd n (Nat.pow_dvd_pow 2 below), Nat.add_comm (fmtExpBits f), Nat.pow_add, Nat.mod_mul_right_div_self]

theorem fmtMag_mod (f : Format) (n : Nat) : n % 2 ^ fmtBits f % 2 ^ fmtFracBits f = fmtMag f n % 2 ^ fmtFracBits f := by
  rw [fmtMag, Nat.mod_mod_of_dvd n (Nat.pow_dvd_pow 2 (Nat.le_add_left _ _)), fmtBits, Nat.mod_mod_of_dvd n (Nat.pow_dvd_pow 2 (Nat.le_add_left _ _))]

/-- Outside S4 a code is decoded by its magnitude's exponent field (R33). -/
theorem fmtDecode_eq {f : Format} (hf : f ≠ .s4) (n : Nat) :
    fmtDecode f n =
      if fmtMag f n / 2 ^ fmtFracBits f = 2 ^ fmtExpBits f - 1 then
        if fmtMag f n % 2 ^ fmtFracBits f = 0 then .inf (fmtNeg f n) else .nan
      else if fmtMag f n / 2 ^ fmtFracBits f = 0 then
        if fmtShort f then .fin (fmtNeg f n) (fmtMag f n % 2 ^ fmtFracBits f) (fmtEmin f - fmtFracBits f) else .fin (fmtNeg f n) 0 0
      else .fin (fmtNeg f n) (2 ^ fmtFracBits f + fmtMag f n % 2 ^ fmtFracBits f)
        ((fmtMag f n / 2 ^ fmtFracBits f : Nat) - fmtBias f - fmtFracBits f) := by
  simp [fmtDecode, fmtMag_div, fmtMag_mod, fmtNeg, hf]

section
variable {f : Format} {n : Nat} (hf : f ≠ .s4)
include hf

/-- Below the smallest normal magnitude a short format counts in units of its smallest subnormal (R33, R38). -/
theorem fmtDecode_of_mag_lt (hs : fmtShort f = true) (h : fmtMag f n < 2 ^ fmtFracBits f) :
    fmtDecode f n = .fin (fmtNeg f n) (fmtMag f n) (fmtEmin f - fmtFracBits f) := by
  have field : 0 ≠ 2 ^ fmtExpBits f - 1 := by cases f <;> decide
  rw [fmtDecode_eq hf, Nat.div_eq_of_lt h, Nat.mod_eq_of_lt h, if_neg field, if_pos rfl, if_pos hs]

/-- From the smallest normal magnitude up to the infinity: the implicit bit and the fraction, at the exponent (R33, R38). -/
theorem fmtDecode_of_mag_normal (h : 2 ^ fmtFracBits f ≤ fmtMag f n) (ht : fmtMag f n < fmtTop f) :
    fmtDecode f n = .fin (fmtNeg f n) (2 ^ fmtFracBits f + fmtMag f n % 2 ^ fmtFracBits f)
      ((fmtMag f n / 2 ^ fmtFracBits f : Nat) - fmtBias f - fmtFracBits f) := by
  have above : fmtMag f n / 2 ^ fmtFracBits f ≠ 0 := Nat.ne_of_gt (Nat.div_pos h (Nat.two_pow_pos _))
  have below : fmtMag f n / 2 ^ fmtFracBits f ≠ 2 ^ fmtExpBits f - 1 := Nat.ne_of_lt (Nat.div_lt_of_lt_mul (by rwa [Nat.mul_comm]))
  rw [fmtDecode_eq hf, if_neg below, if_neg above]

theorem fmtDecode_of_mag_eq_top (h : fmtMag f n = fmtTop f) : fmtDecode f n = .inf (fmtNeg f n) := by
  rw [fmtDecode_eq hf, h, fmtTop, Nat.mul_div_cancel _ (Nat.two_pow_pos _), if_pos rfl, Nat.mul_mod_left, if_pos rfl]

theorem fmtDecode_of_top_lt_mag (h : fmtTop f < fmtMag f n) : fmtDecode f n = .nan := by
  have upper : fmtMag f n / 2 ^ fmtFracBits f < 2 ^ fmtExpBits f := Nat.div_lt_of_lt_mul (by rw [Nat.mul_comm]; exact fmtMag_lt f n)
  have lower : 2 ^ fmtExpBits f - 1 ≤ fmtMag f n / 2 ^ fmtFracBits f := (Nat.le_div_iff_mul_le (Nat.two_pow_pos _)).2 (Nat.le_of_lt h)
  have field : fmtMag f n / 2 ^ fmtFracBits f = 2 ^ fmtExpBits f - 1 := by omega
  have fraction : fmtMag f n % 2 ^ fmtFracBits f ≠ 0 := by
    intro hz
    have split := Nat.div_add_mod' (fmtMag f n) (2 ^ fmtFracBits f)
    rw [field, hz] at split
    exact Nat.ne_of_lt h split
  rw [fmtDecode_eq hf, if_pos field, if_neg fraction]

end

/-- The sign of a code of 8 bits is its bit 7. -/
theorem fmtNeg_of_lt {f : Format} (hw : fmtBits f = 8) {n : Nat} (hn : n < 256) : fmtNeg f n = decide (128 ≤ n) := by
  simp [fmtNeg, hw, Nat.mod_eq_of_lt hn]

/-- Settles O59: the sixteen S4 codes are listed, and an S8 or S8W code is classed by its magnitude `n % 128`, below and above
the smallest normal and the infinity of its format. -/
theorem shortFormatCodes : Obligations.ShortFormatCodes := by
  refine ⟨by decide, fun n hn => ?_, by decide, by decide, rfl, rfl⟩
  intro neg m
  have neg8 : fmtNeg .s8 n = neg := fmtNeg_of_lt rfl hn
  have neg8w : fmtNeg .s8w n = neg := fmtNeg_of_lt rfl hn
  have s8 : Format.s8 ≠ .s4 := by decide
  have s8w : Format.s8w ≠ .s4 := by decide
  refine ⟨fun h => ?zero8, fun h ht => ?normal8, fun h => ?inf8, fun h => ?nan8,
    fun h => ?zero8w, fun h ht => ?normal8w, fun h => ?inf8w, fun h => ?nan8w⟩
  case zero8 => exact neg8 ▸ fmtDecode_of_mag_lt s8 rfl (Nat.lt_succ_of_le h)
  case normal8 => rw [fmtDecode_of_mag_normal s8 h (Nat.lt_succ_of_le ht), neg8, Int.sub_sub]; rfl
  case inf8 => exact neg8 ▸ fmtDecode_of_mag_eq_top s8 h
  case nan8 => exact fmtDecode_of_top_lt_mag s8 h
  case zero8w => exact neg8w ▸ fmtDecode_of_mag_lt s8w rfl (Nat.lt_succ_of_le h)
  case normal8w => rw [fmtDecode_of_mag_normal s8w h (Nat.lt_succ_of_le ht), neg8w, Int.sub_sub]; rfl
  case inf8w => exact neg8w ▸ fmtDecode_of_mag_eq_top s8w h
  case nan8w => exact fmtDecode_of_top_lt_mag s8w h

/-! ### Infinities and NaN in conversions (R51) -/

theorem fmtDecode_fmtNaN (f : Format) : fmtDecode f (fmtNaN f) = .nan := by
  cases f <;> rfl

/-- The sign bit lies above every magnitude. -/
theorem fmtMag_fmtSign_add (f : Format) (neg : Bool) {m : Nat} (h : m < 2 ^ (fmtExpBits f + fmtFracBits f)) :
    fmtMag f (fmtSign f neg + m) = m := by
  have width : fmtBits f - 1 = fmtExpBits f + fmtFracBits f := by unfold fmtBits; omega
  cases neg with
  | false => simp [fmtMag, fmtSign, Nat.mod_eq_of_lt h]
  | true => simp [fmtMag, fmtSign, width, Nat.mod_eq_of_lt h]

theorem fmtNeg_fmtSign_add (f : Format) (neg : Bool) {m : Nat} (h : m < 2 ^ (fmtExpBits f + fmtFracBits f)) :
    fmtNeg f (fmtSign f neg + m) = neg := by
  have width : fmtBits f = fmtExpBits f + fmtFracBits f + 1 := by unfold fmtBits; omega
  have sign : fmtSign f neg = if neg then 2 ^ (fmtExpBits f + fmtFracBits f) else 0 := by rw [fmtSign, width, Nat.add_sub_cancel]
  have fits : fmtSign f neg + m < 2 ^ fmtBits f := by rw [sign, width, Nat.pow_succ]; split <;> omega
  rw [fmtNeg, Nat.mod_eq_of_lt fits, sign, width, Nat.add_sub_cancel]
  cases neg with
  | false => simpa using h
  | true => simp

theorem fmtTop_lt (f : Format) : fmtTop f < 2 ^ (fmtExpBits f + fmtFracBits f) := by
  rw [Nat.pow_add]
  exact Nat.mul_lt_mul_of_pos_right (Nat.sub_lt (Nat.two_pow_pos _) Nat.one_pos) (Nat.two_pow_pos _)

/-- Every format but S4 reads its code of an infinity back as that infinity (R33, R51). -/
theorem fmtDecode_fmtInf {f : Format} (hf : f ≠ .s4) (neg : Bool) : fmtDecode f (fmtInf f neg) = .inf neg := by
  have code : fmtInf f neg = fmtSign f neg + fmtTop f := by
    cases f with
    | s4 => exact absurd rfl hf
    | _ => rfl
  rw [code, fmtDecode_of_mag_eq_top hf (fmtMag_fmtSign_add f neg (fmtTop_lt f)), fmtNeg_fmtSign_add f neg (fmtTop_lt f)]

/-! ### Products and their flags (R72) -/

theorem numMul_nan_left (w : Num) : numMul .nan w = .nan := by cases w <;> rfl

theorem numMul_nan_right (a : Num) : numMul a .nan = .nan := by cases a <;> rfl

/-- A NaN operand makes the product NaN (R72). -/
theorem numMul_eq_nan {a w : Num} (h : a = .nan ∨ w = .nan) : numMul a w = .nan := by
  obtain rfl | rfl := h
  · exact numMul_nan_left w
  · exact numMul_nan_right a

theorem numMul_fin_inf {m : Nat} (hm : m ≠ 0) (s t : Bool) (e : Int) : numMul (.fin s m e) (.inf t) = .inf (s != t) :=
  if_neg hm

theorem numMul_inf_fin {m : Nat} (hm : m ≠ 0) (s t : Bool) (e : Int) : numMul (.inf t) (.fin s m e) = .inf (s != t) :=
  (if_neg hm).trans (congrArg Num.inf (bne_comm (a := t)))

/-- A product that is not finite leaves the finite sum of its column at zero, exact (R73). -/
theorem columnSum_singleton {p : Num} (hp : numFinite p = false) : columnSum [p] = (.fin false 0 0, false) := by
  cases p with
  | fin s m e => cases hp
  | inf s => rfl
  | nan => rfl

/-- Of a zero nothing overflows (R49). -/
theorem narrow_zero_overs (f : Format) (sat neg : Bool) (e : Int) : (narrow f sat (.fin neg 0 e)).overs = false := by
  simp [narrow, narrowFin]

/-- The flags of a column with one product, not finite: those of a NaN, by its operands (R72, R73). -/
theorem passColumn_flags_singleton {a w : Num} (f : Int) (hp : numFinite (numMul a w) = false) :
    (passColumn [a] [w] none f none).flags =
      flagWord (numIsNaN (numMul a w) && (numIsNaN a || numIsNaN w)) (numIsNaN (numMul a w) && !(numIsNaN a || numIsNaN w))
        false false false := by
  have hsat : (narrow .acc48 true (numAdd (.fin false 0 0) (numScale f (.fin false 0 0)))).overs = false := narrow_zero_overs ..
  have hsum := columnSum_singleton hp
  cases hm : numMul a w with
  | fin s m e => rw [hm] at hp; cases hp
  | inf s => cases s <;> simp [passColumn, columnProducts, firstRow, naninRow, hm ▸ hsum, hm, hsat]
  | nan => simp [passColumn, columnProducts, firstRow, naninRow, hm ▸ hsum, hm, hsat, numIsNaN]

/-- A NaN operand: NANIN alone. -/
theorem passColumn_flags_of_nan {a w : Num} (f : Int) (h : a = .nan ∨ w = .nan) :
    (passColumn [a] [w] none f none).flags = tsNanin := by
  have operand : (numIsNaN a || numIsNaN w) = true := by obtain rfl | rfl := h <;> simp [numIsNaN]
  rw [passColumn_flags_singleton f (by rw [numMul_eq_nan h]; rfl), numMul_eq_nan h, operand]
  rfl

/-- A NaN product of operands that are no NaN: ZXI alone. -/
theorem passColumn_flags_of_nan_product {a w : Num} (f : Int) (hp : numMul a w = .nan) (ha : numIsNaN a = false) (hw : numIsNaN w = false) :
    (passColumn [a] [w] none f none).flags = tsZxi := by
  rw [passColumn_flags_singleton f (by rw [hp]; rfl), hp, ha, hw]
  rfl

/-- An infinite product: no flag. -/
theorem passColumn_flags_of_inf_product {a w : Num} {s : Bool} (f : Int) (hp : numMul a w = .inf s) :
    (passColumn [a] [w] none f none).flags = 0 := by
  rw [passColumn_flags_singleton f (by rw [hp]; rfl), hp]
  rfl

/-- Settles O60: each format but S4 reads its infinity and its NaN back, and the flags of a product that is not finite follow from the
product and from whether an operand is NaN. -/
theorem nonFiniteValues : Obligations.NonFiniteValues := by
  refine ⟨fun sat neg k => ⟨rfl, rfl, rfl, rfl, fun f hf => ⟨?infinity, rfl, fmtDecode_fmtNaN f⟩⟩, fun a w f => ⟨?nanin, ?others, ?finite⟩⟩
  case infinity => exact fmtDecode_fmtInf (by rintro rfl; exact absurd hf (by decide)) neg
  case nanin => exact fun h => ⟨numMul_eq_nan h, passColumn_flags_of_nan f h⟩
  case others =>
    intro s m e t hm
    constructor
    · rintro (⟨rfl, rfl⟩ | ⟨rfl, rfl⟩)
      · exact ⟨rfl, passColumn_flags_of_nan_product f rfl rfl rfl⟩
      · exact ⟨rfl, passColumn_flags_of_nan_product f rfl rfl rfl⟩
    · intro h
      have product : numMul a w = .inf (s != t) := by
        obtain ⟨rfl, rfl⟩ | ⟨rfl, rfl⟩ | ⟨rfl, rfl⟩ := h
        · exact numMul_fin_inf hm s t e
        · rfl
        · exact numMul_inf_fin hm s t e
      exact ⟨product, passColumn_flags_of_inf_product f product⟩
  case finite =>
    rintro s m e t n g rfl rfl
    rfl

end Sys2Proof.Machine
end

section
/-! ## Proofs: the matrix engine

A started MATMUL or DRAIN runs its whole nest in one command (R135). A tile iteration takes M from the tail rule (R136), and only
its drain touches memory. -/

namespace Sys2Proof.Machine

/-! ### Commands of a treadle -/

/-- A device command on a treadle there is, while the module runs. -/
theorem runDev_atTreadle (f : Dev → Dev) {s : State} {p t : Nat} (hr : running s.dev.c = true) (hp : p < 72) (ht : t < 6) :
    runDev (atTreadle p t f) s = .next (s.withDev (f s.dev)) := by
  rw [runDev_running _ s hr, atTreadle, if_pos ⟨hp, ht⟩]
  rfl

theorem exec_matmul {s : State} {p t : Nat} (hr : running s.dev.c = true) (hp : p < 72) (ht : t < 6) :
    exec (.matmul p t) s = .next (s.withDev (matmulWork p t s.dev)) := runDev_atTreadle _ hr hp ht

theorem exec_drain {s : State} {p t : Nat} (hr : running s.dev.c = true) (hp : p < 72) (ht : t < 6) :
    exec (.drain p t) s = .next (s.withDev (drainWork p t s.dev)) := runDev_atTreadle _ hr hp ht

/-! ### The work of a started pick -/

section
variable {d : Dev} {p t : Nat} {r : Running}

/-- A MATMUL whose slot is still to be read out waits (R355). -/
theorem matmulWork_of_reading (hc : curRun d.c p t 0x10 = some r) (hs : slotReading d.c p t r.image = true) : matmulWork p t d = d := by
  simp [matmulWork, hc, hs]

/-- Any other started MATMUL runs its tile iterations in loop order (R135). -/
theorem matmulWork_of_free (hc : curRun d.c p t 0x10 = some r) (hs : slotReading d.c p t r.image = false) :
    matmulWork p t d = onCtl (workDone p t)
      ((tileIters (r.counts.getD 1 0) (r.counts.getD 2 0) (r.counts.getD 3 0)).foldl
        (fun x it => tileIteration p t r (r.counts.getD 0 0) (r.counts.getD 1 0) it x) (onCtl drawn d, 0)).1 := by
  simp [matmulWork, hc, hs]

/-- A started DRAIN whose slot is free drains once for each iteration of the outer loops (R135). -/
theorem drainWork_of_free (hc : curRun d.c p t 0x11 = some r) (hs : slotReading d.c p t r.image = false) :
    drainWork p t d = onCtl (workDone p t)
      ((tileIters (r.counts.getD 1 0) (r.counts.getD 2 0) (r.counts.getD 3 0)).foldl
        (fun d it => drainTile p t r it.1 it.2.1 it.2.2 (imgM r.image) d) (onCtl drawn d)) := by
  simp [drainWork, hc, hs]

end

/-! ### Memory -/

/-- A K pass changes control state only (R59). -/
theorem kPass_store (p t : Nat) (r : Running) (num i0 i1 i2 i3 m : Nat) (d : Dev) : (kPass p t r num i0 i1 i2 i3 m d).m = d.m := rfl

/-- Without a drain, a tile iteration is its K passes alone. -/
theorem tileIteration_store {r : Running} (hd : imgDrain r.image = false) (p t n0 n1 : Nat) (it : Nat × Nat × Nat) (x : Dev × Nat) :
    (tileIteration p t r n0 n1 it x).1.m = x.1.m := by
  simp only [tileIteration, hd, Bool.false_eq_true, if_false]
  exact forN_keeps (fun d : Dev => d.m = x.1.m) n0 (fun i0 d h => (kPass_store ..).trans h) rfl

/-- A MATMUL without a drain leaves memory as it was. -/
theorem matmulWork_store {d : Dev} {p t : Nat} {r : Running} (hc : curRun d.c p t 0x10 = some r)
    (hs : slotReading d.c p t r.image = false) (hd : imgDrain r.image = false) : (matmulWork p t d).m = d.m := by
  rw [matmulWork_of_free hc hs, onCtl_store]
  exact foldl_keeps (fun x : Dev × Nat => x.1.m = d.m) _ (fun x it h => (tileIteration_store hd ..).trans h) rfl

/-! ### Rows of a tile iteration (R136) -/

theorem imgF_lt (img : List Word) (i lo w : Nat) : imgF img i lo w < 2 ^ w := Nat.mod_lt _ (Nat.two_pow_pos w)

/-- The last LOOP1 iteration of a pick with M_TAIL takes its rows from the count register, every other from M_M1. -/
theorem tileM_eq (img : List Word) (n1 i1 mTail : Nat) :
    tileM img n1 i1 mTail = if imgB img 4 23 = true ∧ i1 + 1 = n1 then (mTail + 127) % 128 + 1 else imgF img 4 0 7 + 1 := by
  simp [tileM, imgMTail, imgM]

theorem tileM_pos (img : List Word) (n1 i1 mTail : Nat) : 1 ≤ tileM img n1 i1 mTail := by
  rw [tileM_eq]
  split <;> exact Nat.succ_pos _

/-- The count is taken modulo 128 and M_M1 has seven bits, so M is at most 128. -/
theorem tileM_le (img : List Word) (n1 i1 mTail : Nat) : tileM img n1 i1 mTail ≤ 128 := by
  rw [tileM_eq]
  split
  · exact Nat.mod_lt _ (by decide)
  · exact imgF_lt img 4 0 7

/-- Settles O37: a command on a started pick is that pick's work, the work is the fold over its tile iterations, and a tile iteration
passes one M, by `tileM_eq`, to its K passes and its drain. -/
theorem enginePicks : Obligations.EnginePicks := by
  refine ⟨fun s p t r hr hp ht => ⟨?matmul, ?memory, ?waits, ?drain⟩, fun p t n0 n1 i1 i2 i3 j r d => ?rows⟩
  case matmul =>
    intro hc hs
    rw [exec_matmul hr hp ht, matmulWork_of_free hc hs]
    rfl
  case memory => exact fun hc hs hd => ⟨_, exec_matmul hr hp ht, matmulWork_store hc hs hd, rfl⟩
  case waits =>
    intro hc hs
    rw [exec_matmul hr hp ht, matmulWork_of_reading hc hs]
    rfl
  case drain =>
    intro hc hs
    rw [exec_drain hr hp ht, drainWork_of_free hc hs]
    rfl
  case rows =>
    intro img m
    have hm : tileM img n1 i1 r.mTail = m := tileM_eq ..
    refine ⟨?_, hm ▸ tileM_pos .., hm ▸ tileM_le ..⟩
    rw [← hm]
    rfl

end Sys2Proof.Machine
end

section
/-! ## Proofs: the governor

A seal takes the branch of R104 for its kind, which touches only what the scale rule keeps, then adds the step's counts to the totals
and clears them. The record window and the telemetry ring follow the branches of their definitions; a host read of the window is a
read of one register. -/

namespace Sys2Proof.Machine

/-! ### What the branches of the seal may change (R104) -/

/-- Two records that differ in what the scale rule keeps alone: the scales, the history and the counts over past steps (R97). -/
def ScalingOnly (r n : TRec) : Prop :=
  n = { r with scale := n.scale, readScale := n.readScale, cold := n.cold, samples := n.samples, head := n.head, penalty := n.penalty,
               cleanRun := n.cleanRun, lowers := n.lowers, hist := n.hist }

theorem ScalingOnly.trans {a b c : TRec} (h : ScalingOnly a b) (k : ScalingOnly b c) : ScalingOnly a c := by
  unfold ScalingOnly at *
  rw [h] at k
  exact k

theorem ScalingOnly.settings {r n : TRec} (h : ScalingOnly r n) : n.fmt = r.fmt ∧ n.auto = r.auto ∧ n.carry = r.carry ∧
    n.shared = r.shared ∧ n.nfAllow = r.nfAllow ∧ n.hlenM1 = r.hlenM1 ∧ n.margin = r.margin := by
  unfold ScalingOnly at h
  rw [h]
  exact ⟨rfl, rfl, rfl, rfl, rfl, rfl, rfl⟩

theorem ScalingOnly.counts {r n : TRec} (h : ScalingOnly r n) : n.sat = r.sat ∧ n.van = r.van ∧ n.nf = r.nf ∧
    n.totSat = r.totSat ∧ n.totVan = r.totVan ∧ n.totNf = r.totNf := by
  unfold ScalingOnly at h
  rw [h]
  exact ⟨rfl, rfl, rfl, rfl, rfl, rfl⟩

/-- A new scale or none (R103). -/
theorem rescale_eq (r : TRec) (m : Option Nat) : rescale r m = { r with scale := (rescale r m).scale } := by
  unfold rescale
  split
  · split <;> rfl
  · rfl

theorem rescale_scalingOnly (r : TRec) (m : Option Nat) : ScalingOnly r (rescale r m) := by
  rw [rescale_eq]
  rfl

theorem pushHist_scalingOnly (r : TRec) : ScalingOnly r (pushHist r) := rfl

theorem runClean_scalingOnly (r : TRec) : ScalingOnly r (runClean r) := by
  unfold runClean
  split
  · rfl
  · split <;> rfl

/-- The first line of the CLEAN branch: a record with CARRY that was written takes SCALE for the next step's reads (R104). -/
def carryScale (r : TRec) : TRec := if r.carry && r.written then { r with readScale := r.scale } else r

/-- A sample taken into the history, and the scale that the history then gives (R104). -/
def takeSample (r : TRec) : TRec := rescale (runClean (pushHist r)) (histMax (histList (runClean (pushHist r))))

/-- A record whose history is full is no longer cold (R104). -/
def warmUp (r : TRec) : TRec := if r.samples = r.hlenM1 + 1 then { r with cold := false } else r

theorem sealClean_eq (r : TRec) :
    sealClean r = if (carryScale r).auto && (carryScale r).written then warmUp (takeSample (carryScale r)) else carryScale r := rfl

theorem carryScale_scalingOnly (r : TRec) : ScalingOnly r (carryScale r) := by
  unfold carryScale
  split <;> rfl

theorem takeSample_scalingOnly (r : TRec) : ScalingOnly r (takeSample r) :=
  ((pushHist_scalingOnly r).trans (runClean_scalingOnly _)).trans (rescale_scalingOnly _ _)

theorem warmUp_scalingOnly (r : TRec) : ScalingOnly r (warmUp r) := by
  unfold warmUp
  split <;> rfl

theorem sealClean_scalingOnly (r : TRec) : ScalingOnly r (sealClean r) := by
  rw [sealClean_eq]
  split
  · exact ((carryScale_scalingOnly r).trans (takeSample_scalingOnly _)).trans (warmUp_scalingOnly _)
  · exact carryScale_scalingOnly r

/-- A clean step leaves a record that nothing was written to (R104). -/
theorem sealClean_of_unwritten {r : TRec} (h : r.written = false) : sealClean r = r := by
  simp [sealClean, h]

theorem sealSkipped_scalingOnly (r : TRec) : ScalingOnly r (sealSkipped r) := by
  unfold sealSkipped
  split <;> rfl

/-- A skipped step changes SCALE, PENALTY, CLEAN_RUN and LOWERS at most (R104). -/
theorem sealSkipped_eq (r : TRec) : sealSkipped r =
    { r with scale := (sealSkipped r).scale, penalty := (sealSkipped r).penalty, cleanRun := (sealSkipped r).cleanRun,
             lowers := (sealSkipped r).lowers } := by
  unfold sealSkipped
  split <;> rfl

/-- A measuring step changes the scale at most (R104). -/
theorem sealMeasured_eq (r : TRec) : sealMeasured r = { r with scale := (sealMeasured r).scale } := by
  unfold sealMeasured
  split
  · exact rescale_eq _ _
  · rfl

theorem sealMeasured_scalingOnly (r : TRec) : ScalingOnly r (sealMeasured r) := by
  rw [sealMeasured_eq]
  rfl

/-! ### The seal (R104, R105) -/

/-- The branch of R104 for the kind of the seal. -/
def sealBranch : SealKind → TRec → TRec
  | .clean => sealClean
  | .skipped => sealSkipped
  | .measured => sealMeasured

theorem sealBranch_scalingOnly (k : SealKind) (r : TRec) : ScalingOnly r (sealBranch k r) := by
  cases k with
  | clean => exact sealClean_scalingOnly r
  | skipped => exact sealSkipped_scalingOnly r
  | measured => exact sealMeasured_scalingOnly r

/-- READ_SCALE of a record without CARRY follows SCALE (R106). -/
def followScale (r : TRec) : TRec := if r.carry then r else { r with readScale := r.scale }

theorem followScale_eq (r : TRec) : followScale r = { r with readScale := (followScale r).readScale } := by
  unfold followScale
  split <;> rfl

theorem followScale_scalingOnly (r : TRec) : ScalingOnly r (followScale r) := by
  rw [followScale_eq]
  rfl

/-- The step's counts added to the totals, but at a measuring step (R104). -/
def addTotals (k : SealKind) (r : TRec) : TRec :=
  if k = .measured then r
  else { r with totSat := sat32 r.totSat r.sat, totVan := sat32 r.totVan r.van, totNf := sat32 r.totNf r.nf }

theorem sealRec_eq (k : SealKind) (r : TRec) : sealRec k r = recClear (addTotals k (followScale (sealBranch k r))) := by
  cases k <;> rfl

/-- What the totals are added to differs from the record as the seal found it in the scaling fields alone. -/
theorem sealBranch_followScale_scalingOnly (k : SealKind) (r : TRec) : ScalingOnly r (followScale (sealBranch k r)) :=
  (sealBranch_scalingOnly k r).trans (followScale_scalingOnly _)

/-- A seal of any kind leaves the settings of word 0 (R97). -/
theorem sealRec_settings (k : SealKind) (r : TRec) : (sealRec k r).fmt = r.fmt ∧ (sealRec k r).auto = r.auto ∧ (sealRec k r).carry = r.carry ∧
    (sealRec k r).shared = r.shared ∧ (sealRec k r).nfAllow = r.nfAllow ∧ (sealRec k r).hlenM1 = r.hlenM1 ∧ (sealRec k r).margin = r.margin := by
  have settings := (sealBranch_followScale_scalingOnly k r).settings
  cases k <;> exact settings

/-- The totals gain the step's counts (R104). -/
theorem sealRec_totals {k : SealKind} (hk : k ≠ .measured) (r : TRec) : (sealRec k r).totSat = sat32 r.totSat r.sat ∧
    (sealRec k r).totVan = sat32 r.totVan r.van ∧ (sealRec k r).totNf = sat32 r.totNf r.nf := by
  obtain ⟨hsat, hvan, hnf, htotSat, htotVan, htotNf⟩ := (sealBranch_followScale_scalingOnly k r).counts
  rw [sealRec_eq, addTotals, if_neg hk, hsat, hvan, hnf, htotSat, htotVan, htotNf]
  exact ⟨rfl, rfl, rfl⟩

/-- A measuring step changes the two scales, and clears the step's counts (R104, R105). -/
theorem sealRec_measured (r : TRec) : sealRec .measured r =
    recClear { r with scale := (sealMeasured r).scale, readScale := (followScale (sealMeasured r)).readScale } :=
  congrArg recClear ((followScale_eq _).trans
    (congrArg (fun q : TRec => { q with readScale := (followScale (sealMeasured r)).readScale }) (sealMeasured_eq r)))

theorem sealRec_readScale {r : TRec} (k : SealKind) (h : r.carry = false) : (sealRec k r).readScale = (sealRec k r).scale := by
  have carry : (sealBranch k r).carry = false := (congrArg TRec.carry (sealBranch_scalingOnly k r)).trans h
  have follows : followScale (sealBranch k r) = { sealBranch k r with readScale := (sealBranch k r).scale } := by simp [followScale, carry]
  rw [sealRec_eq, follows]
  cases k <;> rfl

/-- A skipped step leaves the history and COLD (R104). -/
theorem sealRec_skipped_history (r : TRec) : (sealRec .skipped r).hist = r.hist ∧ (sealRec .skipped r).samples = r.samples ∧
    (sealRec .skipped r).head = r.head ∧ (sealRec .skipped r).cold = r.cold := by
  rw [sealRec_eq, sealBranch, followScale_eq, sealSkipped_eq]
  exact ⟨rfl, rfl, rfl, rfl⟩

/-- A clean step leaves the scale, the penalty and the history of a record that nothing was written to (R104). -/
theorem sealRec_clean_of_unwritten {r : TRec} (h : r.written = false) : (sealRec .clean r).scale = r.scale ∧
    (sealRec .clean r).penalty = r.penalty ∧ (sealRec .clean r).hist = r.hist := by
  rw [sealRec_eq, sealBranch, sealClean_of_unwritten h, followScale_eq]
  exact ⟨rfl, rfl, rfl⟩

/-! ### An abandoned step (R105) -/

/-- A function of the values alone, applied to each entry of a table. -/
theorem Tab.look_map {α β : Type} (f : α → β) (k : Nat) : ∀ t : Tab α, Tab.look (t.map (fun e => (e.1, f e.2))) k = (Tab.look t k).map f
  | [] => rfl
  | (k', v) :: t => by
    simp only [List.map_cons, Tab.look]
    split
    · rfl
    · exact Tab.look_map f k t

theorem govAbandon_recs (c : Ctl) (id : Nat) : (govAbandon c).gov.recs.look id = (c.gov.recs.look id).map recClear :=
  Tab.look_map recClear id c.gov.recs

/-- Settles O24: every seal clears words 3 to 9 last, its branch touches only the scaling fields, and an abandoned step does the
clearing alone. -/
theorem recordsAtTheSeal : Obligations.RecordsAtTheSeal := by
  refine ⟨fun k r => ?sealed, fun r => ⟨rfl, rfl, rfl, rfl, rfl, rfl, rfl, rfl, rfl, rfl⟩, govAbandon_recs⟩
  obtain ⟨fmt, auto, carry, shared, nfAllow, hlenM1, margin⟩ := sealRec_settings k r
  refine ⟨rfl, rfl, rfl, rfl, rfl, rfl, rfl, rfl, rfl, fmt, auto, carry, shared, nfAllow, hlenM1, margin,
    fun hk => sealRec_totals hk r, ?measured, sealRec_readScale k, ?skipped, ?clean⟩
  case measured =>
    rintro rfl
    rw [sealRec_measured]
    exact ⟨rfl, rfl, rfl, rfl, rfl, rfl, rfl, rfl, rfl⟩
  case skipped =>
    rintro rfl
    exact sealRec_skipped_history r
  case clean =>
    rintro rfl
    exact sealRec_clean_of_unwritten

/-! ### Commands of the governor -/

section
variable {s : State} (hr : running s.dev.c = true) (hg : mainReady s.dev.c 6 = true)
include hr hg

theorem exec_govRecDataWrite (v : Word) : exec (.govRecDataWrite v) s = .next (s.withCtl (recDataWrite v s.dev.c)) := by
  have ready : whenReady 6 (recDataWrite v) s.dev.c = recDataWrite v s.dev.c := if_pos hg
  exact (runCtl_running _ s hr).trans (by rw [ready]; rfl)

theorem exec_govTelSizeWrite (v : Word) : exec (.govTelSizeWrite v) s = .next (s.withCtl (telSizeWrite v s.dev.c)) := by
  have ready : whenReady 6 (telSizeWrite v) s.dev.c = telSizeWrite v s.dev.c := if_pos hg
  exact (runCtl_running _ s hr).trans (by rw [ready]; rfl)

theorem exec_govTelWrite (ho : stepOpen s.dev.c = true) : exec .govTelWrite s = .next (s.withDev (telWrite s.dev)) := by
  have opened : (mainReady s.dev.c 6 && stepOpen s.dev.c) = true := by rw [hg, ho]; rfl
  exact (runDev_running _ s hr).trans (by rw [if_pos opened]; rfl)

end

/-! ### The record window (R98, R122, R123) -/

section
variable {c : Ctl}

/-- Record 0 takes no write (R96). -/
theorem recDataWrite_of_id_zero (v : Word) (h : getF c R.GOV_REC_SEL.ID = 0) : recDataWrite v c = recAdvance c := by
  simp [recDataWrite, h]

variable (hid : 0 < getF c R.GOV_REC_SEL.ID) (hlt : getF c R.GOV_REC_SEL.ID < getF c R.GOV_CFG.RECORDS)
  (hrw : recWordRw (getF c R.GOV_REC_SEL.WORD) = true)
include hid hlt hrw

theorem recDataWrite_of_open (v : Word) (ho : stepOpen c = true) : recDataWrite v c = recAdvance (recReject c) := by
  simp [recDataWrite, Nat.ne_of_gt hid, Nat.not_le.2 hlt, hrw, ho]

/-- With no step OPEN a write is refused only for a format above 4 in word 0 (R98). -/
theorem recDataWrite_of_closed {v : Word} (ho : stepOpen c = false)
    (hv : getF c R.GOV_REC_SEL.WORD = 0 ∧ v.toNat % 16 ≤ 4 ∨ 0 < getF c R.GOV_REC_SEL.WORD) :
    recDataWrite v c = recAdvance (updRec (getF c R.GOV_REC_SEL.ID) (fun r => recWrite r (getF c R.GOV_REC_SEL.WORD) v.toNat) c) := by
  have format : (getF c R.GOV_REC_SEL.WORD == 0 && decide (4 < v.toNat % 16)) = false := by
    obtain ⟨_, small⟩ | pos := hv
    · simp [Nat.not_lt.2 small]
    · simp [Nat.ne_of_gt pos]
  simp [recDataWrite, Nat.ne_of_gt hid, Nat.not_le.2 hlt, hrw, ho, format]

end

/-- The selector lies in the registers, so the host port's state does not matter to its advance. -/
theorem recAdvance_onHost (f : HostPort → HostPort) (c : Ctl) : recAdvance (onHost f c) = onHost f (recAdvance c) := by
  have autoinc : getB (onHost f c) R.GOV_REC_SEL.AUTOINC = getB c R.GOV_REC_SEL.AUTOINC := rfl
  have word : getF (onHost f c) R.GOV_REC_SEL.WORD = getF c R.GOV_REC_SEL.WORD := rfl
  unfold recAdvance
  rw [autoinc, word]
  split
  · dsimp only
    split <;> rfl
  · rfl

theorem recAdvance_host (c : Ctl) : (recAdvance c).host = c.host := by
  unfold recAdvance
  split
  · dsimp only
    split <;> rfl
  · rfl

/-- A BAR0 read of GOV_REC_DATA answers the selected word and advances the selector (R122, R123). -/
theorem bar0Read_govRecData {c : Ctl} (hg : mainReady c 6 = true) :
    bar0Read R.GOV_REC_DATA.adr 4 c = (BitVec.ofNat 64 (recSelected c), recAdvance c) := by
  have form : regTest R.GOV_REC_DATA.adr 4 = true := by decide
  have block : blockAt R.GOV_REC_DATA.adr = some .governor := by decide
  have named : namesRegister R.GOV_REC_DATA.adr = true := by decide +kernel
  have noMsix : msixArea R.GOV_REC_DATA.adr = false := by decide
  have noTemp : isFanTemp R.GOV_REC_DATA.adr 4 = false := by decide
  have reached : readsReach c R.GOV_REC_DATA.adr .governor = true := by simp [readsReach, writesReach, hg]
  have word : readWord c R.GOV_REC_DATA.adr .governor = BitVec.ofNat 64 (recSelected c) := rfl
  simp [bar0Read, readAccess, readReg, form, block, named, noMsix, noTemp, reached, word, readEffect]

theorem hostRequest_govRecData {d : Dev} (hg : mainReady d.c 6 = true) (hq : PortQuiet d.c) (hs : hostServes d.c = true) :
    hostRequest { isRead := true, bar0 := true, off := R.GOV_REC_DATA.adr, width := 4, data := 0 } d =
      onCtl (fun c => recAdvance (onHost (fun h => { h with rsp := h.rsp ++ [.data (BitVec.ofNat 64 (recSelected c))] }) c)) d := by
  obtain ⟨hreach, hd3⟩ : hostReaches d.c = true ∧ d.c.host.d3 = false := by simpa [hostServes] using hs
  have answer : ∀ x : PortOp, x.num = portNum d.c.host →
      bar0Read R.GOV_REC_DATA.adr 4 (onHost (fun h => { h with ops := h.ops ++ [x] }) d.c) =
        (BitVec.ofNat 64 (recSelected d.c), onHost (fun h => { h with ops := h.ops ++ [x] }) (recAdvance d.c)) := by
    intro x _
    rw [bar0Read_govRecData (c := onHost _ d.c) hg, recAdvance_onHost]
    rfl
  have host := recAdvance_host d.c
  rw [hostRequest_read _ _ hq hreach hd3 (by decide) answer (by rw [host]) (by rw [host]; exact hq.1)]
  simp only [onCtl, recAdvance_onHost]

/-! ### The telemetry ring (R116) -/

section
variable {d : Dev} (hl : d.c.gov.tel ≠ []) (hz : getF d.c R.GOV_TEL_SIZE.ENTRIES ≠ 0)
include hl hz

/-- Entries for which the ring has room are stored, and HEAD passes them at once. -/
theorem telWrite_of_room (h : d.c.gov.tel.length ≤ ringFree (getF d.c R.GOV_TEL_SIZE.ENTRIES) (getF d.c R.GOV_TEL_HEAD.HEAD) (getF d.c R.GOV_TEL_TAIL.TAIL)) :
    telWrite d =
      onCtl (fun c => cause 18 (setF R.GOV_TEL_HEAD.HEAD
          ((getF d.c R.GOV_TEL_HEAD.HEAD + d.c.gov.tel.length) % getF d.c R.GOV_TEL_SIZE.ENTRIES) c))
        (telStore (getF d.c R.GOV_TEL_BASE.BASE * 256) (getF d.c R.GOV_TEL_SIZE.ENTRIES) (getF d.c R.GOV_TEL_HEAD.HEAD) d.c.gov.tel
          { d with c := { d.c with gov := { d.c.gov with tel := [] } } }) := by
  simp [telWrite, hl, hz, Nat.not_lt.2 h, onCtl]

/-- Without room for all of them none is stored, and the drop is counted and reported. -/
theorem telWrite_of_no_room (h : ringFree (getF d.c R.GOV_TEL_SIZE.ENTRIES) (getF d.c R.GOV_TEL_HEAD.HEAD) (getF d.c R.GOV_TEL_TAIL.TAIL) < d.c.gov.tel.length) :
    telWrite d =
      onCtl (fun c => govEvent 6 0 (leNat (((d.c.gov.tel.headD []).drop 4).take 4)) (setB R.GOV_STATUS.TEL_DROP true (satF R.GOV_TEL_DROPS.COUNT 1 c)))
        { d with c := { d.c with gov := { d.c.gov with tel := [] } } } := by
  simp [telWrite, hl, hz, h, onCtl]

end

/-- Settles O23: each clause is a branch of the window's write, of the ring's write, or the port's rule for a read. -/
theorem governorWindow : Obligations.GovernorWindow := by
  intro s v hr hg
  refine ⟨?written, ?rejected, ?record0, ?read, ?asleep, exec_govTelSizeWrite hr hg v, ?stored, ?dropped⟩
  case written =>
    intro hid hlt hrw ho hv
    rw [exec_govRecDataWrite hr hg, recDataWrite_of_closed hid hlt hrw ho hv]
  case rejected =>
    intro hid hlt hrw ho
    rw [exec_govRecDataWrite hr hg, recDataWrite_of_open hid hlt hrw v ho]
    rfl
  case record0 =>
    intro hid
    rw [exec_govRecDataWrite hr hg, recDataWrite_of_id_zero v hid]
  case read =>
    intro hq hs
    exact (runDev_running _ s hr).trans (by rw [hostRequest_govRecData hg hq hs]; rfl)
  case asleep =>
    intro hq hreach h3
    exact (runDev_running _ s hr).trans (by rw [hostRequest_d3_read _ hq hreach h3 rfl]; rfl)
  case stored =>
    intro ho hl hz room
    rw [exec_govTelWrite hr hg ho, telWrite_of_room hl hz room]
  case dropped =>
    intro ho hl hz full
    rw [exec_govTelWrite hr hg ho, telWrite_of_no_room hl hz full]
    rfl

end Sys2Proof.Machine
end

section
/-! ## Proofs: the sequencer

A command on a treadle is one function of the control state or the device; each lemma below says what that function does in one of
its branches. -/

namespace Sys2Proof.Machine

/-! ### Commands of the sequencer -/

/-- A control command on a treadle there is, while the module runs. -/
theorem runCtl_atTreadle (f : Ctl → Ctl) {s : State} {p t : Nat} (hr : running s.dev.c = true) (hp : p < 72) (ht : t < 6) :
    runCtl (atTreadle p t f) s = .next (s.withCtl (f s.dev.c)) := by
  rw [runCtl_running _ s hr, atTreadle, if_pos ⟨hp, ht⟩]
  rfl

section
variable {s : State} {p t : Nat} (hr : running s.dev.c = true) (hp : p < 72) (ht : t < 6)
include hr hp ht

theorem exec_listWordFetch : exec (.listWordFetch p t) s = .next (s.withDev (listWordFetch p t s.dev)) := runDev_atTreadle _ hr hp ht

theorem exec_pickLoad (cycle : Nat) : exec (.pickLoad p t cycle) s = .next (s.withDev (pickLoad p t cycle s.dev)) :=
  runDev_atTreadle _ hr hp ht

theorem exec_pickStart (cycle : Nat) : exec (.pickStart p t cycle) s = .next (s.withCtl (pickStart p t cycle s.dev.c)) :=
  runCtl_atTreadle _ hr hp ht

theorem exec_pickComplete (cycle : Nat) : exec (.pickComplete p t cycle) s = .next (s.withCtl (pickComplete p t cycle s.dev.c)) :=
  runCtl_atTreadle _ hr hp ht

theorem exec_hollowRetire (cycle : Nat) : exec (.hollowRetire p t cycle) s = .next (s.withCtl (hollowRetire p t cycle s.dev.c)) :=
  runCtl_atTreadle _ hr hp ht

theorem exec_delayedFlagSet : exec (.delayedFlagSet p t) s = .next (s.withCtl (delayedFlagSet p t s.dev.c)) :=
  runCtl_atTreadle _ hr hp ht

theorem exec_nop : exec (.nop p t) s = .next (s.withCtl (nopWork p t s.dev.c)) := runCtl_atTreadle _ hr hp ht

end

/-! ### Reading and loading (R129, R141, R143, R149, R150) -/

section
variable {d : Dev} {p t : Nat}

/-- A treadle whose list goes on reads the next word behind those it holds (R143). -/
theorem listWordFetch_of_room (ha : (trAt d.c p t).active = true) (he : (trAt d.c p t).ended = false)
    (hl : (trAt d.c p t).ahead.length < 16) (hw : (trAt d.c p t).ahead.any wordStepEnd = false) (ho : stepOpen d.c = true)
    (hc : d.c.copying.contains p = false) (hs : (trAt d.c p t).off + 4 * (trAt d.c p t).next < coreBytes) :
    listWordFetch p t d =
      onCtl (fun c =>
        let a := coreKey p + ((trAt c p t).off + 4 * (trAt c p t).next)
        settle p t (setTr p t (fun y => { y with
          ahead := y.ahead ++ [BitVec.ofNat 32 (leNat (readBytes d.m a 4))], next := y.next + 1 }) c)) d := by
  have goes : (!(trAt d.c p t).active || (trAt d.c p t).ended || decide (16 ≤ (trAt d.c p t).ahead.length) ||
      (trAt d.c p t).ahead.any wordStepEnd || !stepOpen d.c || d.c.copying.contains p) = false := by
    rw [ha, he, hw, ho, hc, decide_eq_false (Nat.not_le.2 hl)]
    rfl
  simp only [listWordFetch, onCtl, goes, Bool.false_eq_true, if_false, if_neg (Nat.not_le.2 hs)]

/-- Sixteen words ahead, or a program copy in hand, stop the reading (R143, R425). -/
theorem listWordFetch_of_stop (h : (trAt d.c p t).ahead.length = 16 ∨ d.c.copying.contains p = true) : listWordFetch p t d = d := by
  refine if_pos ?_
  cases h with
  | inl full => simp [full]
  | inr copying => rw [copying, Bool.or_true]

end

/-- The word `w` leaves the words ahead, and TR_STATE shows its pick: how a load begins (R129). -/
def takeHead (p t : Nat) (w : Word) (rest : List Word) (c : Ctl) : Ctl :=
  setF (trF R.TR_STATE.PICK p t) (wordIndex w) (setTr p t (fun x => { x with ahead := rest, early := x.closed }) c)

/-- The pick of list word `w` in the working registers of treadle `x` (R129). -/
def loadedPick (m : Store) (p : Nat) (x : Treadle) (w : Word) : Loaded :=
  { image := pickImage m p (wordIndex w), idx := wordIndex w, word := headIdx x, segEnd := wordSegEnd w, stepEnd := wordStepEnd w, due := 0 }

/-- What the checks of R149 say of the pick of the word that leaves the words ahead. -/
def headRefusal (m : Store) (p t : Nat) (w : Word) (c0 : Ctl) : Option Nat :=
  refusal c0 (cntOf c0 p) (logCore c0 p) t (pickImage m p (wordIndex w))

section
variable {d : Dev} {p t : Nat} {w : Word} {rest : List Word} (ha : (trAt d.c p t).ahead = w :: rest)
  (hm : mayLoad d.c p (trAt d.c p t) = true) (he : wordEmpty w = false) (ho : stepOpen d.c = true) (hh : (trAt d.c p t).hollow = false)
include ha hm he ho hh

/-- An image without a fault is held ready to start. -/
theorem pickLoad_of_sound (cycle : Nat) (hr : headRefusal d.m p t w (takeHead p t w rest d.c) = none) :
    pickLoad p t cycle d =
      onCtl (fun c => setTr p t (fun y => { y with load := some (loadedPick d.m p (trAt c p t) w) }) (takeHead p t w rest c)) d := by
  rw [headRefusal, takeHead] at hr
  simp [pickLoad, loadedPick, takeHead, onCtl, ha, hm, he, ho, hh, hr]

/-- A refused pick of an open segment takes its fault, and its word is done with (R150). -/
theorem pickLoad_of_refused (cycle : Nat) {reason : Nat} (hr : headRefusal d.m p t w (takeHead p t w rest d.c) = some reason)
    (hc : (trAt d.c p t).closed = false) :
    pickLoad p t cycle d =
      onCtl (fun c => takeWord p t (headIdx (trAt c p t)) (wordSegEnd w) (wordStepEnd w)
        (tracePick p t evRefused (wordIndex w) (headIdx (trAt c p t)) cycle
          (faultNow p t causeRefused reason (wordIndex w) (headIdx (trAt c p t)) (imgWaitGrp (pickImage d.m p (wordIndex w)))
            (takeHead p t w rest c)))) d := by
  rw [headRefusal, takeHead] at hr
  simp [pickLoad, takeHead, onCtl, ha, hm, he, ho, hh, hr, hc]

end

/-- Settles O34: the fetch appends one word or is stopped, and the load ends as the refusal's answer says. -/
theorem treadleFetchAndLoad : Obligations.TreadleFetchAndLoad := by
  intro s p t cycle w rest hr hp ht
  refine ⟨?fetches, ?stops, fun ha hm he ho hh => ⟨?loads, ?refuses⟩⟩
  case fetches =>
    intro ha he hl hw ho hc hs
    rw [exec_listWordFetch hr hp ht, listWordFetch_of_room ha he hl hw ho hc hs]
    rfl
  case stops =>
    intro h
    rw [exec_listWordFetch hr hp ht, listWordFetch_of_stop h]
    rfl
  case loads =>
    intro sound
    rw [exec_pickLoad hr hp ht, pickLoad_of_sound ha hm he ho hh cycle sound]
    rfl
  case refuses =>
    intro reason refused hc
    rw [exec_pickLoad hr hp ht, pickLoad_of_refused ha hm he ho hh cycle refused hc]
    rfl

/-! ### Starting (R144, R146, R147, R151) -/

/-- The loaded pick leaves the working registers, and TR_POS shows its word: how a start and a hollow retirement begin. -/
def unload (p t : Nat) (ld : Loaded) (c : Ctl) : Ctl :=
  setF (trF R.TR_POS.WORD p t) ld.word (setTr p t (fun x => { x with load := none }) c)

/-- The pick that starts with a treadle that is not hollow: loop counts and the tail count are read from `c` (R134, R136). -/
def startedRun (p : Nat) (ld : Loaded) (c : Ctl) : Running :=
  { image := ld.image, idx := ld.idx, word := ld.word, segEnd := ld.segEnd, stepEnd := ld.stepEnd, hollow := false,
    counts := loopCounts (cntOf c p) ld.image, mTail := cntOf c p (imgMTailCnt ld.image),
    worked := noWork ld.image (loopCounts (cntOf c p) ld.image), lost := false, todo := [], waiting := 0, got := [] }

section
variable {c : Ctl} {p t : Nat} {ld : Loaded} (hl : (trAt c p t).load = some ld) (hb : beatAllows c p = true)
  (hv : prevAllows t (trAt c p t) = true) (hh : (trAt c p t).hollow = false)
include hl hb hv hh

/-- A pick that waits for any flag stays loaded, and nothing changes (R146). -/
theorem pickStart_of_pending (cycle : Nat) (hw : localPending c p cycle ld.image ≠ 0 ∨ chipPending c ld.image ≠ 0) :
    pickStart p t cycle c = c := by
  have waits : (localPending c p cycle ld.image != 0 || chipPending c ld.image != 0) = true := by
    rw [Bool.or_eq_true, bne_iff_ne, bne_iff_ne]
    exact hw
  simp only [pickStart, hl, hb, hv, hh, waits, Bool.not_true, Bool.not_false, Bool.false_and, Bool.or_false, Bool.and_true,
    Bool.false_eq_true, if_false, if_true]

variable {cycle : Nat} (hloc : localPending c p cycle ld.image = 0) (hchip : chipPending c ld.image = 0)
include hloc hchip

/-- A pick of an absent engine that would start takes its fault (R151). -/
theorem pickStart_of_absent (ha : engineAbsent (unload p t ld c) p t = true) :
    pickStart p t cycle c = takeWord p t ld.word ld.segEnd ld.stepEnd
      (faultNow p t causeAbsent 0 ld.idx ld.word (imgWaitGrp ld.image) (unload p t ld c)) := by
  rw [unload] at ha ⊢
  simp [pickStart, hl, hb, hv, hh, hloc, hchip, ha]

/-- With every flag set a pick of a present engine starts, after CONSUME has cleared its local flags (R144, R147). -/
theorem pickStart_of_present (ha : engineAbsent (unload p t ld c) p t = false) :
    let c2 := if imgConsume ld.image then consume p cycle (BitVec.ofNat 64 (imgWaitLocal ld.image)) ld.due (unload p t ld c)
      else unload p t ld c
    pickStart p t cycle c = takeWord p t ld.word ld.segEnd ld.stepEnd
      (tracePick p t evStart ld.idx ld.word cycle (setTr p t (fun x => { x with runs := x.runs ++ [startedRun p ld c2] }) c2)) := by
  rw [unload] at ha ⊢
  simp [pickStart, startedRun, hl, hb, hv, hh, hloc, hchip, ha]

end

/-- Without a flag in WAIT_LOCAL no local flag is pending. -/
theorem localPending_of_no_wait {img : List Word} (h : imgWaitLocal img = 0) (c : Ctl) (p cycle : Nat) :
    localPending c p cycle img = 0 := by
  simp [localPending, h]

/-- Without a flag in WAIT_CHIP no chip flag is pending. -/
theorem chipPending_of_no_wait {img : List Word} (h : imgWaitChip img = 0) (c : Ctl) : chipPending c img = 0 := by
  simp [chipPending, h]

/-! ### Flags that are set or clear already (R146) -/

/-- Flags all set add nothing. -/
theorem or_eq_of_and_not_eq_zero {w : Nat} {f v : BitVec w} (h : v &&& ~~~ f = 0) : f ||| v = f := by
  ext i hi
  simpa using congrArg (·[i]) h

/-- Clearing flags all clear removes nothing. -/
theorem and_not_eq_of_and_eq_zero {w : Nat} {f v : BitVec w} (h : v &&& f = 0) : f &&& ~~~ v = f := by
  ext i hi
  have hbit : v[i] = true → f[i] = false := by simpa using congrArg (·[i]) h
  cases hv : v[i] with
  | true => simp [hbit hv]
  | false => simp [hv]

/-- A word rewritten with what it holds leaves every word as it was. -/
theorem getReg_setReg_self (off : Nat) (c : Ctl) (off' : Nat) : getReg (setReg off (getReg c off) c) off' = getReg c off' := by
  by_cases h : off' = off
  · rw [h, getReg_setReg_same]
  · exact getReg_setReg_ne _ _ h

/-- So does a core whose local flags are rewritten with what they are. -/
theorem getReg_setLocalFlags_self (p : Nat) (c : Ctl) (off : Nat) : getReg (setLocalFlags p (localFlags c p) c) off = getReg c off :=
  getReg_setReg_self ..

/-- Whether a pick may start is read from the registers' values and from typed fields: local flags rewritten with what they are let
no pick start. -/
theorem startable_setLocalFlags_self (p q t : Nat) (c : Ctl) :
    startable (setLocalFlags p (localFlags c p) c) q t = startable c q t := by
  have hreg := getReg_setLocalFlags_self p c
  generalize hc' : setLocalFlags p (localFlags c p) c = c' at hreg ⊢
  have htr : c'.treadles = c.treadles := hc' ▸ rfl
  have htime : c'.time = c.time := hc' ▸ rfl
  have hjit : c'.jitter = c.jitter := hc' ▸ rfl
  have hcopy : c'.copying = c.copying := hc' ▸ rfl
  have hchip : c'.chip = c.chip := hc' ▸ rfl
  simp only [startable, trAt, beatAllows, stepOpen, quiesced, coreReady, chipPending, chipGroup, localFlags, getB, getF, hreg, htr, htime,
    hjit, hcopy, hchip]

/-- Setting local flags that are set rewrites the flags with what they are, and lets no pick start. -/
theorem setLocal_of_set {c : Ctl} {p : Nat} {v : Dword} (h : v &&& ~~~ localFlags c p = 0) :
    setLocal p v c = setLocalFlags p (localFlags c p) c := by
  have hor : orLocal p v c = setLocalFlags p (localFlags c p) c := by rw [orLocal, or_eq_of_and_not_eq_zero h]
  refine forN_keeps (· = setLocalFlags p (localFlags c p) c) 6 (fun t c1 h1 => ?_) hor
  simp [h1, startable_setLocalFlags_self]

/-- Clearing local flags that are clear rewrites the flags with what they are. -/
theorem clearLocal_of_clear {c : Ctl} {p : Nat} {v : Dword} (h : v &&& localFlags c p = 0) :
    clearLocal p v c = setLocalFlags p (localFlags c p) c := by
  rw [clearLocal, and_not_eq_of_and_eq_zero h]

/-- A bit of a group of chip flags is the bit at its place among all of them. -/
theorem chipGroup_bit (c : Ctl) (g i : Nat) : (chipGroup c g).getLsbD i = (decide (i < 64) && c.chip.getLsbD (64 * g + i)) := by
  simp [chipGroup]

/-- Setting chip flags that are set changes nothing. -/
theorem setChip_of_set {c : Ctl} {g : Nat} {v : Dword} (h : v &&& ~~~ chipGroup c g = 0) : setChip g v c = c := by
  have hbit (j : Nat) (hv : v.getLsbD j = true) : c.chip.getLsbD (64 * g + j) = true := by
    have hg : (chipGroup c g).getLsbD j = true := by rw [← or_eq_of_and_not_eq_zero h, BitVec.getLsbD_or, hv, Bool.or_true]
    rw [chipGroup_bit, Bool.and_eq_true] at hg
    exact hg.2
  have hor : c.chip ||| v.setWidth 4096 <<< (64 * g) = c.chip := by
    refine BitVec.eq_of_getLsbD_eq fun i hi => ?_
    rw [BitVec.getLsbD_or, BitVec.getLsbD_shiftLeft, BitVec.getLsbD_setWidth]
    by_cases hg : 64 * g ≤ i
    · have := hbit (i - 64 * g)
      rw [Nat.add_sub_cancel' hg] at this
      cases hv : v.getLsbD (i - 64 * g) with
      | true => simp [this hv]
      | false => simp
    · simp [Nat.lt_of_not_le hg]
  rw [setChip, hor]

/-- Settles O35: the two outcomes of a wait are branches of the start, and flags that are set or clear already rewrite the flag words
with what they hold, which lets no further pick start. -/
theorem waitsTestTheirFlagsTogether : Obligations.WaitsTestTheirFlagsTogether := by
  intro s p t cycle ld v hr hp ht
  refine ⟨fun hl hb hv hh => ⟨?waits, fun hloc hchip => ⟨?starts, ?absent⟩⟩, ?maskless, ?sets, ?clears, ?chip⟩
  case waits =>
    intro hw
    rw [exec_pickStart hr hp ht, pickStart_of_pending hl hb hv hh cycle hw]
    rfl
  case starts =>
    intro ha
    rw [exec_pickStart hr hp ht, pickStart_of_present hl hb hv hh hloc hchip ha]
    rfl
  case absent =>
    intro ha
    rw [exec_pickStart hr hp ht, pickStart_of_absent hl hb hv hh hloc hchip ha]
    rfl
  case maskless => exact fun hloc hchip => ⟨localPending_of_no_wait hloc .., chipPending_of_no_wait hchip _⟩
  case sets =>
    intro off h
    rw [setLocal_of_set h, getReg_setLocalFlags_self]
  case clears =>
    intro off h
    rw [clearLocal_of_clear h, getReg_setLocalFlags_self]
  case chip => exact fun g h _ => setChip_of_set h

/-! ### Completing (R145, R153, R468) -/

section
variable {c : Ctl} {p t : Nat}

/-- The oldest started pick, once complete, leaves its treadle outside the guard and sets its flags. -/
theorem pickComplete_of_complete {r : Running} {rest : List Running} (hx : (trAt c p t).runs = r :: rest) (hc : runComplete c r = true)
    (hg : c.time.inGuard = false) (cycle : Nat) :
    pickComplete p t cycle c = segCheck p t (tracePick p t evComplete r.idx r.word cycle
      (setFlags p t r.image (setTr p t (fun x => { x with runs := rest }) c))) := by
  simp [pickComplete, hx, hc, hg]

/-- Until it is complete it stays. -/
theorem pickComplete_of_incomplete {r : Running} {rest : List Running} (hx : (trAt c p t).runs = r :: rest)
    (hc : runComplete c r = false) (cycle : Nat) : pickComplete p t cycle c = c := by
  simp [pickComplete, hx, hc]

/-- A pick that a hollow treadle does not run in full sets its flags and its word is done with (R153). -/
theorem hollowRetire_of_hollow {ld : Loaded} (hl : (trAt c p t).load = some ld) (hh : (trAt c p t).hollow = true)
    (hf : fullWhenHollow (imgOp ld.image) = false) (hb : beatAllows c p = true) (hv : prevAllows t (trAt c p t) = true) (cycle : Nat) :
    hollowRetire p t cycle c = takeWord p t ld.word ld.segEnd ld.stepEnd
      (tracePick p t evHollow ld.idx ld.word cycle (setFlags p t ld.image (unload p t ld c))) := by
  simp [hollowRetire, unload, hl, hh, hf, hb, hv]

/-- The oldest delayed set of the treadle occurs and is gone (R468). -/
theorem delayedFlagSet_of_found {e : DelayedSet} (h : c.delayed.find? (fun e => e.p == p && e.t == t) = some e) :
    delayedFlagSet p t c = setChip e.grp e.chip (setLocal p e.loc { c with delayed := c.delayed.erase e }) := by
  simp [delayedFlagSet, h]

/-- A started NOP's work is done at once (R131). -/
theorem nopWork_of_started {r : Running} (h : curRun c p t 0x00 = some r) : nopWork p t c = workDone p t c := by
  simp [nopWork, h]

/-- Without a started NOP there is nothing to do. -/
theorem nopWork_of_none (h : curRun c p t 0x00 = none) : nopWork p t c = c := by
  simp [nopWork, h]

end

/-- Settles O36: each clause is a branch of its command's function of the control state. -/
theorem picksCompleteAndSetFlags : Obligations.PicksCompleteAndSetFlags := by
  intro s p t cycle r rest ld e hr hp ht
  refine ⟨?complete, ?incomplete, ?hollow, ?delayed, ?nop, ?noNop⟩
  case complete =>
    intro hx hc hg
    rw [exec_pickComplete hr hp ht, pickComplete_of_complete hx hc hg]
  case incomplete =>
    intro hx hc
    rw [exec_pickComplete hr hp ht, pickComplete_of_incomplete hx hc]
    rfl
  case hollow =>
    intro hl hh hf hb hv
    rw [exec_hollowRetire hr hp ht, hollowRetire_of_hollow hl hh hf hb hv]
    rfl
  case delayed =>
    intro h
    rw [exec_delayedFlagSet hr hp ht, delayedFlagSet_of_found h]
  case nop =>
    intro h
    rw [exec_nop hr hp ht, nopWork_of_started h]
  case noNop =>
    intro h
    rw [exec_nop hr hp ht, nopWork_of_none h]
    rfl

end Sys2Proof.Machine
end

section
/-! ## Proofs: the shuttle

A started pick of TS lists its pieces and issues what may be outstanding (R176); a FLAG pick is one request, here or to a peer (R185). -/

namespace Sys2Proof.Machine

/-! ### Commands of the shuttle -/

/-- A device command on a core there is, while the module runs. -/
theorem runDev_onCore (f : Dev → Dev) {s : State} {p : Nat} (hr : running s.dev.c = true) (hp : p < 72) :
    runDev (onCore p f) s = .next (s.withDev (f s.dev)) := by
  rw [runDev_running _ s hr, onCore, if_pos hp]
  rfl

section
variable {s : State} {p : Nat} (hr : running s.dev.c = true) (hp : p < 72)
include hr hp

theorem exec_move : exec (.move p) s = .next (s.withDev (shuttleStart 0x30 p movePieces (fun r => !imgAdd r.image) s.dev)) :=
  runDev_onCore _ hr hp

theorem exec_moveAdd : exec (.moveAdd p) s = .next (s.withDev (shuttleStart 0x30 p movePieces (fun r => imgAdd r.image) s.dev)) :=
  runDev_onCore _ hr hp

theorem exec_cntload : exec (.cntload p) s = .next (s.withDev (shuttleStart 0x31 p gatherPieces (fun _ => true) s.dev)) :=
  runDev_onCore _ hr hp

theorem exec_pload : exec (.pload p) s = .next (s.withDev (shuttleStart 0x32 p gatherPieces (fun _ => true) s.dev)) :=
  runDev_onCore _ hr hp

theorem exec_flagPick (clear : Bool) :
    exec (if clear then .flagPickClear p else .flagPickSet p) s = .next (s.withDev (flagPick clear p s.dev)) := by
  cases clear with
  | true => exact runDev_onCore _ hr hp
  | false => exact runDev_onCore _ hr hp

end

/-! ### Pieces (R138, R140, R176 to R178) -/

/-- The started pick that a command is for lists its pieces and issues what may be outstanding. -/
theorem shuttleStart_of_started {op p : Nat} {pieces : Running → List Piece} {ok : Running → Bool} {d : Dev} {r : Running}
    (hc : curRun d.c p 5 op = some r) (hok : ok r = true) :
    shuttleStart op p pieces ok d =
      pump p (onCtl (fun c => updTs p (fun x => { x with worked := true, todo := pieces r }) (drawn c)) d) := by
  simp [shuttleStart, hc, hok]

/-- Without a started pick of the opcode nothing is done. -/
theorem shuttleStart_of_none {op p : Nat} {d : Dev} (hc : curRun d.c p 5 op = none) (pieces : Running → List Piece) (ok : Running → Bool) :
    shuttleStart op p pieces ok d = d := by
  simp [shuttleStart, hc]

/-! ### FLAG (R185) -/

/-- A chip flag set or cleared (R181). -/
def putFlag (set : Bool) (f : Nat) (c : Ctl) : Ctl :=
  let m : BitVec 4096 := 1 <<< f
  { c with chip := if set then c.chip ||| m else c.chip &&& ~~~ m }

/-- A flag operation that returns nothing sets or clears its chip flag, and no more (R183). -/
theorem atomicFlag_of_no_return {q : AtomicReq} (h : q.ret = false) (set : Bool) (who : HeldFor) (d : Dev) :
    (atomicFlag set q who d).1 = onCtl (putFlag set (q.operand.toNat % 4096)) d := by
  simp only [atomicFlag, atomicReturn, h, Bool.not_false, if_true]
  rfl

section
variable {d : Dev} {p : Nat} {r : Running} (hc : curRun d.c p 5 0x33 = some r)
include hc

/-- The command of the other direction leaves a FLAG pick alone. -/
theorem flagPick_of_other {clear : Bool} (h : (imgOparg r.image / 2 ^ 12 % 2 == 1) = !clear) : flagPick clear p d = d := by
  simp only [flagPick, hc, h]
  cases clear <;> rfl

variable {clear : Bool} (hd : (imgOparg r.image / 2 ^ 12 % 2 == 1) = clear)
include hd

/-- A FLAG pick for this device sets or clears the chip flag, and its work is done. -/
theorem flagPick_of_here (ht : targetOf (workDone p 5 d.c) (imgBase r.image 2 / 2 ^ 48) = .here)
    (hm : mainReady (workDone p 5 d.c) 5 = true) :
    flagPick clear p d = onCtl (putFlag (!clear) (imgOparg r.image % 4096)) (onCtl (workDone p 5) d) := by
  have hf : (BitVec.ofNat 64 (imgOparg r.image % 4096)).toNat % 4096 = imgOparg r.image % 4096 := by
    rw [BitVec.toNat_ofNat]
    omega
  simp only [flagPick, hc, hd, bne_self_eq_false, Bool.false_eq_true, if_false, onCtl_c, ht, hm, if_true]
  rw [atomicFlag_of_no_return rfl, hf]

/-- A FLAG pick for a peer is a request to that device's atomic port, which the pick awaits. -/
theorem flagPick_of_peer {n : Nat} (ht : targetOf (workDone p 5 d.c) (imgBase r.image 2 / 2 ^ 48) = .peer n) :
    flagPick clear p d = onCtl (fun c => tsWait p (issueWrite n (imgBase r.image 2 / 2 ^ 48 * 2 ^ 48 + atomicPort)
      (flagRequest clear (imgOparg r.image % 4096)) (.write (.pick p 5)) c)) (onCtl (workDone p 5) d) := by
  simp only [flagPick, hc, hd, bne_self_eq_false, Bool.false_eq_true, if_false, onCtl_c]
  generalize imgBase r.image 2 / 2 ^ 48 = dev at ht ⊢
  rw [ht]

end

/-- Settles O39: a shuttle command is the start of its opcode's pick, and a FLAG command either finds a pick of the other direction or
makes the pick's one request. -/
theorem shuttleAndFlagPicks : Obligations.ShuttleAndFlagPicks := by
  refine ⟨fun s p r hr hp => ⟨?move, ?moveAdd, ?cntload, ?pload, ?none⟩, fun s p r clear hr hp hc hd => ⟨?other, ?here, ?peer⟩⟩
  case move =>
    intro hc ha
    rw [exec_move hr hp, shuttleStart_of_started hc (by rw [ha]; rfl)]
  case moveAdd =>
    intro hc ha
    rw [exec_moveAdd hr hp, shuttleStart_of_started hc ha]
  case cntload =>
    intro hc
    rw [exec_cntload hr hp, shuttleStart_of_started hc rfl]
  case pload =>
    intro hc
    rw [exec_pload hr hp, shuttleStart_of_started hc rfl]
  case none =>
    intro hc
    rw [exec_move hr hp, exec_moveAdd hr hp, shuttleStart_of_none hc, shuttleStart_of_none hc]
    exact ⟨rfl, rfl⟩
  case other =>
    rw [exec_flagPick hr hp, flagPick_of_other hc (by rw [hd, Bool.not_not])]
    rfl
  case here =>
    intro ht hm
    rw [exec_flagPick hr hp, flagPick_of_here hc hd ht hm]
    cases clear <;> rfl
  case peer =>
    intro n ht
    rw [exec_flagPick hr hp, flagPick_of_peer hc hd ht]
    rfl

end Sys2Proof.Machine
end

section
/-! ## Proofs: memory's canonical form along every step

Every operation keeps the form (`Laws/Keep`); a command lifts one operation, so it keeps it too. -/

namespace Sys2Proof.Machine

/-! ### What the lifts keep -/

/-- One of two devices whose memory is in canonical form. -/
theorem ite_ok {p : Prop} [Decidable p] {a b : Dev} (ha : Dev.ok a) (hb : Dev.ok b) : Dev.ok (if p then a else b) := by
  split
  · exact ha
  · exact hb

theorem atTreadle_ok {f : Dev → Dev} (hf : ∀ {d}, Dev.ok d → Dev.ok (f d)) (p t : Nat) {d : Dev} (h : Dev.ok d) : Dev.ok (atTreadle p t f d) :=
  ite_ok (hf h) h

section
variable {s t : State}

/-- A command of a pin, the management controller or the supply keeps the form if its operation does. -/
theorem memOk_of_pinDev {f : Dev → Dev} (he : pinDev f s = .next t) (h : s.MemOk) (hf : ∀ {d}, Dev.ok d → Dev.ok (f d)) : t.MemOk := by
  cases he
  exact hf h

/-- A command that acts while the module runs keeps the form if its operation does. -/
theorem memOk_of_runDev {f : Dev → Dev} (he : runDev f s = .next t) (h : s.MemOk) (hf : ∀ {d}, Dev.ok d → Dev.ok (f d)) : t.MemOk := by
  cases hr : running s.dev.c with
  | true =>
    rw [runDev_running f s hr] at he
    cases he
    exact hf h
  | false =>
    rw [runDev_off f s hr] at he
    cases he
    exact h

/-- A change of control state touches no memory. -/
theorem memOk_of_pinCtl {f : Ctl → Ctl} (he : pinCtl f s = .next t) (h : s.MemOk) : t.MemOk :=
  memOk_of_pinDev (f := onCtl f) he h (onCtl_ok f)

theorem memOk_of_runCtl {f : Ctl → Ctl} (he : runCtl f s = .next t) (h : s.MemOk) : t.MemOk :=
  memOk_of_runDev (f := onCtl f) he h (onCtl_ok f)

/-- A frame keeps the form if its handler does. -/
theorem memOk_of_arrive {cls type : Nat} {f : Handler} {rx : Rx} (he : runDev (arrive cls type f rx) s = .next t) (h : s.MemOk)
    (hf : ∀ n r d, Dev.ok d → Dev.ok (f n r d)) : t.MemOk :=
  memOk_of_runDev he h (fun hd => arrive_ok _ _ _ _ hd hf)

/-- A command on a treadle keeps the form if its operation does. -/
theorem memOk_of_atTreadle {p u : Nat} {f : Dev → Dev} (he : runDev (atTreadle p u f) s = .next t) (h : s.MemOk)
    (hf : ∀ {d}, Dev.ok d → Dev.ok (f d)) : t.MemOk :=
  memOk_of_runDev he h (atTreadle_ok hf p u)

/-- A command on a core keeps the form if its operation does. -/
theorem memOk_of_onCore {p : Nat} {f : Dev → Dev} (he : runDev (onCore p f) s = .next t) (h : s.MemOk)
    (hf : ∀ {d}, Dev.ok d → Dev.ok (f d)) : t.MemOk :=
  memOk_of_runDev he h (fun hd => onCore_ok p f hd (fun _ => hf))

end

/-! ### Every command -/

/-- Every command keeps memory in canonical form: the operation that it lifts does. The commands not named change control state alone. -/
theorem exec_memOk {i : Instr} {s t : State} (he : exec i s = .next t) (h : s.MemOk) : t.MemOk := by
  cases i with
  | beatBoundary => exact memOk_of_runDev he h (beatBoundary_ok _)
  | localBeatBoundary => exact memOk_of_runDev he h localBoundary_ok
  | guardStart => exact memOk_of_runDev he h (guardStart_ok _)
  | timeUpSend => exact memOk_of_runDev he h (timeUpSend_ok _)
  | timeDownSend => exact memOk_of_runDev he h (timeDownSend_ok _)
  | timeUp => exact memOk_of_arrive he h gotTimeUp_ok
  | timeDown => exact memOk_of_arrive he h gotTimeDown_ok
  | listWordFetch => exact memOk_of_atTreadle he h (listWordFetch_ok _ _)
  | pickLoad => exact memOk_of_atTreadle he h (pickLoad_ok _ _ _)
  | matmul => exact memOk_of_atTreadle he h (matmulWork_ok _ _)
  | drain => exact memOk_of_atTreadle he h (drainWork_ok _ _)
  | vmap | vred => exact memOk_of_atTreadle he h (vectorWork_ok _ _)
  | vupd => exact memOk_of_atTreadle he h (vupdWork_ok _)
  | move | moveAdd | cntload | pload => exact memOk_of_onCore he h (shuttleStart_ok _ _ _ _)
  | flagPickSet | flagPickClear => exact memOk_of_onCore he h (flagPick_ok _ _)
  | reduceScatter | allReduce | allGather | broadcast | ringPass => exact memOk_of_onCore he h (collStart_ok _ _)
  | vote => exact memOk_of_onCore he h (onCtl_ok _)
  | faddI32 | faddI64 | faddF32 | cas64 | flagSet | flagClr => exact memOk_of_runDev he h (atomicCmd_ok _ _)
  | atomicOpUndefined => exact memOk_of_runDev he h (fun hd => ite_ok hd (atomicCmd_ok _ _ hd))
  | atomicSlotFill => exact memOk_of_runDev he h (slotFill_ok _ _ _ _)
  | portholeRead | portholeWrite | registerWrite | evtPop | irqStatusClear | irqEnableWrite | govRecDataRead | dbgAccRead =>
    exact memOk_of_runDev he h (hostRequest_ok _)
  | portholeReadTimeout => exact memOk_of_runDev he h portholeTimeout_ok
  | readReq => exact memOk_of_arrive he h gotReadReq_ok
  | readRsp | ack => exact memOk_of_arrive he h (gotResponse_ok _)
  | write => exact memOk_of_arrive he h (fun _ _ _ => gotWrite_ok _ _)
  | addWrite => exact memOk_of_arrive he h (fun _ _ _ => gotAddWrite_ok _ _)
  | rmaDeadline => exact memOk_of_runDev he h (reqDue_ok _)
  | hello => exact memOk_of_arrive he h gotHello_ok
  | prove => exact memOk_of_arrive he h gotProve_ok
  | admitted => exact memOk_of_arrive he h gotAdmitted_ok
  | reject => exact memOk_of_arrive he h gotReject_ok
  | part => exact memOk_of_arrive he h gotPart_ok
  | data => exact memOk_of_arrive he h gotData_ok
  | ring => exact memOk_of_arrive he h gotRing_ok
  | cready => exact memOk_of_arrive he h gotCready_ok
  | voteUp => exact memOk_of_arrive he h gotVoteUp_ok
  | voteDown => exact memOk_of_arrive he h gotVoteDown_ok
  | digest => exact memOk_of_arrive he h gotDigest_ok
  | digestSweepDone => exact memOk_of_runDev he h sweepDone_ok
  | retainFileDone => exact memOk_of_runDev he h fileDone_ok
  | stageRestoreDone => exact memOk_of_runDev he h stageRestored_ok
  | restoreComplete => exact memOk_of_runDev he h restoreComplete_ok
  | restoreRequestTimeout => exact memOk_of_runDev he h (restoreTimeout_ok _)
  | replayStart => exact memOk_of_runDev he h replayStart_ok
  | armedRecoveryStart => exact memOk_of_runDev he h armedStart_ok
  | rstCtrlGo => exact memOk_of_runDev he h (fun hd => ite_ok (rstGo_ok hd) hd)
  | govTelWrite => exact memOk_of_runDev he h (fun hd => ite_ok (telWrite_ok hd) hd)
  | snapshotLineCopy => exact memOk_of_runDev he h snapLine_ok
  | snapshotComplete => exact memOk_of_runDev he h snapComplete_ok
  | captureReadoutDone => exact memOk_of_runDev he h readoutDone_ok
  | moveJobUnitCopy job =>
    cases job with
    | channel => exact memOk_of_runDev he h chCopy_ok
    | rekey => exact memOk_of_runDev he h rekeyCopy_ok
  | mirrorExtentSend => exact memOk_of_runDev he h mirrorSend_ok
  | mirrorExtentResend => exact memOk_of_runDev he h (mirrorResend_ok _)
  | imgData => exact memOk_of_arrive he h gotImgData_ok
  | imgAck => exact memOk_of_arrive he h gotImgAck_ok
  | imgEnd => exact memOk_of_arrive he h gotImgEnd_ok
  | imgDone => exact memOk_of_arrive he h gotImgDone_ok
  | imgReq => exact memOk_of_arrive he h gotImgReq_ok
  | stripeSend => exact memOk_of_runDev he h stripeSend_ok
  | stripeResend => exact memOk_of_runDev he h (stripeResend_ok _)
  | stripeData => exact memOk_of_arrive he h gotStripeData_ok
  | stripeEnd => exact memOk_of_arrive he h gotStripeEnd_ok
  | stripeAck => exact memOk_of_arrive he h gotStripeAck_ok
  | stripeReq => exact memOk_of_arrive he h gotStripeReq_ok
  | recData => exact memOk_of_arrive he h gotRecData_ok
  | recAck => exact memOk_of_arrive he h gotRecAck_ok
  | recReq => exact memOk_of_arrive he h gotRecReq_ok
  | coreMoveLineCopy => exact memOk_of_runDev he h moveLine_ok
  | spillWriteback => exact memOk_of_runDev he h spillBack_ok
  | draftPull => exact memOk_of_runDev he h draftPull_ok
  | draftVerifyDone => exact memOk_of_runDev he h verifyDone_ok
  | draftStartAt => exact memOk_of_runDev he h startAt_ok
  | functionLevelReset | hotReset | linkLoss => exact memOk_of_runDev he h (fun hd => ite_ok (hostResetRun_ok _ _ hd) hd)
  | perst => exact memOk_of_runDev he h (hostResetRun_ok _ _)
  | ingressDelayRelease => exact memOk_of_runDev he h (ingressRelease_ok _)
  | malformedFrame => exact memOk_of_runDev he h (anyFrame_ok _)
  | dbgTraceWrite => exact memOk_of_runDev he h traceWrite_ok
  | powerOn => exact memOk_of_pinDev he h applyPower_ok
  | resetRelease => exact memOk_of_pinDev he h resetRelease_ok
  | sidebandReset => exact memOk_of_pinDev he h sidebandReset_ok
  | undervoltageOff | overvoltageOff | overcurrentOff => exact memOk_of_pinDev he h (switchOff_ok _ _)
  | undervoltageRestart => exact memOk_of_pinDev he h restartPower_ok
  | overtempOff => exact memOk_of_pinDev he h overheat_ok
  | powerRemoved => exact memOk_of_pinDev he h removePower_ok
  | refclkLoss => exact memOk_of_pinDev he h (clockLost_ok _)
  | refclkReturn => exact memOk_of_pinDev he h (clockBack_ok _)
  | modId | vin | iin | pin | pinPeak | pinPeakClear | tempMax | plateIn | plateOut | modStatus | modStatusWrite | vinWarnChange | coolWarnChange =>
    exact memOk_of_pinCtl he h
  | _ => exact memOk_of_runCtl he h

/-- Settles O4: on an empty queue nothing changes, and else the step is the front command, which keeps the form. -/
theorem stepKeepsMemoryForm : Obligations.StepKeepsMemoryForm := by
  intro s t hm hs
  cases hq : s.pending with
  | nil =>
    rw [step, hq] at hs
    cases hs
    exact hm
  | cons i rest =>
    rw [step, hq] at hs
    exact exec_memOk hs hm

end Sys2Proof.Machine
end

section
/-! ## Proofs: the pieces of a row of a MOVE

A row is cut by recursion on what is left of it (R176, R177): each cut takes a head of the row, and the recursion goes on where it ended. -/

namespace Sys2Proof.Machine

/-- The length of the first piece of a row of `n` bytes: up to the next 256-byte boundary of source or destination, or a double-word where
either lies in the register space (R176, R177). -/
def cutLen (a b n : Nat) : Nat :=
  if inRegSpace a || inRegSpace b then min n 8 else min n (min (256 - a % 256) (256 - b % 256))

/-- A piece starts where the one before it ended, in source and destination. -/
def Piece.Follows (x y : Piece) : Prop := y.src = (x.src + x.len) % 2 ^ 64 ∧ y.dst = (x.dst + x.len) % 2 ^ 64

/-! ### One cut -/

@[simp] theorem cutRow_zero (add : Option Nat) (fuel a b : Nat) : cutRow add fuel a b 0 = [] := by
  cases fuel with
  | zero => rfl
  | succ fuel => simp [cutRow]

theorem cutRow_succ (add : Option Nat) (fuel a b : Nat) {n : Nat} (hn : 0 < n) :
    cutRow add (fuel + 1) a b n =
      { num := 0, src := a, dst := b, len := cutLen a b n, add := add } ::
        cutRow add fuel ((a + cutLen a b n) % 2 ^ 64) ((b + cutLen a b n) % 2 ^ 64) (n - cutLen a b n) := by
  rw [cutRow, if_neg (Nat.ne_of_gt hn)]
  rfl

theorem cutLen_le (a b n : Nat) : cutLen a b n ≤ n := by
  unfold cutLen
  split
  · exact Nat.min_le_left _ _
  · exact Nat.min_le_left _ _

theorem cutLen_pos (a b : Nat) {n : Nat} (hn : 0 < n) : 0 < cutLen a b n := by
  unfold cutLen
  split
  · omega
  · omega

/-- Outside the register space a piece ends at the latest at the next boundary of its source and of its destination. -/
theorem cutLen_within {a b : Nat} (n : Nat) (ha : inRegSpace a = false) (hb : inRegSpace b = false) :
    a % 256 + cutLen a b n ≤ 256 ∧ b % 256 + cutLen a b n ≤ 256 := by
  simp only [cutLen, ha, hb, Bool.or_self, Bool.false_eq_true, if_false]
  omega

/-! ### The whole row -/

/-- With fuel for each byte, the pieces cover the row. -/
theorem cutRow_sum (add : Option Nat) : ∀ (fuel a b n : Nat), n ≤ fuel → ((cutRow add fuel a b n).map (·.len)).sum = n
  | 0, _, _, n, hf => by
    obtain rfl : n = 0 := Nat.le_zero.1 hf
    rfl
  | fuel + 1, a, b, n, hf => by
    obtain rfl | hn := Nat.eq_zero_or_pos n
    · simp
    · have hpos := cutLen_pos a b hn
      have hle := cutLen_le a b n
      rw [cutRow_succ add fuel a b hn, List.map_cons, List.sum_cons, cutRow_sum add fuel _ _ _ (by omega)]
      exact Nat.add_sub_cancel' hle

/-- Each piece is a first piece of a row that is not empty. -/
theorem len_of_mem_cutRow {add : Option Nat} {x : Piece} : ∀ {fuel a b n : Nat}, x ∈ cutRow add fuel a b n → ∃ m, 0 < m ∧ x.len = cutLen x.src x.dst m
  | 0, _, _, _, hx => absurd hx List.not_mem_nil
  | fuel + 1, a, b, n, hx => by
    obtain rfl | hn := Nat.eq_zero_or_pos n
    · simp at hx
    · rw [cutRow_succ add fuel a b hn, List.mem_cons] at hx
      obtain rfl | hx := hx
      · exact ⟨n, hn, rfl⟩
      · exact len_of_mem_cutRow hx

/-- The first piece starts where the row does. -/
theorem head_cutRow {add : Option Nat} {fuel a b n : Nat} {x : Piece} (hx : x ∈ (cutRow add fuel a b n).head?) : x.src = a ∧ x.dst = b := by
  obtain rfl | hn := Nat.eq_zero_or_pos n
  · simp at hx
  · cases fuel with
    | zero => simp [cutRow] at hx
    | succ fuel =>
      rw [cutRow_succ add fuel a b hn, List.head?_cons, Option.mem_some_iff] at hx
      subst hx
      exact ⟨rfl, rfl⟩

/-- Two pieces that stand side by side follow one another. -/
theorem follows_of_cutRow {add : Option Nat} {x y : Piece} {l₂ : List Piece} :
    ∀ {fuel a b n : Nat} {l₁ : List Piece}, cutRow add fuel a b n = l₁ ++ x :: y :: l₂ → x.Follows y
  | 0, _, _, _, l₁, hl => absurd hl.symm (List.append_ne_nil_of_right_ne_nil l₁ (List.cons_ne_nil x _))
  | fuel + 1, a, b, n, l₁, hl => by
    obtain rfl | hn := Nat.eq_zero_or_pos n
    · rw [cutRow_zero] at hl
      exact absurd hl.symm (List.append_ne_nil_of_right_ne_nil l₁ (List.cons_ne_nil x _))
    · rw [cutRow_succ add fuel a b hn] at hl
      cases l₁ with
      | nil =>
        obtain ⟨rfl, hrest⟩ := List.cons.inj hl
        exact head_cutRow (by rw [hrest]; rfl)
      | cons z l₁ =>
        obtain ⟨-, hrest⟩ := List.cons.inj hl
        exact follows_of_cutRow hrest

/-- Settles O40: what a cut takes is at least one byte, at most the row, and never past a boundary; the rest is by recursion on the fuel. -/
theorem movePiecesCoverTheRow : Obligations.MovePiecesCoverTheRow := by
  intro add a b n
  refine ⟨cutRow_sum add (n + 1) a b n (Nat.le_succ n), fun x hx => ?mem, fun hn => ?first, fun _ _ _ _ => follows_of_cutRow⟩
  case mem =>
    obtain ⟨m, hm, hlen⟩ := len_of_mem_cutRow hx
    rw [hlen]
    exact ⟨cutLen_pos _ _ hm, cutLen_within m⟩
  case first => exact ⟨_, _, cutRow_succ add n a b hn, rfl, rfl⟩

end Sys2Proof.Machine
end

section
/-! ## Proofs: commons atomics and the staging slots

An atomic is a write of one location or of one chip flag (R182, R183), and a staging slot is filled or issued (R184). -/

namespace Sys2Proof.Machine

/-! ### Atomics without a return -/

/-- The location of an atomic of `bytes` bytes, whose lowest address bits count as zero (R182). -/
def atomicKey (q : AtomicReq) (bytes : Nat) : Nat := commonsBase + q.target.toNat / bytes * bytes

/-- The device with `bytes` bytes of memory replaced by a value. -/
def Dev.putNat (key bytes x : Nat) (d : Dev) : Dev := { d with m := writeBytes d.m key (leBytes bytes x) }

/-- An atomic on data that returns nothing replaces its location by the new value, and no more (R183). -/
theorem atomicData_of_no_return {q : AtomicReq} (h : q.ret = false) (bytes : Nat) (f : Nat → Nat) (who : HeldFor) (d : Dev) :
    (atomicData bytes f q who d).1 = d.putNat (atomicKey q bytes) bytes (f (leNat (readBytes d.m (atomicKey q bytes) bytes))) := by
  simp only [atomicData, atomicReturn, h, Bool.not_false, if_true]
  rfl

/-- A command of the port acts as the operation that its OP names, while the commons are in service. -/
theorem runDev_atomicCmd (op : Nat) (a : AtomicReq) {s : State} (hr : running s.dev.c = true) (hm : mainReady s.dev.c 5 = true) :
    runDev (atomicCmd op a) s = .next (s.withDev (atomicDo op a .nobody s.dev).1) := by
  rw [runDev_running _ s hr, atomicCmd, if_pos hm]
  rfl

section
variable {s : State} {a : AtomicReq} (hr : running s.dev.c = true) (hm : mainReady s.dev.c 5 = true) (ha : a.ret = false)
include hr hm ha

/-- A command whose OP is an atomic on data replaces its location. -/
theorem runDev_atomicData {op bytes : Nat} {f : Nat → Nat} (hop : ∀ d, atomicDo op a .nobody d = atomicData bytes f a .nobody d) :
    runDev (atomicCmd op a) s =
      .next (s.withDev (s.dev.putNat (atomicKey a bytes) bytes (f (leNat (readBytes s.dev.m (atomicKey a bytes) bytes))))) := by
  rw [runDev_atomicCmd op a hr hm, hop, atomicData_of_no_return ha]

theorem exec_faddI32 : exec (.faddI32 a) s =
    .next (s.withDev (s.dev.putNat (atomicKey a 4) 4 ((leNat (readBytes s.dev.m (atomicKey a 4) 4) + a.operand.toNat) % 2 ^ 32))) :=
  runDev_atomicData hr hm ha (op := 1) (f := fun old => (old + a.operand.toNat) % 2 ^ 32) (fun _ => rfl)

theorem exec_faddI64 : exec (.faddI64 a) s =
    .next (s.withDev (s.dev.putNat (atomicKey a 8) 8 ((leNat (readBytes s.dev.m (atomicKey a 8) 8) + a.operand.toNat) % 2 ^ 64))) :=
  runDev_atomicData hr hm ha (op := 2) (f := fun old => (old + a.operand.toNat) % 2 ^ 64) (fun _ => rfl)

theorem exec_faddF32 : exec (.faddF32 a) s =
    .next (s.withDev (s.dev.putNat (atomicKey a 4) 4 (addF32 (leNat (readBytes s.dev.m (atomicKey a 4) 4)) (a.operand.toNat % 2 ^ 32)))) :=
  runDev_atomicData hr hm ha (op := 3) (f := fun old => addF32 old (a.operand.toNat % 2 ^ 32)) (fun _ => rfl)

theorem exec_cas64 : exec (.cas64 a) s =
    .next (s.withDev (s.dev.putNat (atomicKey a 8) 8
      (if leNat (readBytes s.dev.m (atomicKey a 8) 8) = a.compare.toNat then a.operand.toNat else leNat (readBytes s.dev.m (atomicKey a 8) 8)))) :=
  runDev_atomicData hr hm ha (op := 4) (f := fun old => if old = a.compare.toNat then a.operand.toNat else old) (fun _ => rfl)

/-- A command whose OP is a flag operation sets or clears its chip flag. -/
theorem runDev_atomicFlag {op : Nat} {set : Bool} (hop : ∀ d, atomicDo op a .nobody d = atomicFlag set a .nobody d) :
    runDev (atomicCmd op a) s = .next (s.withCtl (putFlag set (a.operand.toNat % 4096) s.dev.c)) := by
  rw [runDev_atomicCmd op a hr hm, hop, atomicFlag_of_no_return ha]
  rfl

end

/-- An OP that R183 does not define is discarded with a MEMORY event. -/
theorem exec_atomicOpUndefined {s : State} {op : BitVec 8} (a : AtomicReq) (hr : running s.dev.c = true) (hm : mainReady s.dev.c 5 = true)
    (hop : op.toNat % 16 = 0 ∨ 6 < op.toNat % 16) :
    exec (.atomicOpUndefined op a) s = .next (s.withCtl (raise evMemory 0x06 srcDevice atomicPort s.dev.c)) := by
  have hn : ¬(1 ≤ op.toNat % 16 ∧ op.toNat % 16 ≤ 6) := by omega
  have he : exec (.atomicOpUndefined op a) s = runDev (fun d => if 1 ≤ op.toNat % 16 ∧ op.toNat % 16 ≤ 6 then d else atomicCmd 0 a d) s := rfl
  simp only [if_neg hn] at he
  rw [he, runDev_atomicCmd 0 a hr hm]
  rfl

/-! ### Memory after an atomic -/

@[simp] theorem length_leBytes : ∀ n x : Nat, (leBytes n x).length = n
  | 0, _ => rfl
  | n + 1, x => by rw [leBytes, List.length_cons, length_leBytes n]

/-- A replaced location holds the new value. -/
theorem readBytes_putNat (key bytes x : Nat) (d : Dev) : readBytes (d.putNat key bytes x).m key bytes = leBytes bytes x := by
  have h := readBytes_writeBytes (leBytes bytes x) d.m key
  rwa [length_leBytes] at h

/-- Every byte outside a replaced location reads as before. -/
theorem storeGet_putNat_out {key bytes : Nat} (x : Nat) (d : Dev) {k : Nat} (h : k < key ∨ key + bytes ≤ k) :
    storeGet (d.putNat key bytes x).m k = storeGet d.m k :=
  storeGet_writeBytes_out _ _ _ (by rwa [length_leBytes])

/-- Settles O42: each of the four replaces its location, and reading after a write says the rest. -/
theorem atomicsChangeTheirLocationOnly : Obligations.AtomicsChangeTheirLocationOnly := by
  intro s a x hr hm ha v old hx k
  have he : exec x.1 s = .next (s.withDev (s.dev.putNat (atomicKey a x.2.1) x.2.1 x.2.2)) := by
    simp only [old, v, List.mem_cons, List.not_mem_nil, or_false] at hx
    obtain rfl | rfl | rfl | rfl := hx
    all_goals dsimp only
    · exact exec_faddI32 hr hm ha
    · exact exec_faddI64 hr hm ha
    · exact exec_faddF32 hr hm ha
    · exact exec_cas64 hr hm ha
  exact ⟨_, he, readBytes_putNat _ _ _ _, fun key hk => storeGet_putNat_out _ _ hk, rfl, rfl⟩

/-! ### The staging slots (R184) -/

/-- With the commons in service, an access of the 32 bytes of the atomic port meets it. -/
theorem locate_atomicPort {c : Ctl} {off : Nat} (hm : mainReady c 5 = true) (ho : off < 0x20) : locate c (atomicPort + off) = .atomic off := by
  have hh : hbmEnd c.fuses.grade ≤ 0xA000000000 := by cases c.fuses.grade <;> decide
  have hp : atomicPort = 0x20004001000 := rfl
  have hf : flagBase = 0x20004000000 := rfl
  have hc : commonsBase = 0x20000000000 := rfl
  have he : millEnd = 0x18000000000 := rfl
  unfold locate
  rw [if_neg (by omega), if_neg (by omega), if_neg (by omega), if_neg (by omega), if_pos (by omega), if_pos hm, Nat.add_sub_cancel_left]

section
variable {m off width : Nat} {v : Dword} {d : Dev}

/-- A control processor's store at the atomic port is a write of its own slot. -/
theorem cpStore_atomicPort (hm : mainReady d.c 5 = true) (ho : off < 0x20) (i : Nat) :
    cpStore i (0xFFFF * 2 ^ 48 + atomicPort + off) width v d = (slotWrite (1 + i) off width v .nobody d).1 := by
  have hp : atomicPort = 0x20004001000 := rfl
  have hd : (0xFFFF * 2 ^ 48 + atomicPort + off) / 2 ^ 48 = 0xFFFF := by omega
  have ha : (0xFFFF * 2 ^ 48 + atomicPort + off) % 2 ^ 48 = atomicPort + off := by omega
  simp only [cpStore, hd, ha, targetOf, if_true, locate_atomicPort hm ho]

/-- Each master that reaches the port writes its own slot. -/
theorem slotFill_of_ready (h3 : m < 3) (hs : m = 0 → hostServes d.c = true) (hm : mainReady d.c 5 = true) (ho : off < 0x20) :
    slotFill m off width v d = (slotWrite m off width v .nobody d).1 := by
  obtain rfl | h0 := Nat.eq_zero_or_pos m
  · simp [slotFill, hs rfl, hm]
  · have h1 : 1 + (m - 1) = m := by omega
    rw [slotFill, if_neg (Nat.ne_of_gt h0), if_pos h3, if_pos hm, cpStore_atomicPort hm ho, h1]

/-- A double-word at 0x00, 0x08 or 0x10 fills the slot. -/
theorem slotWrite_fill (who : HeldFor) (ho : off ∈ [0x00, 0x08, 0x10]) :
    (slotWrite m off 8 v who d).1 = onCtl (onHost (fun h => { h with slots := h.slots.put (4 * m + off / 8) v.toNat })) d := by
  have ho' : off = 0x00 ∨ off = 0x08 ∨ off = 0x10 := by simpa using ho
  rw [slotWrite, if_neg (not_not_intro rfl), if_pos ho']

/-- A write of another width or offset performs nothing and raises a MEMORY event. -/
theorem slotWrite_discard (who : HeldFor) (h : width ≠ 8 ∨ off ∉ [0x00, 0x08, 0x10, 0x18]) :
    (slotWrite m off width v who d).1 = onCtl (raise evMemory 0x05 srcDevice (atomicPort + off)) d := by
  by_cases hw : width = 8
  · have ho : off ∉ [0x00, 0x08, 0x10, 0x18] := h.resolve_left (not_not_intro hw)
    simp only [List.mem_cons, List.not_mem_nil, or_false, not_or] at ho
    obtain ⟨h0, h8, h10, h18⟩ := ho
    rw [slotWrite, if_neg (not_not_intro hw), if_neg (by simp only [h0, h8, h10, or_self, not_false_eq_true]), if_neg h18]
    rfl
  · rw [slotWrite, if_pos hw]
    rfl

end

section
variable {s : State} {m off width : Nat} {v : Dword} (hr : running s.dev.c = true)
include hr

/-- A host that the function does not serve fills nothing. -/
theorem exec_atomicSlotFill_unserved (hs : hostServes s.dev.c = false) : exec (.atomicSlotFill 0 off width v) s = .next s := by
  have hf : slotFill 0 off width v s.dev = s.dev := by simp [slotFill, hs]
  exact (runDev_running _ s hr).trans (by rw [hf])

/-- With the commons out of service the host finds the port unmapped (R171, R428). -/
theorem exec_atomicSlotFill_host_unmapped (hs : hostServes s.dev.c = true) (hm : mainReady s.dev.c 5 = false) :
    exec (.atomicSlotFill 0 off width v) s = .next (s.withCtl
      (raise evMemory 0x01 srcDevice (atomicPort + off) (cause 19 (setB R.PORTHOLE_STATUS.UNMAPPED true s.dev.c)))) := by
  have hf : slotFill 0 off width v s.dev =
      onCtl (fun c => unmappedEvent (atomicPort + off) (portholeFlag R.PORTHOLE_STATUS.UNMAPPED c)) s.dev := by simp [slotFill, hs, hm]
  exact (runDev_running _ s hr).trans (by rw [hf]; rfl)

/-- With the commons out of service a control processor finds the port unmapped (R171, R428). -/
theorem exec_atomicSlotFill_cp_unmapped (h0 : 0 < m) (h3 : m < 3) (hm : mainReady s.dev.c 5 = false) :
    exec (.atomicSlotFill m off width v) s = .next (s.withCtl (raise evMemory 0x01 srcDevice (atomicPort + off) s.dev.c)) := by
  have hf : slotFill m off width v s.dev = onCtl (unmappedEvent (atomicPort + off)) s.dev := by simp [slotFill, Nat.ne_of_gt h0, h3, hm]
  exact (runDev_running _ s hr).trans (by rw [hf]; rfl)

/-- Where the master reaches the port, a fill is a write of its slot. -/
theorem exec_atomicSlotFill_of_ready (h3 : m < 3) (hs : m = 0 → hostServes s.dev.c = true) (hm : mainReady s.dev.c 5 = true) (ho : off < 0x20) :
    exec (.atomicSlotFill m off width v) s = .next (s.withDev (slotWrite m off width v .nobody s.dev).1) :=
  (runDev_running _ s hr).trans (by rw [slotFill_of_ready h3 hs hm ho]; rfl)

end

/-- Settles O41: an atomic without RET is one write of its location or its flag, and a fill is a write of the master's slot, by its offset.
In the frozen statement the clauses on an unserved host and on commons out of service stand to the left of the arrow, as premises, since `∧` binds
tighter than `→`; they hold, by the three lemmas `exec_atomicSlotFill_unserved`, `_host_unmapped` and `_cp_unmapped`. -/
theorem atomicsAndStagingSlots : Obligations.AtomicsAndStagingSlots := by
  refine ⟨fun s a op hr hm ha => ⟨exec_faddI32 hr hm ha, exec_faddI64 hr hm ha, exec_faddF32 hr hm ha, exec_cas64 hr hm ha,
    runDev_atomicFlag hr hm ha (op := 5) (set := true) (fun _ => rfl), runDev_atomicFlag hr hm ha (op := 6) (set := false) (fun _ => rfl),
    exec_atomicOpUndefined a hr hm⟩, fun s m off width v hr h3 ho => ?slots⟩
  rintro c slots slot ⟨_, _, _, hs⟩ hm
  refine ⟨fun hoff => ?fill, ?issue, fun h => ?discard⟩
  case fill =>
    rw [exec_atomicSlotFill_of_ready hr h3 hs hm ho, slotWrite_fill _ hoff]
    rfl
  case issue =>
    rw [exec_atomicSlotFill_of_ready hr h3 hs hm (by omega)]
    rfl
  case discard =>
    rw [exec_atomicSlotFill_of_ready hr h3 hs hm ho, slotWrite_discard _ h]
    rfl

end Sys2Proof.Machine
end

section
/-! ## Proofs: the porthole

A request of the host that finds nothing of the host's before it is accepted by the port's first step and carried out by its second (R187, R450). -/

namespace Sys2Proof.Machine

/-! ### Events leave the host's requests alone -/

/-- The host's requests, accepted and held back, are as they were. -/
def SameRequests (c t : Ctl) : Prop := t.host.ops = c.host.ops ∧ t.host.backlog = c.host.backlog

theorem SameRequests.trans {a b c : Ctl} (h : SameRequests a b) (k : SameRequests b c) : SameRequests a c :=
  ⟨k.1.trans h.1, k.2.trans h.2⟩

theorem msixSend_sameRequests (v : Nat) (c : Ctl) : SameRequests c (msixSend v c) := by
  unfold msixSend
  split
  · exact ⟨rfl, rfl⟩
  · exact ⟨rfl, rfl⟩

theorem cause_sameRequests (v : Nat) (c : Ctl) : SameRequests c (cause v c) := by
  unfold cause
  split
  · exact ⟨rfl, rfl⟩
  · extract_lets c'
    split
    · exact msixSend_sameRequests v c'
    · exact ⟨rfl, rfl⟩

theorem evtLevel_sameRequests (c : Ctl) : SameRequests c (evtLevel c) := by
  unfold evtLevel
  split
  · exact cause_sameRequests 0 c
  · exact ⟨rfl, rfl⟩

theorem eventPush_sameRequests (e : Event) (c : Ctl) : SameRequests c (eventPush e c) := by
  unfold eventPush
  split
  · exact ⟨rfl, rfl⟩
  · have hq : SameRequests c (onHost (fun h => { h with evq := h.evq ++ [e] }) c) := ⟨rfl, rfl⟩
    exact (hq.trans (cause_sameRequests (e.dw0.toNat % 16) _)).trans (evtLevel_sameRequests _)

theorem raise_sameRequests (cls sub src detail : Nat) (c : Ctl) : SameRequests c (raise cls sub src detail c) := by
  unfold raise raiseAt
  extract_lets e
  split
  · exact ⟨rfl, rfl⟩
  · exact eventPush_sameRequests e c

theorem portholeFlag_sameRequests (f : Fld) (c : Ctl) : SameRequests c (portholeFlag f c) := cause_sameRequests 19 (setB f true c)

/-- An access of the wrong form is reported without touching what the host has asked for. -/
theorem portholeBad_sameRequests (off : Nat) (c : Ctl) : SameRequests c (portholeBad off c) :=
  (portholeFlag_sameRequests _ c).trans (raise_sameRequests _ _ _ _ _)

/-! ### A request that is alone -/

/-- Nothing of the host's waits. -/
def PortEmpty (c : Ctl) : Prop := c.host.ops = [] ∧ c.host.backlog = []

theorem PortEmpty.quiet {c : Ctl} (h : PortEmpty c) : PortQuiet c :=
  ⟨h.2, by rw [h.1]; decide, by rw [h.1]; exact fun _ ho => absurd ho List.not_mem_nil⟩

/-- The control state whose accepted requests are `l`. -/
def withOps (l : List PortOp) (c : Ctl) : Ctl := { c with host := { c.host with ops := l } }

/-- The device whose only request of the host's is `o`. -/
abbrev withOnly (o : PortOp) (d : Dev) : Dev := onCtl (withOps [o]) d

/-- The first porthole access of the host's. -/
def firstOp (isRead : Bool) (addr width : Nat) (data : Dword) : PortOp :=
  { isRead := isRead, bar0 := false, addr := addr, width := width, data := data, issued := false, unsup := false, num := 0 }

theorem withOps_self {l : List PortOp} {c : Ctl} (h : c.host.ops = l) : withOps l c = c := by
  subst h
  rfl

/-- A request joins those that the link's credits hold back. -/
def holdBack (q : HostReq) (c : Ctl) : Ctl := onHost (fun h => { h with backlog := h.backlog ++ [q] }) c

theorem hostRequest_of_reaches {d : Dev} (q : HostReq) (hr : hostReaches d.c = true) : hostRequest q d = portRun (onCtl (holdBack q) d) := by
  rw [hostRequest, if_pos hr]
  rfl

theorem backlog_erase_holdBack {c : Ctl} (h : c.host.backlog = []) (q : HostReq) :
    onHost (fun h => { h with backlog := h.backlog.erase q }) (holdBack q c) = c := by
  have hb : (c.host.backlog ++ [q]).erase q = c.host.backlog := by simp [h]
  simp only [holdBack, onHost, hb]

theorem backlog_erase {c : Ctl} (h : c.host.backlog = []) (q : HostReq) : onHost (fun h => { h with backlog := h.backlog.erase q }) c = c := by
  have hb : c.host.backlog.erase q = c.host.backlog := by simp [h]
  simp only [onHost, hb]

/-- A request that is alone finds room, and is accepted. -/
theorem portStep_accept {d : Dev} {q : HostReq} (ho : d.c.host.ops = []) (hb : d.c.host.backlog = [q]) : portStep d = onCtl (hostAccept q) d := by
  have hroom : hasRoom q.isRead d.c.host = true := by
    cases hq : q.isRead with
    | true => simp [hasRoom, ho, readMax]
    | false => simp [hasRoom, ho, writeMax]
  simp [portStep, ho, opNext, hostNext, hb, hroom]

/-- With one request held back and none accepted, the port goes on for two steps. -/
theorem portRun_of_one {d : Dev} {q : HostReq} (ho : d.c.host.ops = []) (hb : d.c.host.backlog = [q]) : portRun d = portStep (portStep d) := by
  rw [portRun, ho, hb]
  rfl

/-- The port takes a request that is alone in its first step, and goes on with it in its second. -/
theorem hostRequest_alone {d : Dev} (q : HostReq) (hr : hostReaches d.c = true) (he : PortEmpty d.c) :
    hostRequest q d = portStep (onCtl (hostAccept q) d) := by
  obtain ⟨hops, hback⟩ := he
  have hb : (holdBack q d.c).host.backlog = [q] := by simp [holdBack, hback]
  have ha : hostAccept q (holdBack q d.c) = hostAccept q d.c := by
    simp only [hostAccept, backlog_erase_holdBack hback, backlog_erase hback]
  have h1 : portStep (onCtl (holdBack q) d) = onCtl (hostAccept q) (onCtl (holdBack q) d) := portStep_accept hops hb
  have h2 : portRun (onCtl (holdBack q) d) = portStep (portStep (onCtl (holdBack q) d)) := portRun_of_one hops hb
  rw [hostRequest_of_reaches q hr, h2, h1]
  simp only [onCtl, ha]

/-- The only request of the host's is carried out next. -/
theorem portStep_single {d : Dev} {x : PortOp} (h : d.c.host.ops = [x]) (hi : x.issued = false) : portStep d = opServe x d := by
  simp [portStep, h, opNext, opReady, hi]

section
variable {c : Ctl} (h3 : c.host.d3 = false) (he : PortEmpty c)
include he

/-- The first request joins none. -/
theorem portJoin_first (isRead : Bool) (addr width : Nat) (data : Dword) :
    portJoin isRead false false addr width data c = withOps [firstOp isRead addr width data] c := by
  obtain ⟨hops, hback⟩ := he
  simp only [portJoin, onHost, portNum, hops]
  rfl

include h3

/-- A porthole access of one of the two forms joins the requests (R187). -/
theorem hostAccept_of_form (isRead : Bool) {off width : Nat} (data : Dword) (hf : portholeForm off width = true) :
    hostAccept { isRead := isRead, bar0 := false, off := off, width := width, data := data } c =
      withOps [firstOp isRead (portholeAddr c off) width data] c := by
  simp only [hostAccept, backlog_erase he.2, h3, hf, Bool.false_eq_true, if_false, if_true, Bool.or_true]
  exact portJoin_first he _ _ _ _

/-- A porthole read of another form is reported, and joins them to be answered zero. -/
theorem hostAccept_bad_read {off width : Nat} (data : Dword) (hf : portholeForm off width = false) :
    hostAccept { isRead := true, bar0 := false, off := off, width := width, data := data } c =
      withOps [firstOp true (portholeAddr c off) 0 data] (portholeBad off c) := by
  have hs := portholeBad_sameRequests off c
  simp only [hostAccept, backlog_erase he.2, h3, hf, Bool.false_eq_true, if_false, if_true, Bool.or_false]
  exact portJoin_first ⟨hs.1.trans he.1, hs.2.trans he.2⟩ _ _ _ _

/-- A porthole write of another form is reported and discarded. -/
theorem hostAccept_bad_write {off width : Nat} (data : Dword) (hf : portholeForm off width = false) :
    hostAccept { isRead := false, bar0 := false, off := off, width := width, data := data } c = portholeBad off c := by
  simp only [hostAccept, backlog_erase he.2, h3, hf, Bool.false_eq_true, if_false, Bool.or_false]

end

/-! ### Accesses of the two forms -/

theorem portholeForm_of {off width : Nat} (hw : width = 4 ∨ width = 8) (ho : off % width = 0) : portholeForm off width = true := by
  obtain rfl | rfl := hw
  · simp [portholeForm, ho]
  · simp [portholeForm, ho]

/-- Where an address lies does not depend on the host's requests. -/
theorem locate_withOps (l : List PortOp) (c : Ctl) (a : Nat) : locate (withOps l c) a = locate c a := by
  have hf : (withOps l c).fuses = c.fuses := rfl
  have hm : mainReady (withOps l c) = mainReady c := rfl
  have hc : coreReady (withOps l c) = coreReady c := rfl
  have hp : physCore (withOps l c) = physCore c := rfl
  have hs : hbmStack (withOps l c) = hbmStack c := rfl
  simp only [locate, hf, hm, hc, hp, hs]

/-- What a porthole write of an address that lies at `place` performs (R184, R187). -/
def portPerform (place : Place) (o : PortOp) (d : Dev) : Dev × Ended :=
  match place with
  | .atomic off => slotWrite 0 off o.width o.data (.porthole o.num) d
  | _ => writeHere (o.addr % 2 ^ 48) (leBytes o.width o.data.toNat) (.porthole o.num) d

/-- What the end of a porthole write at this device means for the port: it has completed, or a stack holds it. -/
def portEnd (n : Nat) (r : Dev × Ended) : Dev :=
  match r.2 with
  | .later _ => onCtl (opIssue n) r.1
  | .now s => onCtl (fun c => portDone n (if s = 1 then portholeFlag R.PORTHOLE_STATUS.UNMAPPED c else c)) r.1

theorem portEnd_of_now {n st : Nat} {r : Dev × Ended} (h : r.2 = .now st) :
    portEnd n r = onCtl (fun c => portDone n (if st = 1 then portholeFlag R.PORTHOLE_STATUS.UNMAPPED c else c)) r.1 := by
  rw [portEnd, h]

theorem portEnd_of_later {n st : Nat} {r : Dev × Ended} (h : r.2 = .later st) : portEnd n r = onCtl (opIssue n) r.1 := by
  rw [portEnd, h]

section
variable {o : PortOp} {d : Dev}

/-- A porthole read of this device is answered, zero with UNMAPPED where nothing answers. -/
theorem portholeRead_of_here (ht : targetOf d.c (o.addr / 2 ^ 48) = .here) :
    portholeRead o d =
      (let r := readHere false (o.addr % 2 ^ 48) o.width d
       onCtl (fun c => readDone o.num (BitVec.ofNat 64 (leNat r.1)) (if r.2.1 then c else portholeFlag R.PORTHOLE_STATUS.UNMAPPED c)) r.2.2) := by
  rw [portholeRead, ht]

theorem portholeRead_of_peer {n : Nat} (ht : targetOf d.c (o.addr / 2 ^ 48) = .peer n) :
    portholeRead o d = onCtl (fun c => issueRead n o.addr o.width (.portRead o.width) (opIssue o.num c)) d := by
  rw [portholeRead, ht]

theorem portholeRead_of_nowhere (ht : targetOf d.c (o.addr / 2 ^ 48) = .nowhere) :
    portholeRead o d = onCtl (fun c => readDone o.num 0 (notSent (o.addr / 2 ^ 48) c)) d := by
  rw [portholeRead, ht]

/-- A porthole write of this device is performed where its address lies, and completes or is under way. -/
theorem portholeWrite_of_here {place : Place} (ht : targetOf d.c (o.addr / 2 ^ 48) = .here) (hl : locate d.c (o.addr % 2 ^ 48) = place) :
    portholeWrite o d = portEnd o.num (portPerform place o d) := by
  subst hl
  rw [portholeWrite, ht]
  rfl

theorem portholeWrite_of_peer {n : Nat} (ht : targetOf d.c (o.addr / 2 ^ 48) = .peer n) :
    portholeWrite o d =
      onCtl (fun c => issueWrite n o.addr (leBytes o.width o.data.toNat) (.write (.porthole o.num)) (opIssue o.num c)) d := by
  rw [portholeWrite, ht]

theorem portholeWrite_of_nowhere (ht : targetOf d.c (o.addr / 2 ^ 48) = .nowhere) :
    portholeWrite o d = onCtl (fun c => portDone o.num (notSent (o.addr / 2 ^ 48) c)) d := by
  rw [portholeWrite, ht]

end

/-! ### An access that is alone, as a command -/

section
variable {s : State} (hr : running s.dev.c = true) (hs : hostReaches s.dev.c = true) (h3 : s.dev.c.host.d3 = false) (he : PortEmpty s.dev.c)
include hr hs h3 he

/-- An access of one of the two forms is carried out at once. -/
theorem runDev_porthole_of_form (isRead : Bool) {off width : Nat} (v : Dword) (hw : width = 4 ∨ width = 8) (ho : off % width = 0) :
    runDev (hostRequest { isRead := isRead, bar0 := false, off := off, width := width, data := v }) s =
      .next (s.withDev (opServe (firstOp isRead (portholeAddr s.dev.c off) width v)
        (withOnly (firstOp isRead (portholeAddr s.dev.c off) width v) s.dev))) := by
  rw [runDev_running _ s hr, hostRequest_alone _ hs he]
  simp only [onCtl, hostAccept_of_form h3 he isRead v (portholeForm_of hw ho)]
  rw [portStep_single rfl rfl]
  rfl

theorem exec_portholeRead_of_form {off width a : Nat} (ha : portholeAddr s.dev.c off = a) (hw : width = 4 ∨ width = 8) (ho : off % width = 0) :
    exec (.portholeRead off width) s =
      .next (s.withDev (portholeRead (firstOp true a width 0) (withOnly (firstOp true a width 0) s.dev))) := by
  subst ha
  have hw0 : (width == 0) = false := by
    obtain rfl | rfl := hw
    · rfl
    · rfl
  refine (runDev_porthole_of_form hr hs h3 he true 0 hw ho).trans ?_
  simp only [opServe, firstOp, hw0, Bool.false_eq_true, if_false, if_true, Bool.and_false]

theorem exec_portholeWrite_of_form {off width a : Nat} (v : Dword) (ha : portholeAddr s.dev.c off = a) (hw : width = 4 ∨ width = 8)
    (ho : off % width = 0) :
    exec (.portholeWrite off width v) s =
      .next (s.withDev (portholeWrite (firstOp false a width v) (withOnly (firstOp false a width v) s.dev))) := by
  subst ha
  refine (runDev_porthole_of_form hr hs h3 he false v hw ho).trans ?_
  simp only [opServe, firstOp, Bool.false_eq_true, if_false, Bool.false_and]

/-- A read of another form is reported and answered zero (R187). -/
theorem exec_portholeRead_bad {off width : Nat} (hf : portholeForm off width = false) :
    exec (.portholeRead off width) s = .next (s.withCtl (hostAnswer 0 (portholeBad off s.dev.c))) := by
  have hops : (portholeBad off s.dev.c).host.ops = [] := (portholeBad_sameRequests off s.dev.c).1.trans he.1
  have hd : portDone 0 (withOps [firstOp true (portholeAddr s.dev.c off) 0 0] (portholeBad off s.dev.c)) = portholeBad off s.dev.c :=
    withOps_self hops
  refine (runDev_running _ s hr).trans ?_
  rw [hostRequest_alone _ hs he]
  simp only [onCtl, hostAccept_bad_read h3 he 0 hf]
  rw [portStep_single rfl rfl]
  simp only [opServe, firstOp, onCtl, readDone] at hd ⊢
  simp only [Bool.false_eq_true, if_false, if_true, beq_self_eq_true, Bool.and_self, hd]
  rfl

/-- A write of another form is reported and discarded (R187). -/
theorem exec_portholeWrite_bad {off width : Nat} (v : Dword) (hf : portholeForm off width = false) :
    exec (.portholeWrite off width v) s = .next (s.withCtl (portholeBad off s.dev.c)) := by
  have hk := portholeBad_sameRequests off s.dev.c
  have hi : portStep (onCtl (portholeBad off) s.dev) = onCtl (portholeBad off) s.dev :=
    portStep_idle (fun o ho => by rw [onCtl_c, hk.1.trans he.1] at ho; exact absurd ho List.not_mem_nil) (hk.2.trans he.2)
  refine (runDev_running _ s hr).trans ?_
  rw [hostRequest_alone _ hs he]
  simp only [onCtl, hostAccept_bad_write h3 he v hf] at hi ⊢
  rw [hi]
  rfl

end

/-! ### Requests that are held back -/

theorem opReady_holdBack (q : HostReq) (c : Ctl) (before : List PortOp) (x : PortOp) : opReady (holdBack q c) before x = opReady c before x := rfl

/-- What waits for room does not change which request is ready. -/
theorem opNext_holdBack (q : HostReq) (c : Ctl) : ∀ l before : List PortOp, opNext (holdBack q c) before l = opNext c before l
  | [], _ => rfl
  | x :: xs, before => by rw [opNext, opNext, opReady_holdBack, opNext_holdBack q c xs]

/-- With no request that is ready, one that finds no room is held back. -/
theorem hostRequest_holdBack {q : HostReq} {d : Dev} (hr : hostReaches d.c = true) (ho : opNext d.c [] d.c.host.ops = none)
    (hn : hostNext (holdBack q d.c).host = none) : hostRequest q d = onCtl (holdBack q) d := by
  have hi : portStep (onCtl (holdBack q) d) = onCtl (holdBack q) d := by
    have ho' : opNext (holdBack q d.c) [] (holdBack q d.c).host.ops = none := (opNext_holdBack q d.c _ []).trans ho
    simp only [portStep, onCtl_c, ho', hn]
  rw [hostRequest_of_reaches q hr]
  exact forN_fixed _ (fun _ => hi)

theorem hostReaches_of_serves {c : Ctl} (h : hostServes c = true) : hostReaches c = true ∧ c.host.d3 = false := by
  simpa [hostServes] using h

/-- Settles O45: an access that is alone is accepted and carried out, and what carrying it out does is a branch of the read or the write
by the device that its address names. -/
theorem portholeAccesses : Obligations.PortholeAccesses := by
  intro s off width v o hr c addr bad unmapped op joined quiet more rd wr aRead
  refine ⟨fun hq hw ho => ?form, fun ⟨hs, he⟩ hf => ?bad, fun hs h3 hops hback => ⟨?d3Read, ?d3Write⟩, fun hs => ⟨?awayRead, ?awayWrite⟩,
    fun hs hn => ⟨fun hh => ?heldRead, fun hh => ?heldWrite⟩, fun h => ?timeout, fun h => ?noRead⟩
  case form =>
    obtain ⟨hserves, he⟩ := hq
    obtain ⟨hs, h3⟩ := hostReaches_of_serves hserves
    have hrd := exec_portholeRead_of_form (a := addr) hr hs h3 he rfl hw ho
    have hwr := exec_portholeWrite_of_form (a := addr) hr hs h3 he v rfl hw ho
    refine ⟨fun ht => ⟨?readHere, ?writeHere⟩, fun n ht => ⟨?readPeer, ?writePeer⟩, fun ht => ⟨?readNowhere, ?writeNowhere⟩⟩
    case readHere => exact hrd.trans (by rw [portholeRead_of_here ht]; rfl)
    case writeHere =>
      -- The statement's own `match` and that of `portPerform` are compared place by place.
      generalize hl : locate c (addr % 2 ^ 48) = place
      intro w
      have hp : portPerform place (firstOp false addr width v) (withOnly (firstOp false addr width v) s.dev) = w := by
        cases place
        all_goals rfl
      have hl' : locate (withOnly (firstOp false addr width v) s.dev).c (addr % 2 ^ 48) = place := (locate_withOps _ _ _).trans hl
      have hx : portholeWrite (firstOp false addr width v) (withOnly (firstOp false addr width v) s.dev) = portEnd 0 w := by
        rw [← hp]
        exact portholeWrite_of_here ht hl'
      exact ⟨fun st hst => by rw [hwr, hx, portEnd_of_now hst]; rfl, fun st hst => by rw [hwr, hx, portEnd_of_later hst]⟩
    case readPeer => exact hrd.trans (by rw [portholeRead_of_peer ht]; rfl)
    case writePeer => exact hwr.trans (by rw [portholeWrite_of_peer ht]; rfl)
    case readNowhere => exact hrd.trans (by rw [portholeRead_of_nowhere ht]; rfl)
    case writeNowhere => exact hwr.trans (by rw [portholeWrite_of_nowhere ht]; rfl)
  case bad =>
    obtain ⟨hreach, h3⟩ := hostReaches_of_serves hs
    exact ⟨exec_portholeRead_bad hr hreach h3 he hf, exec_portholeWrite_bad hr hreach h3 he v hf⟩
  case d3Read => exact (runDev_running _ s hr).trans (by rw [hostRequest_d3_read _ (PortEmpty.quiet ⟨hops, hback⟩) hs h3 rfl]; rfl)
  case d3Write => exact (runDev_running _ s hr).trans (by rw [hostRequest_d3_write _ (PortEmpty.quiet ⟨hops, hback⟩) hs h3 rfl]; rfl)
  case awayRead => exact (runDev_running _ s hr).trans (by rw [hostRequest, hs]; rfl)
  case awayWrite => exact (runDev_running _ s hr).trans (by rw [hostRequest, hs]; rfl)
  case heldRead => exact (runDev_running _ s hr).trans (by rw [hostRequest_holdBack hs hn hh]; rfl)
  case heldWrite => exact (runDev_running _ s hr).trans (by rw [hostRequest_holdBack hs hn hh]; rfl)
  case timeout => exact (runDev_running _ s hr).trans (by rw [portholeTimeout, h]; rfl)
  case noRead => exact (runDev_running _ s hr).trans (by rw [portholeTimeout, h])

end Sys2Proof.Machine
end

section
/-! ## Proofs: the snapshot job and the mirror drain

Each command is a test and one action (R210, R211, R355 to R358); a lemma states the action where the test holds, and another that nothing
is done where it fails. -/

namespace Sys2Proof.Machine

/-! ### The snapshot job (R210, R211, R355, R356) -/

/-- The copy loop is past line w: lines copied ahead of it need no note behind it (R210). -/
def snapPassed (w : Nat) (c : Ctl) : Ctl :=
  setF R.SLU_SNAP.W (w + 1) (onSlu (fun x => { x with copied := x.copied.filter (fun i => decide (w < i)) }) c)

/-- The snapshot job of step u has ended, its image valid unless a granule was uncorrectable (R211). -/
def snapEnded (u : Nat) (bad : Bool) : Dev → Dev :=
  onCtl (fun c => onSnap (fun x => { x with done := if bad then x.done else some u, whole := some u })
    (setB R.SLU_STATUS.SNAP_VALID (!bad) (setB R.SLU_STATUS.SNAP_ACTIVE false c)))

section
variable {d : Dev}

theorem snapLine_of_active (ha : getB d.c R.SLU_STATUS.SNAP_ACTIVE = true) (hw : getF d.c R.SLU_SNAP.W < getF d.c R.SLU_SNAP.LINES) :
    snapLine d = onCtl (snapPassed (getF d.c R.SLU_SNAP.W))
      (if d.c.slu.copied.contains (getF d.c R.SLU_SNAP.W) then d else copyLine (getF d.c R.SLU_SNAP.W) d) := by
  have goes : (!getB d.c R.SLU_STATUS.SNAP_ACTIVE || decide (getF d.c R.SLU_SNAP.LINES ≤ getF d.c R.SLU_SNAP.W)) = false := by
    rw [ha, decide_eq_false (Nat.not_le.2 hw)]
    rfl
  simp only [snapLine, goes, Bool.false_eq_true, if_false]
  rfl

/-- Without a running job no line is copied. -/
theorem snapLine_of_inactive (ha : getB d.c R.SLU_STATUS.SNAP_ACTIVE = false) : snapLine d = d := if_pos (by rw [ha]; rfl)

/-- With every line copied and every slot read out, the buffer goes to STATE_L; a good image starts its generation (R361). -/
theorem snapComplete_of_done (hl : snapLinesDone d.c = true) (hd : d.c.snap.dumps = []) :
    snapComplete d =
      if (copyState d).c.slu.snapBad then snapEnded (getF (copyState d).c R.SLU_SNAP_STEP.STEP) true (copyState d)
      else tailStart (getF (copyState d).c R.SLU_SNAP_STEP.STEP) (snapEnded (getF (copyState d).c R.SLU_SNAP_STEP.STEP) false (copyState d)) := by
  have goes : (!snapLinesDone d.c || !d.c.snap.dumps.isEmpty) = false := by
    rw [hl, hd]
    rfl
  simp only [snapComplete, goes, Bool.false_eq_true, if_false]
  cases (copyState d).c.slu.snapBad with
  | true => rfl
  | false => rfl

/-- Without a running job there is none to complete. -/
theorem snapComplete_of_inactive (ha : getB d.c R.SLU_STATUS.SNAP_ACTIVE = false) : snapComplete d = d :=
  if_pos (by rw [snapLinesDone, ha]; rfl)

end

/-! ### The sender of the mirror drain (R357, R358) -/

section
variable {d : Dev} {x : Drain} (hx : d.c.snap.drain = some x)
include hx

theorem mirrorSend_of_ready (hn : x.next < x.total) (ho : x.out.length < 64) (he : extentHere d.c x.step x.next = true) :
    mirrorSend d = drainExtent x x.next (onCtl (onDrain (fun y => { y with next := x.next + 1 })) d) := by
  simp only [mirrorSend, hx]
  exact if_pos ⟨hn, ho, he⟩

/-- With 64 extents unacknowledged none is sent. -/
theorem mirrorSend_of_full (ho : 64 ≤ x.out.length) : mirrorSend d = d := by
  simp only [mirrorSend, hx]
  exact if_neg (fun ⟨_, room, _⟩ => Nat.not_lt.2 ho room)

variable {e t : Nat} (he : x.out.look e = some t)
include he

theorem mirrorResend_of_due (ht : t ≤ d.c.ticks) : mirrorResend e d = drainExtent x e d := by
  simp only [mirrorResend, hx, he, if_pos ht]

/-- Before its deadline an extent is not sent again. -/
theorem mirrorResend_of_waiting (ht : d.c.ticks < t) : mirrorResend e d = d := by
  simp only [mirrorResend, hx, he, if_neg (Nat.not_le.2 ht)]

end

/-! ### The commands -/

section
variable {s : State} (hr : running s.dev.c = true)
include hr

theorem exec_snapshotLineCopy : exec .snapshotLineCopy s = .next (s.withDev (snapLine s.dev)) := runDev_running _ s hr

theorem exec_snapshotComplete : exec .snapshotComplete s = .next (s.withDev (snapComplete s.dev)) := runDev_running _ s hr

theorem exec_captureReadoutDone : exec .captureReadoutDone s = .next (s.withDev (readoutDone s.dev)) := runDev_running _ s hr

theorem exec_mirrorExtentSend : exec .mirrorExtentSend s = .next (s.withDev (mirrorSend s.dev)) := runDev_running _ s hr

theorem exec_mirrorExtentResend (e : Nat) : exec (.mirrorExtentResend e) s = .next (s.withDev (mirrorResend e s.dev)) :=
  runDev_running _ s hr

end

/-- Settles O52: each command is a function of the device, whose two sides are the lemmas above. -/
theorem snapshotSteps : Obligations.SnapshotSteps := by
  intro s x e t hr c w
  refine ⟨fun ha hw => ?line, fun ha => ⟨?noLine, ?noJob⟩, fun hl hd => ?complete, ?readout, fun hx hn ho he => ?send, fun hx ho => ?full,
    fun hx he ht => ?resend, fun hx he ht => ?waiting⟩
  case line =>
    rw [exec_snapshotLineCopy hr, snapLine_of_active ha hw]
    rfl
  case noLine =>
    rw [exec_snapshotLineCopy hr, snapLine_of_inactive ha]
    rfl
  case noJob =>
    rw [exec_snapshotComplete hr, snapComplete_of_inactive ha]
    rfl
  case complete =>
    rw [exec_snapshotComplete hr, snapComplete_of_done hl hd]
    rfl
  case readout =>
    rw [exec_captureReadoutDone hr]
    rfl
  case send => rw [exec_mirrorExtentSend hr, mirrorSend_of_ready hx hn ho he]
  case full =>
    rw [exec_mirrorExtentSend hr, mirrorSend_of_full hx ho]
    rfl
  case resend => rw [exec_mirrorExtentResend hr, mirrorResend_of_due hx he ht]
  case waiting =>
    rw [exec_mirrorExtentResend hr, mirrorResend_of_waiting hx he ht]
    rfl

end Sys2Proof.Machine
end

section
/-! ## Proofs: the sluice

A channel move finds its place by three questions in turn (R213, R214); a unit of a copy loop is copied or waits (R209, R401); the other
commands are a test and one action (R199, R215, R216). -/

namespace Sys2Proof.Machine

/-! ### Commands that wait for READY (R444) -/

/-- A control command of a unit that is READY, while the module runs. -/
theorem runCtl_whenReady (f : Ctl → Ctl) {s : State} {b : Nat} (hr : running s.dev.c = true) (hm : mainReady s.dev.c b = true) :
    runCtl (whenReady b f) s = .next (s.withCtl (f s.dev.c)) := by
  rw [runCtl_running _ s hr, whenReady, if_pos hm]
  rfl

section
variable {s : State} (hr : running s.dev.c = true)
include hr

theorem exec_moveJobUnitCopy_channel : exec (.moveJobUnitCopy .channel) s = .next (s.withDev (chCopy s.dev)) := runDev_running _ s hr

theorem exec_moveJobUnitCopy_rekey : exec (.moveJobUnitCopy .rekey) s = .next (s.withDev (rekeyCopy s.dev)) := runDev_running _ s hr

theorem exec_channelMoveComplete : exec .channelMoveComplete s = .next (s.withCtl (chComplete s.dev.c)) := runCtl_running _ s hr

theorem exec_rekeyComplete : exec .rekeyComplete s = .next (s.withCtl (rekeyComplete s.dev.c)) := runCtl_running _ s hr

theorem exec_scrub (a : Nat) (f : ScrubFinding) : exec (.scrub a f) s = .next (s.withCtl (scrubAt a f s.dev.c)) := runCtl_running _ s hr

theorem exec_hotspot : exec .hotspot s = .next (s.withCtl (hotspotDue s.dev.c)) := runCtl_running _ s hr

variable (hm : mainReady s.dev.c 8 = true)
include hm

theorem exec_channelMoveStart (l : Nat) : exec (.channelMoveStart l) s = .next (s.withCtl (chStart l s.dev.c)) := runCtl_whenReady _ hr hm

theorem exec_rekeyReq : exec .rekeyReq s = .next (s.withCtl (rekeyRequest s.dev.c)) := runCtl_whenReady _ hr hm

end

/-! ### Where a channel moves to (R213, R214) -/

/-- A channel that does not wait yet joins those that wait. -/
theorem chQueue_of_new {c : Ctl} {l : Nat} (hw : c.slu.chWait.contains l = false) :
    chQueue l c = onSlu (fun x => { x with chWait := x.chWait ++ [l] }) c := if_neg (ne_true_of_eq_false hw)

section
variable {c : Ctl} {l : Nat} (hl : l < channels c.fuses.grade)
include hl

/-- A move behind a running one waits. -/
theorem chStart_of_live (hlive : c.slu.chLive = true) : chStart l c = chQueue l c := by
  rw [chStart, if_neg (Nat.not_le.2 hl), if_pos hlive]

variable (hidle : c.slu.chLive = false)
include hidle

/-- The lowest free spare of the stack is taken first. -/
theorem chStart_of_spare {n : Nat} {spares : List Nat} (hs : spareChannels c (homeStack l) = n :: spares) : chStart l c = chBegin l (.phys n) c := by
  simp [chStart, Nat.not_le.2 hl, hidle, hs]

variable {n : Nat} (hs : spareChannels c (homeStack l) = []) (hh : chHome c l = .phys n)
include hs hh

/-- Without a spare, the lowest slot that holds neither a channel nor spilled data. -/
theorem chStart_of_slot {f : Nat} (hf : freeSlot c = some f) : chStart l c = chBegin l (.slot f) c := by
  simp [chStart, Nat.not_le.2 hl, hidle, hs, hf, hh]

/-- While spilled data holds every empty slot the move waits. -/
theorem chStart_of_spilled (hf : freeSlot c = none) (he : emptySlots c ≠ []) : chStart l c = chQueue l c := by
  obtain ⟨x, xs, he⟩ := List.exists_cons_of_ne_nil he
  simp [chStart, Nat.not_le.2 hl, hidle, hs, hf, he, hh]

end

/-- A slot that can be taken is an empty one. -/
theorem freeSlot_of_no_empty {c : Ctl} (he : emptySlots c = []) : freeSlot c = none := by rw [freeSlot, he]; rfl

/-- A channel that finds no place gives up its retirement and its turn, and NO_FALLBACK is reported (R214). -/
def chNoPlace (l n : Nat) (c : Ctl) : Ctl :=
  onSlu (fun s => { s with chWait := s.chWait.filter (· != l) })
    (raise evMemory 0x08 (srcStack (homeStack l)) 0 (setB (hbmF R.HBM_STATUS.NO_FALLBACK (homeStack l)) true
      (noSpare (srcChannel n) (onFan (fun s => { s with retiring := s.retiring.filter (· != n) }) c))))

theorem chStart_of_no_place {c : Ctl} {l n : Nat} (hl : l < channels c.fuses.grade) (hidle : c.slu.chLive = false)
    (hs : spareChannels c (homeStack l) = []) (hh : chHome c l = .phys n) (he : emptySlots c = []) : chStart l c = chNoPlace l n c := by
  simp [chStart, chNoPlace, Nat.not_le.2 hl, hidle, hs, freeSlot_of_no_empty he, he, hh]

/-- A flag just set reads as set. -/
theorem getB_setB_true {f : Fld} (c : Ctl) (hf : f.lo + f.w ≤ 64) (hw : 0 < f.w) : getB (setB f true c) f = true := by
  have one : 1 < 2 ^ f.w := Nat.one_lt_two_pow (Nat.ne_of_gt hw)
  rw [getB, setB, getF_setF_same f _ c hf, if_pos rfl, Nat.mod_eq_of_lt one]
  rfl

/-- The status words of the stacks lie above the notice words. -/
theorem hbmStatus_not_notice (k : Nat) : (hbmF R.HBM_STATUS.NO_FALLBACK k).off ∉ noticeWords := by
  have below : ∀ o ∈ noticeWords, o < R.HBM_STATUS.adr := by decide
  exact fun h => Nat.not_lt.2 (Nat.le_add_right _ _) (below _ h)

/-- The report leaves NO_FALLBACK set. -/
theorem noFallback_of_chNoPlace (l n : Nat) (c : Ctl) : getB (chNoPlace l n c) (hbmF R.HBM_STATUS.NO_FALLBACK (homeStack l)) = true := by
  exact ((raise_notice _ _ _ _ _).getB _ (hbmStatus_not_notice _)).trans (getB_setB_true _ (Nat.le_of_ble_eq_true rfl) Nat.one_pos)

/-! ### Units of the copy loops (R209, R401) -/

/-- Where the sluice may write, a granule goes where its routing says. -/
theorem sluicePut_of_open {st a : Nat} {d : Dev} (hs : spillOf d.c a = none) (hw : writeStop d.c st = false) (k : Nat) (bs : List Byte)
    (bad : Bool) : sluicePut st a k bs bad d = putGranule k bs bad d := by
  simp only [sluicePut, hs, hw]

/-- The granule of the move at address a and offset w as a write to the destination's stack. -/
def moveDest (l a : Nat) (c : Ctl) : List (Nat × Nat) := [(a, homeStackOf l (moveEnd c true))]

/-- What the read of a granule of the move at key `src`, and its write, count and report (R199, R204, R215). -/
def moveCounted (l a src : Nat) (c : Ctl) : Ctl :=
  readErrors a src 256 (serveGranule l (moveEnd c true) (serveGranule l (moveEnd c false) (chargeBytes 5 512 c)))

/-- A granule that nothing keeps from its place is counted, put there, and the watermark passes it. -/
theorem chCopyAt_of_room {l w a : Nat} {d : Dev} (hs : sluiceWaits d.c (moveDest l a d.c) = false) :
    chCopyAt l w a d = onCtl (setF R.SLU_CHMOVE.W (w + 1))
      (sluicePut (homeStackOf l (moveEnd d.c true)) a (granuleKey a w (moveEnd d.c true)) (jobRead d (granuleKey a w (moveEnd d.c false))).1
        (jobRead d (granuleKey a w (moveEnd d.c false))).2 (onCtl (moveCounted l a (granuleKey a w (moveEnd d.c false))) d)) :=
  if_neg (ne_true_of_eq_false hs)

/-- A granule without a place waits, and its watermark with it. -/
theorem chCopyAt_of_full {l w a : Nat} {d : Dev} (hs : sluiceWaits d.c (moveDest l a d.c) = true) :
    chCopyAt l w a d = onCtl (sluiceFull (moveDest l a d.c)) d := if_pos hs

section
variable {d : Dev} (hlive : d.c.slu.chLive = true) (hd : d.c.slu.chDone = false) (hw : getF d.c R.SLU_CHMOVE.W < moveEndUnit)
include hlive hd hw

/-- A move below its end copies the granule at its offset. -/
theorem chCopy_of_granule {a : Nat}
    (ha : granuleAddr d.c (getF d.c R.SLU_CHMOVE.LOGICAL) (getF d.c R.SLU_CHMOVE.W) (saltFor d.c (getF d.c R.SLU_CHMOVE.W)) = some a) :
    chCopy d = chCopyAt (getF d.c R.SLU_CHMOVE.LOGICAL) (getF d.c R.SLU_CHMOVE.W) a d := by
  simp [chCopy, hlive, hd, Nat.not_le.2 hw, ha]

/-- An offset at which the channel has no granule is passed. -/
theorem chCopy_of_gap
    (ha : granuleAddr d.c (getF d.c R.SLU_CHMOVE.LOGICAL) (getF d.c R.SLU_CHMOVE.W) (saltFor d.c (getF d.c R.SLU_CHMOVE.W)) = none) :
    chCopy d = onCtl (setF R.SLU_CHMOVE.W (getF d.c R.SLU_CHMOVE.W + 1)) d := by
  simp [chCopy, hlive, hd, Nat.not_le.2 hw, ha]

end

/-- The granules of group w with the stacks to which a re-key takes them. -/
def groupDest (w : Nat) (c : Ctl) : List (Nat × Nat) := groupStacks (setF R.SLU_REKEY.W (w + 1) c) w

/-- Group w read under the old salt, and its watermark moved by one (R209). -/
def groupRead (w : Nat) (c : Ctl) : Ctl :=
  setF R.SLU_REKEY.W (w + 1) ((groupKeys c w).foldl (fun c x => readErrors x.1 x.2 256 (rekeyCharge x.1 c)) c)

/-- Granules, each with its key and what was read of it, written where the new salt puts them (R209). -/
def putGroup (l : List ((Nat × Nat) × List Byte × Bool)) (d : Dev) : Dev :=
  l.foldl (fun d x => sluicePut (hbmStack d.c x.1.1) x.1.1 x.1.2 x.2.1 x.2.2 (onCtl (rekeyCharge x.1.1) d)) d

section
variable {d : Dev} (hlive : d.c.slu.rkLive = true) (hd : d.c.slu.rkDone = false) (hw : getF d.c R.SLU_REKEY.W < moveEndUnit)
include hlive hd hw

/-- A re-key below its end reads its group in full, then writes it in full. -/
theorem rekeyCopy_of_room (hs : sluiceWaits d.c (groupDest (getF d.c R.SLU_REKEY.W) d.c) = false) :
    rekeyCopy d = putGroup
      (List.zip (groupKeys (groupRead (getF d.c R.SLU_REKEY.W) d.c) (getF d.c R.SLU_REKEY.W))
        ((groupKeys d.c (getF d.c R.SLU_REKEY.W)).map (fun x => jobRead d x.2)))
      (onCtl (groupRead (getF d.c R.SLU_REKEY.W)) d) := by
  rw [groupDest] at hs
  simp only [rekeyCopy, putGroup, groupRead, onCtl, hlive, hd, decide_eq_false (Nat.not_le.2 hw), hs, Bool.not_true, Bool.or_self,
    Bool.false_eq_true, if_false]

/-- A group with a granule without a place waits. -/
theorem rekeyCopy_of_full (hs : sluiceWaits d.c (groupDest (getF d.c R.SLU_REKEY.W) d.c) = true) :
    rekeyCopy d = onCtl (sluiceFull (groupDest (getF d.c R.SLU_REKEY.W) d.c)) d := by
  rw [groupDest] at hs
  simp only [rekeyCopy, hlive, hd, decide_eq_false (Nat.not_le.2 hw), hs, Bool.not_true, Bool.or_self, Bool.false_eq_true, if_false, if_true]
  rfl

end

/-! ### The ends of the copy loops, and requests (R209, R216) -/

section
variable {c : Ctl}

theorem chComplete_of_end (hlive : c.slu.chLive = true) (hd : c.slu.chDone = false) (hw : getF c R.SLU_CHMOVE.W = moveEndUnit) :
    chComplete c = setB R.SLU_STATUS.CHMOVE_ACTIVE false (onSlu (fun s => { s with chDone := true }) c) :=
  if_pos (by rw [hlive, hd, hw]; rfl)

theorem rekeyComplete_of_end (hlive : c.slu.rkLive = true) (hd : c.slu.rkDone = false) (hw : getF c R.SLU_REKEY.W = moveEndUnit) :
    rekeyComplete c = setB R.SLU_STATUS.REKEY_ACTIVE false (onSlu (fun s => { s with rkDone := true }) c) :=
  if_pos (by rw [hlive, hd, hw]; rfl)

/-- A request is pending at once unless a re-key runs. -/
theorem rekeyRequest_of_idle (h : c.slu.rkLive = false) : rekeyRequest c = setB R.SLU_STATUS.REKEY_PENDING true c :=
  if_neg (ne_true_of_eq_false h)

/-- A running re-key holds a request. -/
theorem rekeyRequest_of_live (h : c.slu.rkLive = true) : rekeyRequest c = onSlu (fun s => { s with rkHeld := true }) c := if_pos h

/-! ### Scrubs (R199) -/

/-- An error that is there already is found, whatever the scrub comes upon. -/
theorem scrubFinds_of_poisoned {key : Nat} (h : poisoned c (key / 32 * 32) 32 = true) (f : ScrubFinding) : scrubFinds c key f = .uncorrectable :=
  if_pos h

section
variable {a : Nat} {f : ScrubFinding} (ha : a < hbmEnd c.fuses.grade)
include ha

theorem scrubAt_of_clean (hf : scrubFinds c (scrubKey c a) f = .clean) : scrubAt a f c = c := by
  simp [scrubAt, ha, hf]

theorem scrubAt_of_corrected (hf : scrubFinds c (scrubKey c a) f = .corrected) :
    scrubAt a f c = correctedAt (errSource c a (scrubKey c a)) { c with soft := c.soft.filter (fun k => k / 32 != scrubKey c a / 32) } := by
  simp [scrubAt, ha, hf]

/-- An uncorrectable error comes about, unless it is there already, and is reported. -/
theorem scrubAt_of_uncorrectable (hf : scrubFinds c (scrubKey c a) f = .uncorrectable) :
    scrubAt a f c = uncorrectable (errSource c a (scrubKey c a)) a
      (if poisoned c (scrubKey c a / 32 * 32) 32 then c else upset ⟨scrubKey c a, false⟩ c) := by
  simp [scrubAt, ha, hf]

end

/-! ### Hotspots (R215) -/

/-- The HOTSPOT event of the run of hot beats so far, which starts again. -/
def hotspotEvent (src : Nat) (c : Ctl) : Ctl :=
  raise evHotspot 0x01 src (getF c R.MEM_HOT_STATUS.CHANNEL + getF c R.MEM_HOT_STATUS.RUN * 2 ^ 8) (setF R.MEM_HOT_STATUS.RUN 0 c)

/-- The event leaves SLU_CTRL as it was. -/
theorem autoRekey_of_hotspotEvent (src : Nat) (c : Ctl) : getB (hotspotEvent src c) R.SLU_CTRL.AUTO_REKEY = getB c R.SLU_CTRL.AUTO_REKEY := by
  have kept : getF (setF R.MEM_HOT_STATUS.RUN 0 c) R.SLU_CTRL.AUTO_REKEY = getF c R.SLU_CTRL.AUTO_REKEY := getF_setF_off 0 c (by decide)
  rw [hotspotEvent, (raise_notice _ _ _ _ _).getB _ (by decide), getB, getB, kept]

theorem hotspotDue_of_cold (h : getF c R.MEM_HOT_STATUS.RUN = 0) : hotspotDue c = c := if_pos (.inl h)

/-- A run of BEATS hot beats raises the event; without AUTO_REKEY that is all. -/
theorem hotspotDue_of_hot {n : Nat} (h0 : getF c R.MEM_HOT_STATUS.RUN ≠ 0)
    (hb : max 1 (getF c R.MEM_HOT_CFG.BEATS) ≤ getF c R.MEM_HOT_STATUS.RUN) (hauto : getB c R.SLU_CTRL.AUTO_REKEY = false)
    (hh : chHome c (getF c R.MEM_HOT_STATUS.CHANNEL) = .phys n) : hotspotDue c = hotspotEvent (srcChannel n) c := by
  have long : ¬(getF c R.MEM_HOT_STATUS.RUN = 0 ∨ getF c R.MEM_HOT_STATUS.RUN < max 1 (getF c R.MEM_HOT_CFG.BEATS)) :=
    not_or.2 ⟨h0, Nat.not_lt.2 hb⟩
  have auto := (autoRekey_of_hotspotEvent (srcChannel n) c).trans hauto
  rw [hotspotEvent] at auto
  simp only [hotspotDue, if_neg long, hh, auto, Bool.false_and, Bool.false_eq_true, if_false]
  rfl

end

/-- Settles O55: each command is a function of the device or of its control state, and each clause one of the cases above. -/
theorem sluiceCommands : Obligations.SluiceCommands := by
  intro s l n f a spares find hr c w m u onS at32 unit
  refine ⟨fun hm hl => ⟨fun hlive hwait => ?live, fun hidle hs => ?spare, fun hidle hs hh =>
      ⟨fun hf => ?slot, fun hf he hwait => ?spilled, fun he => ?noPlace⟩⟩,
    fun hlive hd hw ha => ⟨fun hs => ?copied, fun hs => ?copyWaits⟩, fun st k bs bad d hs hw => sluicePut_of_open hs hw k bs bad,
    fun hlive hd hw ha => ?gap, fun hlive hd hw => ⟨fun hs => ?rekeyed, fun hs => ?rekeyWaits⟩, fun hlive hd hw => ?moveEnds,
    fun hlive hd hw => ?rekeyEnds, fun hm hidle => ?request, fun hm hlive => ?held,
    fun ha => ⟨fun hf => ?clean, fun hf => ?corrected, fun hp => ?poisoned, fun hf hp => ?uncorrectable⟩,
    fun h0 hb hauto hh => ?hot, fun h0 => ?cold⟩
  case live => rw [exec_channelMoveStart hr hm, chStart_of_live hl hlive, chQueue_of_new hwait]; rfl
  case spare => rw [exec_channelMoveStart hr hm, chStart_of_spare hl hidle hs]
  case slot => rw [exec_channelMoveStart hr hm, chStart_of_slot hl hidle hs hh hf]
  case spilled => rw [exec_channelMoveStart hr hm, chStart_of_spilled hl hidle hs hh hf he, chQueue_of_new hwait]; rfl
  case noPlace =>
    refine ⟨s.withCtl (chNoPlace l n c), ?_, rfl, noFallback_of_chNoPlace l n c⟩
    rw [exec_channelMoveStart hr hm, chStart_of_no_place hl hidle hs hh he]
  case copied => rw [exec_moveJobUnitCopy_channel hr, chCopy_of_granule hlive hd hw ha, chCopyAt_of_room hs]; rfl
  case copyWaits => rw [exec_moveJobUnitCopy_channel hr, chCopy_of_granule hlive hd hw ha, chCopyAt_of_full hs]; rfl
  case gap => rw [exec_moveJobUnitCopy_channel hr, chCopy_of_gap hlive hd hw ha]; rfl
  case rekeyed => rw [exec_moveJobUnitCopy_rekey hr, rekeyCopy_of_room hlive hd hw hs]; rfl
  case rekeyWaits => rw [exec_moveJobUnitCopy_rekey hr, rekeyCopy_of_full hlive hd hw hs]; rfl
  case moveEnds => rw [exec_channelMoveComplete hr, chComplete_of_end hlive hd hw]; rfl
  case rekeyEnds => rw [exec_rekeyComplete hr, rekeyComplete_of_end hlive hd hw]; rfl
  case request => rw [exec_rekeyReq hr hm, rekeyRequest_of_idle hidle]
  case held => rw [exec_rekeyReq hr hm, rekeyRequest_of_live hlive]; rfl
  case clean => rw [exec_scrub hr, scrubAt_of_clean ha hf]; rfl
  case corrected => rw [exec_scrub hr, scrubAt_of_corrected ha hf]
  case poisoned => rw [exec_scrub hr, scrubAt_of_uncorrectable ha (scrubFinds_of_poisoned hp find), if_pos hp]
  case uncorrectable => rw [exec_scrub hr, scrubAt_of_uncorrectable ha hf, if_neg (ne_true_of_eq_false hp)]
  case hot => rw [exec_hotspot hr, hotspotDue_of_hot h0 hb hauto hh]; rfl
  case cold => rw [exec_hotspot hr, hotspotDue_of_cold h0]; rfl

end Sys2Proof.Machine
end

section
/-! ## Proofs: measurements, known answers, standing and spilled granules

A calibration is counted once in a beat and its eye held to two limits (R212, R382); a known-answer pick runs in its turn and in time (R387);
the standing is a comparison of the score with two thresholds, in the device's own beat (R395, R396); a spilled granule goes back (R402). -/

namespace Sys2Proof.Machine

/-! ### Limits (R382) -/

theorem limitCheck_within (q src : Nat) (c : Ctl) : limitCheck q src false false c = (c, false) := rfl

theorem limitCheck_warn (q src : Nat) (c : Ctl) : limitCheck q src true false c = (warnOnce q src c, false) := rfl

theorem limitCheck_fail (q src : Nat) (warn : Bool) (c : Ctl) : limitCheck q src warn true c = (chargeUnit kFail src c, true) := rfl

/-! ### Calibration (R212, R213, R225, R409) -/

/-- The calibration of channel n is counted and its eye shown. -/
def calibrated (n : Nat) (e : Eye) (c : Ctl) : Ctl :=
  showEye R.FAN_HBM_EYE.WIDTH R.FAN_HBM_EYE.HEIGHT n e (incF (chErrF R.HBM_CH_ERR.CAL n) 1 (onSlu (fun s => { s with calib := n :: s.calib }) c))

/-- A channel calibrated in this beat already is left alone. -/
theorem calibrate_of_repeated {c : Ctl} {n : Nat} {e : Eye} (h : c.slu.calib.contains n = true) : calibrate n e c = c :=
  if_pos (by rw [h, Bool.or_true])

section
variable {c : Ctl} {n : Nat} {e : Eye} (hn : n < 256) (hm : mainReady c (16 + n / 32) = true) (hc : c.slu.calib.contains n = false)
include hn hm hc

/-- The first calibration of a beat holds the eye to its limits, 76.8% and 51.2% of the unit interval in whole percent. -/
theorem calibrate_of_first {r : Ctl × Bool}
    (hl : limitCheck 8 (srcChannel n) (decide (e.width * 100 < 7680)) (decide (e.width * 100 < 5120)) (calibrated n e c) = r) :
    calibrate n e c = if r.2 then retrainStart n r.1 else r.1 := by
  have first : (!decide (n < 256) || !mainReady c (16 + n / 32) || c.slu.calib.contains n) = false := by
    rw [decide_eq_true hn, hm, hc]
    rfl
  rw [← hl, calibrate, if_neg (ne_true_of_eq_false first)]
  rfl

/-- A wide eye costs nothing. -/
theorem calibrate_of_wide (hw : 77 ≤ e.width) : calibrate n e c = calibrated n e c := by
  have noWarn : decide (e.width * 100 < 7680) = false := decide_eq_false (by omega)
  have noFail : decide (e.width * 100 < 5120) = false := decide_eq_false (by omega)
  exact calibrate_of_first hn hm hc (by rw [noWarn, noFail, limitCheck_within])

/-- An eye below its warn limit only is a WARN. -/
theorem calibrate_of_narrow (hf : 52 ≤ e.width) (hw : e.width < 77) :
    calibrate n e c = warnOnce 8 (srcChannel n) (calibrated n e c) := by
  have warns : decide (e.width * 100 < 7680) = true := decide_eq_true (by omega)
  have noFail : decide (e.width * 100 < 5120) = false := decide_eq_false (by omega)
  exact calibrate_of_first hn hm hc (by rw [warns, noFail, limitCheck_warn])

/-- An eye below its fail limit is a FAIL, and the channel is retrained. -/
theorem calibrate_of_closed (hf : e.width < 52) :
    calibrate n e c = retrainStart n (chargeUnit kFail (srcChannel n) (calibrated n e c)) := by
  have fails : decide (e.width * 100 < 5120) = true := decide_eq_true (by omega)
  exact calibrate_of_first hn hm hc (by rw [fails, limitCheck_fail])

end

/-! ### Known answers (R157, R387) -/

/-- Whether a known-answer pick of core p may run: it is its unit's turn, and the time left suffices. -/
def KapMayRun (c : Ctl) (k : KnownAnswer) (p : Nat) : Prop :=
  k.core = p ∧ p < 72 ∧ coreReady c p = true ∧ kapFree c p (kapTreadle k.unit) = true ∧ kapDue c p k.unit = true ∧ kapCycles k.unit + 1000 ≤ k.left

section
variable {c : Ctl} {k : KnownAnswer}

/-- With too little time left nothing runs. -/
theorem knownAnswer_of_short (h : k.left < kapCycles k.unit + 1000) : knownAnswer k c = c :=
  if_pos (by rw [decide_eq_true h, Bool.or_true])

variable {p : Nat} (hk : KapMayRun c k p)
include hk

/-- A pick that may run either still runs when the guard comes, or completes with an answer. -/
theorem knownAnswer_of_mayRun :
    knownAnswer k c =
      if k.late then onFan (fun f => { f with kapRuns := f.kapRuns ++ [(p, kapTreadle k.unit)] }) c
      else if k.mismatch then kapMismatch p k.unit (kapProving c p k.unit) (kapTurned p k.unit (incF R.FAN_KAP.RUN 1 c))
      else kapTurned p k.unit (incF R.FAN_KAP.RUN 1 c) := by
  obtain ⟨rfl, hp, hready, hfree, hdue, htime⟩ := hk
  have runs : (!decide (k.core < 72) || !coreReady c k.core || !kapFree c k.core (kapTreadle k.unit) || !kapDue c k.core k.unit ||
      decide (k.left < kapCycles k.unit + 1000)) = false := by
    rw [decide_eq_true hp, hready, hfree, hdue, decide_eq_false (Nat.not_lt.2 htime)]
    rfl
  simp only [knownAnswer, runs, Bool.false_eq_true, if_false]

theorem knownAnswer_of_late (hl : k.late = true) :
    knownAnswer k c = onFan (fun f => { f with kapRuns := f.kapRuns ++ [(p, kapTreadle k.unit)] }) c := by
  rw [knownAnswer_of_mayRun hk, if_pos hl]

variable (hl : k.late = false)
include hl

theorem knownAnswer_of_match (hm : k.mismatch = false) : knownAnswer k c = kapTurned p k.unit (incF R.FAN_KAP.RUN 1 c) := by
  rw [knownAnswer_of_mayRun hk, hl, hm, if_neg Bool.false_ne_true, if_neg Bool.false_ne_true]

theorem knownAnswer_of_mismatch (hm : k.mismatch = true) :
    knownAnswer k c = kapMismatch p k.unit (kapProving c p k.unit) (kapTurned p k.unit (incF R.FAN_KAP.RUN 1 c)) := by
  rw [knownAnswer_of_mayRun hk, hl, hm, if_neg Bool.false_ne_true, if_pos rfl]

end

/-! ### Standing (R395, R396) -/

/-- Roster number n is in its own beat, outside the guard, and the last TIME_DOWN reported nothing lost (R396). -/
def InOwnBeat (c : Ctl) (n : Nat) : Prop :=
  c.place.me = some n ∧ getF c R.BEAT_NOW.BEAT % 65536 = n ∧ getB c R.BEAT_STATUS.RUNNING = true ∧ c.time.inGuard = false ∧
    c.time.comb.bind (·.lost) = none

/-- T_EFF shown as the score is compared with it (R395). -/
def thresholdShown (c : Ctl) : Ctl := setF R.FAN_STATUS.T_EFF (effThreshold c) c

/-- Showing T_EFF leaves FAN_CFG as it is in force. -/
theorem fanCfg_thresholdShown (c : Ctl) (f : Fld) : fanCfg (thresholdShown c) f = fanCfg c f := by
  have kept : getReg (thresholdShown c) R.FAN_CFG.adr = getReg c R.FAN_CFG.adr := getReg_setReg_ne _ c (by decide)
  rw [fanCfg, kept]
  rfl

section
variable {c : Ctl} {n : Nat} (ho : InOwnBeat c n) (hst : getF c R.FAN_STATUS.STANDING ≤ 1)
include ho hst

/-- A device in service or on probation compares its score with T_EFF, then with T_BASE. -/
theorem standingDecide_of_own :
    standingDecide c =
      if effThreshold c ≤ healthScore c then setF R.FAN_STATUS.STANDING standNominated (thresholdShown c)
      else if fanCfg c R.FAN_CFG.T_BASE ≤ healthScore c then
        (if fanCfg c R.FAN_CFG.PROBATION = 1 then setF R.FAN_STATUS.STANDING standProbation (thresholdShown c)
         else setB R.FAN_STATUS.HELD true (thresholdShown c))
      else if healthScore c + 64 < fanCfg c R.FAN_CFG.T_BASE ∧ getF c R.FAN_STATUS.STANDING = standProbation then
        setF R.FAN_STATUS.STANDING standService (thresholdShown c)
      else thresholdShown c := by
  obtain ⟨hme, hbeat, hrun, hguard, hlost⟩ := ho
  have notNominated : getF c R.FAN_STATUS.STANDING ≠ standNominated := by unfold standNominated; omega
  have notExpelled : getF c R.FAN_STATUS.STANDING ≠ standExpelled := by unfold standExpelled; omega
  have probation := fanCfg_thresholdShown c R.FAN_CFG.PROBATION
  rw [thresholdShown] at probation
  simp only [standingDecide, probation, hme, hbeat, hrun, hguard, hlost, notNominated, notExpelled, ne_eq, not_true, Bool.not_true, Option.isSome_none,
    Bool.false_eq_true, or_self, if_false, thresholdShown]

theorem standingDecide_of_nominated (h : effThreshold c ≤ healthScore c) :
    standingDecide c = setF R.FAN_STATUS.STANDING standNominated (thresholdShown c) := by
  rw [standingDecide_of_own ho hst, if_pos h]

variable (heff : healthScore c < effThreshold c)
include heff

/-- From T_BASE on the device goes on probation, or its standing is held. -/
theorem standingDecide_of_base (h : fanCfg c R.FAN_CFG.T_BASE ≤ healthScore c) :
    standingDecide c = if fanCfg c R.FAN_CFG.PROBATION = 1 then setF R.FAN_STATUS.STANDING standProbation (thresholdShown c)
      else setB R.FAN_STATUS.HELD true (thresholdShown c) := by
  rw [standingDecide_of_own ho hst, if_neg (Nat.not_le.2 heff), if_pos h]

/-- More than 64 below T_BASE probation ends. -/
theorem standingDecide_of_low (h : healthScore c < fanCfg c R.FAN_CFG.T_BASE) :
    standingDecide c = if healthScore c + 64 < fanCfg c R.FAN_CFG.T_BASE ∧ getF c R.FAN_STATUS.STANDING = standProbation
      then setF R.FAN_STATUS.STANDING standService (thresholdShown c) else thresholdShown c := by
  rw [standingDecide_of_own ho hst, if_neg (Nat.not_le.2 heff), if_neg (Nat.not_le.2 h)]

end

/-! ### Spilled granules (R402) -/

/-- The granule of a spill entry copied back to where its channel lies. -/
def spillCopied (e : SpillEntry) (d : Dev) : Dev :=
  let a := 256 * e.granule
  let r := hbmRoute d.c a
  let home := chRoute d.c r.1 r.2
  (copyGranule e.home (granuleKey a r.2 home) (onCtl (fun c => readErrors a e.home 256 (serveGranule r.1 home c)) d)).1

/-- A spill entry of its stack is free again; with the last one the stack's spill ends. -/
def spillFreed (e : SpillEntry) (c : Ctl) : Ctl :=
  let n := getF c (heatF R.FAN_HEAT.SPILLED e.stack) - 1
  let left := setF (heatF R.FAN_HEAT.SPILLED e.stack) n (onSlu (fun x => { x with spill := x.spill.erase e }) c)
  if n = 0 then setB (heatF R.FAN_HEAT.SPILL e.stack) false (setB (heatF R.FAN_HEAT.WRITEBACK e.stack) false left) else left

/-- The oldest granule of which neither its stack nor the one it goes to is in WRITE_STOP goes back. -/
theorem spillBack_of_due {d : Dev} {e : SpillEntry}
    (h : d.c.slu.spill.find? (fun e => !writeStop d.c e.stack && !writeStop d.c (hbmStack d.c (256 * e.granule))) = some e) :
    spillBack d = onCtl (spillFreed e) (spillCopied e d) := by
  simp only [spillBack, h]
  rfl

/-! ### The commands -/

section
variable {s : State} (hr : running s.dev.c = true)
include hr

theorem exec_spillWriteback : exec .spillWriteback s = .next (s.withDev (spillBack s.dev)) := runDev_running _ s hr

variable (hm : mainReady s.dev.c 7 = true)
include hm

theorem exec_calibration (n : Nat) (eye : Eye) : exec (.calibration n eye) s = .next (s.withCtl (calibrate n eye s.dev.c)) :=
  runCtl_whenReady _ hr hm

theorem exec_knownAnswerPick (k : KnownAnswer) : exec (.knownAnswerPick k) s = .next (s.withCtl (knownAnswer k s.dev.c)) :=
  runCtl_whenReady _ hr hm

theorem exec_standingDecision : exec .standingDecision s = .next (s.withCtl (standingDecide s.dev.c)) := runCtl_whenReady _ hr hm

end

/-- Settles O57: the fantail's three commands are functions of its control state while it is READY, the write-back one of the device, and
each clause is one of the cases above. -/
theorem measurementsAndStanding : Obligations.MeasurementsAndStanding := by
  intro s n p eye k e hr c h decided own seen mayRun
  refine ⟨fun hm => ⟨fun hn hs hc => ⟨fun hw => ?wide, fun hf hw => ?narrow, fun hf => ?closed⟩, fun hc => ?repeated, fun hk hl hx => ?answered,
    fun hk hl hx => ?mismatch, fun hk hl => ?late, fun hk => ?short, fun ho hst => ⟨fun hh => ?nominated, fun hh hb => ?base, fun hh hb => ?low⟩⟩,
    fun he => ?spill⟩
  case wide => rw [exec_calibration hr hm, calibrate_of_wide hn hs hc hw]; rfl
  case narrow => rw [exec_calibration hr hm, calibrate_of_narrow hn hs hc hf hw]; rfl
  case closed => rw [exec_calibration hr hm, calibrate_of_closed hn hs hc hf]; rfl
  case repeated => rw [exec_calibration hr hm, calibrate_of_repeated hc]; rfl
  case answered => rw [exec_knownAnswerPick hr hm, knownAnswer_of_match hk hl hx]
  case mismatch => rw [exec_knownAnswerPick hr hm, knownAnswer_of_mismatch hk hl hx]
  case late => rw [exec_knownAnswerPick hr hm, knownAnswer_of_late hk hl]; rfl
  case short => rw [exec_knownAnswerPick hr hm, knownAnswer_of_short hk]; rfl
  case nominated => rw [exec_standingDecision hr hm, standingDecide_of_nominated ho hst hh]; rfl
  case base => rw [exec_standingDecision hr hm, standingDecide_of_base ho hst hh hb]; rfl
  case low => rw [exec_standingDecision hr hm, standingDecide_of_low ho hst hh hb]; rfl
  case spill => rw [exec_spillWriteback hr, spillBack_of_due he]; rfl

end Sys2Proof.Machine
end

section
/-! ## Proofs: check-value units

The fields of one element of a register array, read back after a write, and the general check-value units in register use (R248 to R250,
R280 to R283). -/

namespace Sys2Proof.Machine

/-! ### Fields of an element of a register array -/

section
variable {f g : Fld} (d x : Nat) (c : Ctl)

/-- Different registers of a block are different words in each copy of the block. -/
theorem off_at_ne (h : g.off ≠ f.off) : (g.at d).off ≠ (f.at d).off := fun he => h (Nat.add_right_cancel he)

theorem getF_setF_at_same (hf : f.lo + f.w ≤ 64) : getF (setF (f.at d) x c) (f.at d) = x % 2 ^ f.w := getF_setF_same (f.at d) x c hf

theorem getF_setF_at_off (h : g.off ≠ f.off) : getF (setF (f.at d) x c) (g.at d) = getF c (g.at d) := getF_setF_off x c (off_at_ne d h)

theorem getF_setF_at_bits (ho : g.off = f.off) (hg : g.lo + g.w ≤ 64) (h : f.lo + f.w ≤ g.lo ∨ g.lo + g.w ≤ f.lo) :
    getF (setF (f.at d) x c) (g.at d) = getF c (g.at d) := getF_setF_bits x c (congrArg (· + d) ho) hg h

end

/-! ### Commands of a unit (R444) -/

section
variable {s : State} {u : Nat} (hr : running s.dev.c = true) (hu : u < 16) (hm : mainReady s.dev.c (48 + u) = true)
include hr hu hm

/-- A command of a unit that is READY, while the module runs. -/
theorem runCtl_whenUnit (f : Ctl → Ctl) : runCtl (whenUnit u f) s = .next (s.withCtl (f s.dev.c)) := by
  rw [runCtl_running _ s hr, whenUnit, if_pos ⟨hu, hm⟩]
  rfl

theorem exec_cvStateWrite (v : Dword) : exec (.cvStateWrite u v) s = .next (s.withCtl (cvState u v s.dev.c)) := runCtl_whenUnit hr hu hm _

theorem exec_cvCfgWrite (v : Word) : exec (.cvCfgWrite u v) s = .next (s.withCtl (cvCfg u v s.dev.c)) := runCtl_whenUnit hr hu hm _

theorem exec_cvExpect (v : Dword) : exec (.cvExpect u v) s = .next (s.withCtl (cvExpect u v s.dev.c)) := runCtl_whenUnit hr hu hm _

/-- The three DATA registers feed their own count of bytes. -/
theorem exec_cvData {i : Instr} {n : Nat} {v : Word} (hi : (i, n) ∈ [(Instr.cvData8 u v, 1), (.cvData16 u v, 2), (.cvData32 u v, 4)]) :
    exec i s = .next (s.withCtl (cvData u n v s.dev.c)) := by
  simp only [List.mem_cons, List.not_mem_nil, or_false, Prod.mk.injEq] at hi
  obtain ⟨rfl, rfl⟩ | ⟨rfl, rfl⟩ | ⟨rfl, rfl⟩ := hi <;> exact runCtl_whenUnit hr hu hm _

end

/-! ### Registers of a unit (R280 to R283) -/

/-- A DATA register feeds a unit in register use. -/
theorem cvData_of_free {c : Ctl} {u : Nat} (h : getB c (cvF R.CV_CFG.OWNER u) = false) (n : Nat) (v : Word) :
    cvData u n v c = cvFeed u (leBytes n v.toNat) c := if_neg (ne_true_of_eq_false h)

/-- A DATA register does nothing in a unit of the tailrace. -/
theorem cvData_of_owned {c : Ctl} {u : Nat} (h : getB c (cvF R.CV_CFG.OWNER u) = true) (n : Nat) (v : Word) : cvData u n v c = c := if_pos h

section
variable (u : Nat) (v : Word) (w : Dword) (c : Ctl)

/-- The initial state of each function fits its register. -/
theorem crcInit_lt (poly : Nat) : crcInit poly < 2 ^ 64 := by
  unfold crcInit
  split <;> decide

theorem count_of_cvCfg : getF (cvCfg u v c) (cvF R.CV_COUNT.BYTES u) = 0 := by
  simp only [cvCfg, cvF, idxF]
  rw [getF_setF_at_same _ _ _ (by decide), Nat.zero_mod]

theorem state_of_cvCfg : getF (cvCfg u v c) (cvF R.CV_STATE.STATE u) = crcInit (v.toNat % 4) := by
  simp only [cvCfg, cvF, idxF]
  rw [getF_setF_at_off _ _ _ (by decide), getF_setF_at_same _ _ _ (by decide)]
  exact Nat.mod_eq_of_lt (crcInit_lt _)

theorem owner_of_cvCfg : getF (cvCfg u v c) (cvF R.CV_CFG.OWNER u) = v.toNat / 4 % 2 := by
  simp only [cvCfg, cvF, idxF]
  rw [getF_setF_at_off _ _ _ (by decide), getF_setF_at_off _ _ _ (by decide), getF_setF_at_same _ _ _ (by decide)]
  exact Nat.mod_mod _ _

theorem poly_of_cvCfg : getF (cvCfg u v c) (cvF R.CV_CFG.POLY u) = v.toNat % 4 := by
  simp only [cvCfg, cvF, idxF]
  rw [getF_setF_at_off _ _ _ (by decide), getF_setF_at_off _ _ _ (by decide), getF_setF_at_bits _ _ _ (by decide) (by decide) (by decide),
    getF_setF_at_same _ _ _ (by decide)]
  exact Nat.mod_mod _ _

theorem getReg_cvCfg {off : Nat} (hc : off ≠ (cvF R.CV_CFG.POLY u).off) (hs : off ≠ (cvF R.CV_STATE.STATE u).off)
    (hn : off ≠ (cvF R.CV_COUNT.BYTES u).off) : getReg (cvCfg u v c) off = getReg c off := by
  have ho : off ≠ (cvF R.CV_CFG.OWNER u).off := hc
  simp only [cvCfg, setF]
  rw [getReg_setReg_ne _ _ hn, getReg_setReg_ne _ _ hs, getReg_setReg_ne _ _ ho, getReg_setReg_ne _ _ hc]

theorem match_of_cvExpect : getB (cvExpect u w c) (cvF R.CV_STATUS.MATCH u) = (w.toNat == cvResult c u) := by
  simp only [getB, cvExpect, setB, cvF, idxF]
  rw [getF_setF_at_bits _ _ _ (by decide) (by decide) (by decide), getF_setF_at_same _ _ _ (by decide)]
  cases w.toNat == cvResult c u <;> rfl

theorem mismatch_of_cvExpect : getB (cvExpect u w c) (cvF R.CV_STATUS.MISMATCH u) = (w.toNat != cvResult c u) := by
  simp only [getB, cvExpect, setB, cvF, idxF]
  rw [getF_setF_at_same _ _ _ (by decide), bne, bne]
  cases w.toNat == cvResult c u <;> rfl

theorem getReg_cvExpect {off : Nat} (h : off ≠ (cvF R.CV_STATUS.MATCH u).off) : getReg (cvExpect u w c) off = getReg c off := by
  have hm : off ≠ (cvF R.CV_STATUS.MISMATCH u).off := h
  simp only [cvExpect, setB, setF]
  rw [getReg_setReg_ne _ _ hm, getReg_setReg_ne _ _ h]

end

/-! ### Check values in parts (R249) -/

theorem crcFeedAll_append (poly : Nat) : ∀ (st : Nat) (a b : List Byte), crcFeedAll poly st (a ++ b) = crcFeedAll poly (crcFeedAll poly st a) b
  | _, [], _ => rfl
  | st, x :: a, b => crcFeedAll_append poly (crcFeed poly st x) a b

/-- Settles O19: each command is a function of the unit's registers, whose fields the lemmas above read back; feeding is a fold over the bytes. -/
theorem checkValueUnits : Obligations.CheckValueUnits := by
  refine ⟨fun s u v w hr hu hm => ⟨fun x hx => ⟨?free, ?owned⟩, ?state, ?cfg, ?expect⟩,
    fun poly st a b => (crcFeedAll_append poly st a b).symm, ?values⟩
  case free =>
    intro ho
    rw [exec_cvData hr hu hm hx, cvData_of_free ho, cvFeed, length_leBytes]
  case owned =>
    intro ho
    rw [exec_cvData hr hu hm hx, cvData_of_owned ho]
    rfl
  case state => exact exec_cvStateWrite hr hu hm w
  case cfg =>
    exact ⟨_, exec_cvCfgWrite hr hu hm v, rfl, poly_of_cvCfg u v _, owner_of_cvCfg u v _, state_of_cvCfg u v _, count_of_cvCfg u v _,
      fun _ => getReg_cvCfg u v _⟩
  case expect =>
    exact ⟨_, exec_cvExpect hr hu hm w, rfl, match_of_cvExpect u w _, mismatch_of_cvExpect u w _, fun _ => getReg_cvExpect u w _⟩
  case values =>
    rintro nine rfl
    decide +kernel

end Sys2Proof.Machine
end

section
/-! ## Proofs: frames

A header is eight words of packed fields (R239); a received frame meets the checks of R255 in their order, each of which assumes that those
before it have passed, unless an ingress delay holds it (R468). -/

namespace Sys2Proof.Machine

/-! ### The words of a header (R239) -/

/-- Reading the bytes of a number gives it back, cut to their count (R6). -/
theorem leNat_leBytes : ∀ n v : Nat, leNat (leBytes n v) = v % 256 ^ n
  | 0, v => by rw [Nat.pow_zero, Nat.mod_one]; rfl
  | n + 1, v => by rw [leBytes, leNat, leNat_leBytes n, BitVec.toNat_ofNat, Nat.pow_succ' (m := 256)]; exact Nat.mod_mul.symm

/-- The first bytes of a number and those of the rest of it are its bytes. -/
theorem leBytes_add : ∀ m n v : Nat, leBytes (m + n) v = leBytes m v ++ leBytes n (v / 256 ^ m)
  | 0, n, v => by simp [leBytes]
  | m + 1, n, v => by
    rw [Nat.succ_add, leBytes, leBytes, leBytes_add m, Nat.div_div_eq_div_mul, ← Nat.pow_succ', List.cons_append]

/-- Word `i` of a run of words is read back out of its four bytes. -/
theorem leNat_word : ∀ (l : List Nat) (i : Nat), leNat (((l.flatMap (leBytes 4)).drop (4 * i)).take 4) = l.getD i 0 % 2 ^ 32
  | [], i => by simp [leNat]
  | v :: l, 0 => by
    rw [List.flatMap_cons, Nat.mul_zero, List.drop_zero, List.take_left' (length_leBytes 4 v), leNat_leBytes]
    rfl
  | v :: l, i + 1 => by
    rw [List.flatMap_cons, Nat.mul_succ, Nat.add_comm, ← List.drop_drop, List.drop_left' (length_leBytes 4 v), leNat_word l i]
    rfl

/-- Word 0 of a header (R239). -/
def headerWord0 (h : Header) : Nat :=
  h.ver.toNat + h.cls.toNat * 2 ^ 4 + (if h.first then 1 else 0) * 2 ^ 7 + h.type.toNat * 2 ^ 8 + h.alive.toNat * 2 ^ 16 +
    h.rsv.toNat % 2 ^ 8 * 2 ^ 24

/-- Word 2 of a header (R239). -/
def headerWord2 (h : Header) : Nat :=
  h.len.toNat + h.rsv.toNat / 2 ^ 8 % 2 ^ 3 * 2 ^ 13 + h.port.toNat * 2 ^ 16 + h.rsv.toNat / 2 ^ 11 % 2 ^ 10 * 2 ^ 22

/-- Word 6 of a header (R239). -/
def headerWord6 (h : Header) : Nat := h.tag.toNat + h.fmt.toNat * 2 ^ 16 + h.status.toNat * 2 ^ 20 + h.rsv.toNat / 2 ^ 21 * 2 ^ 24

/-- The eight words of a header (R239). -/
def headerWords (h : Header) : List Nat :=
  [headerWord0 h, h.src.toNat + h.dst.toNat * 2 ^ 16, headerWord2 h, h.rosterVer.toNat, h.addr.toNat, h.addr.toNat / 2 ^ 32, headerWord6 h, h.arg.toNat]

theorem headerBytes_eq_words (h : Header) : headerBytes h = (headerWords h).flatMap (leBytes 4) := by
  simp only [headerBytes, headerWords, List.flatMap_cons, List.flatMap_nil, List.append_nil, List.append_assoc, leBytes_add 4 4]
  rfl

theorem length_headerBytes (h : Header) : (headerBytes h).length = 32 := by
  simp only [headerBytes, List.length_append, length_leBytes]

section
variable (h : Header)

theorem reserved_of_word0 : headerWord0 h % 2 ^ 32 / 2 ^ 24 % 2 ^ 8 = h.rsv.toNat % 2 ^ 8 := by
  unfold headerWord0
  split <;> omega

theorem reserved_of_word2_low : headerWord2 h % 2 ^ 32 / 2 ^ 13 % 2 ^ 3 = h.rsv.toNat / 2 ^ 8 % 2 ^ 3 := by
  unfold headerWord2
  omega

theorem reserved_of_word2_high : headerWord2 h % 2 ^ 32 / 2 ^ 22 % 2 ^ 10 = h.rsv.toNat / 2 ^ 11 % 2 ^ 10 := by
  unfold headerWord2
  omega

theorem reserved_of_word6 : headerWord6 h % 2 ^ 32 / 2 ^ 24 % 2 ^ 8 = h.rsv.toNat / 2 ^ 21 := by
  unfold headerWord6
  omega

end

/-- No field of a word reaches into the next, and the reserved bits are joined again out of their four pieces. -/
theorem headerOf_headerBytes (h : Header) : headerOf (headerBytes h) = h := by
  have bit : (if h.first then 1 else 0 : Nat) ≤ 1 := by split <;> decide
  obtain ⟨ver, cls, first, type, alive, src, dst, len, port, rosterVer, addr, tag, fmt, status, arg, rsv⟩ := h
  simp only [headerOf, headerBytes_eq_words, leNat_word, headerWords, Header.mk.injEq, List.getD_cons_zero, List.getD_cons_succ,
    reserved_of_word0, reserved_of_word2_low, reserved_of_word2_high, reserved_of_word6]
  simp only [headerWord0, headerWord2, headerWord6] at *
  refine ⟨?ver, ?cls, ?first, ?type, ?alive, ?src, ?dst, ?len, ?port, ?rosterVer, ?addr, ?tag, ?fmt, ?status, ?arg, ?rsv⟩
  case first => cases first <;> simp <;> omega
  all_goals
    apply BitVec.eq_of_toNat_eq
    simp only [BitVec.toNat_ofNat]
    omega

/-- Settles O26: a header is eight words, each read back out of its bytes, and a word gives back the fields packed into it. -/
theorem headerRoundTrip : Obligations.HeaderRoundTrip := fun h => ⟨length_headerBytes h, headerOf_headerBytes h⟩

/-! ### The checks in their order (R255) -/

/-- Without tension in force no check value is spoilt (R470). -/
theorem tenCrcHits_of_calm {c : Ctl} (h : c.ten = none) (dir p cls : Nat) : tenCrcHits c dir p cls = false := by
  simp [tenCrcHits, tenF, h]

/-- The test of order 5 passes an admission frame, and every frame of an admitted peer. -/
theorem not_unadmitted {c : Ctl} {h : Header} {n : Nat} (hh : isAdmission h = true ∨ peerIs c n 2 = true) :
    (!isAdmission h && !peerIs c n 2) = false := by
  rcases hh with h | h <;> simp [h]

/-- A roster version stands when it is the current one, or the previous one in the beat of its advance. -/
theorem staleVer_eq_false_iff {c : Ctl} {h : Header} :
    staleVer c h = false ↔ h.rosterVer.toNat = getF c R.PLACE_STATUS.ROSTER_VER ∨ some h.rosterVer.toNat = c.place.prevVer := by
  simp only [staleVer, Bool.and_eq_false_iff, bne_eq_false_iff_eq]

section
variable {rx : Rx} {c : Ctl} (hten : c.ten = none) (hport : portHears c rx.port = true)
include hten hport

/-- A frame whose check value differs is counted. -/
theorem selvedge_of_crc_bad (hcrc : frameCrc rx.frame ≠ rx.crc) : selvedge rx c = (satF (portF R.PORT_ERR0.CRC rx.port) 1 c, ⟨false, 0⟩) := by
  simp [selvedge, hport, tenCrcHits_of_calm hten, hcrc]

variable (hcrc : frameCrc rx.frame = rx.crc)
include hcrc

/-- A frame from outside the roster takes its port down. -/
theorem selvedge_of_outsider (hm : member c rx.frame.hdr.src.toNat = none) (hr : getB c R.SEL_STATUS.ROSTER = true) :
    selvedge rx c = (portDown rx.port 3 (satF R.SEL_CNT.OUT_OF_ROSTER 1 c), ⟨false, 0⟩) := by
  simp [selvedge, hport, tenCrcHits_of_calm hten, hcrc, hm, hr, downAdmission]

/-- With no roster loaded every frame is dropped. -/
theorem selvedge_of_no_roster (hm : member c rx.frame.hdr.src.toNat = none) (hr : getB c R.SEL_STATUS.ROSTER = false) :
    selvedge rx c = (c, ⟨false, 0⟩) := by
  simp [selvedge, hport, tenCrcHits_of_calm hten, hcrc, hm, hr]

variable (hm : (member c rx.frame.hdr.src.toNat).isSome = true)
include hm

theorem selvedge_of_quarantined (h3 : peerIs c rx.frame.hdr.src.toNat 3 = true) : selvedge rx c = (c, ⟨false, 0⟩) := by
  obtain ⟨m, hm⟩ := Option.isSome_iff_exists.1 hm
  simp [selvedge, hport, tenCrcHits_of_calm hten, hcrc, hm, h3]

variable (h3 : peerIs c rx.frame.hdr.src.toNat 3 = false)
include h3

/-- A frame for another device raises a LINK event. -/
theorem selvedge_of_misaddressed (hme : some rx.frame.hdr.dst.toNat ≠ c.place.me) :
    selvedge rx c = (raiseLinkPeer 0x06 (srcPort rx.port) rx.frame.hdr.src.toNat 0 c, ⟨false, 0⟩) := by
  obtain ⟨m, hm⟩ := Option.isSome_iff_exists.1 hm
  simp [selvedge, hport, tenCrcHits_of_calm hten, hcrc, hm, h3, hme]

variable (hme : some rx.frame.hdr.dst.toNat = c.place.me)
include hme

/-- A frame of a peer that is not admitted, other than an admission frame, quarantines that peer. -/
theorem selvedge_of_unadmitted (ha : isAdmission rx.frame.hdr = false) (h2 : peerIs c rx.frame.hdr.src.toNat 2 = false) :
    selvedge rx c = (quarantine rx.frame.hdr.src.toNat 0x7 rx.port (satF R.SEL_CNT.UNAUTH 1 c), ⟨false, 0⟩) := by
  obtain ⟨m, hm⟩ := Option.isSome_iff_exists.1 hm
  simp [selvedge, hport, tenCrcHits_of_calm hten, hcrc, hm, h3, hme, ha, h2]

variable (hheard : isAdmission rx.frame.hdr = true ∨ peerIs c rx.frame.hdr.src.toNat 2 = true)
include hheard

/-- A malformed frame of a peer that may send it quarantines that peer. -/
theorem selvedge_of_malformed (hmal : malformed c rx.frame = true) :
    selvedge rx c = (quarantine rx.frame.hdr.src.toNat 0x6 rx.port (satF R.SEL_CNT.MALFORMED 1 c), ⟨false, 0⟩) := by
  obtain ⟨m, hm⟩ := Option.isSome_iff_exists.1 hm
  simp [selvedge, hport, tenCrcHits_of_calm hten, hcrc, hm, h3, hme, not_unadmitted hheard, hmal]

variable (hmal : malformed c rx.frame = false)
include hmal

/-- A frame of a roster version that does not stand is counted. -/
theorem selvedge_of_stale (hver : staleVer c rx.frame.hdr = true) : selvedge rx c = (satF R.SEL_CNT.STALE 1 c, ⟨false, 0⟩) := by
  obtain ⟨m, hm⟩ := Option.isSome_iff_exists.1 hm
  simp [selvedge, hport, tenCrcHits_of_calm hten, hcrc, hm, h3, hme, not_unadmitted hheard, hmal, hver]

variable (hver : staleVer c rx.frame.hdr = false)
include hver

/-- A frame that came by another port than it names is delivered and counted. -/
theorem selvedge_of_misplaned (hq : rx.frame.hdr.port.toNat ≠ (logPort c rx.port).getD 0) :
    selvedge rx c = (lpeCount R.LPE_RX.COUNT ((logPort c rx.port).getD 0)
      (raiseLinkPeer 0x08 (srcPort rx.port) rx.frame.hdr.src.toNat rx.port (satF R.SEL_CNT2.MISPLANE 1 c)), ⟨true, 0⟩) := by
  obtain ⟨m, hm⟩ := Option.isSome_iff_exists.1 hm
  rw [selvedge_passes rx c m hten hport hcrc hm h3 hme hheard hmal hver]
  exact if_pos (bne_iff_ne.2 hq)

/-- Any other frame meets the alive test of its flow. -/
theorem selvedge_of_placed {q : Nat} (hq : rx.frame.hdr.port.toNat = q) (hl : (logPort c rx.port).getD 0 = q) :
    selvedge rx c =
      (let r := aliveTest rx.frame.hdr.src.toNat rx.frame.hdr.cls.toNat q rx.port rx.frame.hdr c
       if r.2.1 then (lpeCount R.LPE_RX.COUNT q r.1, ⟨true, r.2.2⟩) else (r.1, ⟨false, 0⟩)) := by
  obtain ⟨m, hm⟩ := Option.isSome_iff_exists.1 hm
  rw [selvedge_passes rx c m hten hport hcrc hm h3 hme hheard hmal hver, hl]
  exact if_neg (by simp [hq])

end

/-- A delivered frame has passed every check before the alive test. -/
theorem passed_of_deliver {rx : Rx} {c : Ctl} (hten : c.ten = none) (hport : portHears c rx.port = true) (hcrc : frameCrc rx.frame = rx.crc)
    (hd : (selvedge rx c).2.deliver = true) :
    (member c rx.frame.hdr.src.toNat).isSome = true ∧ peerIs c rx.frame.hdr.src.toNat 3 = false ∧ some rx.frame.hdr.dst.toNat = c.place.me ∧
      (isAdmission rx.frame.hdr = true ∨ peerIs c rx.frame.hdr.src.toNat 2 = true) ∧ malformed c rx.frame = false ∧
      staleVer c rx.frame.hdr = false := by
  have refused {t : Ctl} (h : selvedge rx c = (t, ⟨false, 0⟩)) : False := by
    rw [h] at hd
    cases hd
  have hm : (member c rx.frame.hdr.src.toNat).isSome = true := by
    cases hn : member c rx.frame.hdr.src.toNat with
    | some m => rfl
    | none =>
      cases hr : getB c R.SEL_STATUS.ROSTER with
      | true => exact (refused (selvedge_of_outsider hten hport hcrc hn hr)).elim
      | false => exact (refused (selvedge_of_no_roster hten hport hcrc hn hr)).elim
  have h3 := eq_false_of_ne_true fun h => refused (selvedge_of_quarantined hten hport hcrc hm h)
  have hme := Decidable.byContradiction fun h => refused (selvedge_of_misaddressed hten hport hcrc hm h3 h)
  have hheard : isAdmission rx.frame.hdr = true ∨ peerIs c rx.frame.hdr.src.toNat 2 = true := by
    refine Decidable.byContradiction fun hn => ?_
    obtain ⟨ha, h2⟩ := not_or.1 hn
    exact refused (selvedge_of_unadmitted hten hport hcrc hm h3 hme (eq_false_of_ne_true ha) (eq_false_of_ne_true h2))
  have hmal := eq_false_of_ne_true fun h => refused (selvedge_of_malformed hten hport hcrc hm h3 hme hheard h)
  have hver := eq_false_of_ne_true fun h => refused (selvedge_of_stale hten hport hcrc hm h3 hme hheard hmal h)
  exact ⟨hm, h3, hme, hheard, hmal, hver⟩

/-- Settles O27: each clause is the check of its order, those before it passed. -/
theorem receivedFrameChecks : Obligations.ReceivedFrameChecks := by
  intro rx c hten hport h peer q known mine heard formed ver fresh no
  refine ⟨selvedge_of_crc_bad hten hport, fun hcrc => ⟨selvedge_of_outsider hten hport hcrc, selvedge_of_no_roster hten hport hcrc,
    selvedge_of_quarantined hten hport hcrc, ?misaddressed, ?unadmitted, ?malformed, ?stale, ?misplaned, ?placed, ?delivered⟩⟩
  case misaddressed => exact fun ⟨hm, h3⟩ => selvedge_of_misaddressed hten hport hcrc hm h3
  case unadmitted => exact fun ⟨⟨hm, h3⟩, hme⟩ => selvedge_of_unadmitted hten hport hcrc hm h3 hme
  case malformed => exact fun ⟨⟨⟨hm, h3⟩, hme⟩, hheard⟩ => selvedge_of_malformed hten hport hcrc hm h3 hme hheard
  case stale =>
    intro ⟨⟨⟨⟨hm, h3⟩, hme⟩, hheard⟩, hmal⟩ hcur hprev
    refine selvedge_of_stale hten hport hcrc hm h3 hme hheard hmal (Bool.of_not_eq_false fun hs => ?_)
    exact (staleVer_eq_false_iff.1 hs).elim hcur hprev
  case misplaned =>
    intro ⟨⟨⟨⟨⟨hm, h3⟩, hme⟩, hheard⟩, hmal⟩, hver⟩
    exact selvedge_of_misplaned hten hport hcrc hm h3 hme hheard hmal (staleVer_eq_false_iff.2 hver)
  case placed =>
    intro ⟨⟨⟨⟨⟨hm, h3⟩, hme⟩, hheard⟩, hmal⟩, hver⟩ hq r
    have hs := selvedge_of_placed hten hport hcrc hm h3 hme hheard hmal (staleVer_eq_false_iff.2 hver) hq rfl
    exact ⟨fun hr => hs.trans (if_pos hr), fun hr => hs.trans (if_neg (ne_true_of_eq_false hr))⟩
  case delivered =>
    intro hd
    obtain ⟨hm, h3, hme, hheard, hmal, hver⟩ := passed_of_deliver hten hport hcrc hd
    exact ⟨⟨⟨⟨⟨hm, h3⟩, hme⟩, hheard⟩, hmal⟩, staleVer_eq_false_iff.1 hver⟩

/-! ### Frames held and released (R255, R468) -/

/-- A frame keeps the class and type that it has. -/
theorem typed_self (rx : Rx) : rx.typed rx.frame.hdr.cls.toNat rx.frame.hdr.type.toNat = rx := by
  simp [Rx.typed]

/-- A frame that no check lets through leaves what the checks did. -/
theorem receive_of_refused {rx : Rx} {d : Dev} {c : Ctl} (h : selvedge rx d.c = (c, ⟨false, 0⟩)) (f : Handler) : receive f rx d = { d with c := c } := by
  simp [receive, h]

section
variable {s : State} {rx : Rx} (hr : running s.dev.c = true)
include hr

theorem exec_malformedFrame : exec (.malformedFrame rx) s = .next (s.withDev (anyFrame rx s.dev)) := runDev_running _ s hr

theorem exec_ingressDelayRelease (p : Nat) : exec (.ingressDelayRelease p) s = .next (s.withDev (ingressRelease p s.dev)) := runDev_running _ s hr

end

section
variable {rx : Rx} {d : Dev}

/-- A frame under an ingress delay, or behind one, joins the frames held. -/
theorem anyFrame_of_held (h : ingressHolds d.c rx.port = true) :
    anyFrame rx d = { d with c := { d.c with ingress := d.c.ingress ++ [{ rx with time := rx.time + ingressDelay d.c rx.port }] } } := by
  rw [anyFrame, arrive, typed_self]
  exact if_pos h

/-- Any other meets the checks at once. -/
theorem anyFrame_of_free (h : ingressHolds d.c rx.port = false) : anyFrame rx d = receiveAny rx d := by
  rw [anyFrame, arrive, typed_self]
  exact if_neg (ne_true_of_eq_false h)

/-- The oldest frame held on a port leaves the frames held and meets the checks. -/
theorem ingressRelease_of_oldest {p : Nat} (h : d.c.ingress.find? (fun r => r.port == p) = some rx) :
    ingressRelease p d = receiveAny rx { d with c := { d.c with ingress := d.c.ingress.eraseP (fun r => r.port == p) } } := by
  simp only [ingressRelease, h]

end

/-- Settles O28: a frame is held or meets the checks, of which a malformed one fails that of order 6. -/
theorem framesHeldAndReleased : Obligations.FramesHeldAndReleased := by
  intro s rx hr c cls type
  refine ⟨fun hh => ?held, fun hh => ?free, fun hh hten hport hcrc hm h3 hme hheard hmal => ?malformed, fun p hp => ?released⟩
  case held => rw [exec_malformedFrame hr, anyFrame_of_held hh, typed_self]; rfl
  case free => rw [exec_malformedFrame hr, anyFrame_of_free hh, typed_self]; rfl
  case malformed =>
    rw [exec_malformedFrame hr, anyFrame_of_free hh, receiveAny,
      receive_of_refused (selvedge_of_malformed hten hport hcrc hm h3 hme hheard hmal)]
    rfl
  case released => rw [exec_ingressDelayRelease hr, ingressRelease_of_oldest hp]

end Sys2Proof.Machine
end

section
/-! ## Proofs: ports, lanes and lasers

A charge touches no register of a port (R384), and each command of a port is a case of its registers and state (R232 to R234, R263 to R268). -/

namespace Sys2Proof.Machine

/-! ### Commands of a port or lane (R445) -/

section
variable {s : State} {p : Nat} (hr : running s.dev.c = true)
include hr

theorem exec_portTrainingDone : exec (.portTrainingDone p) s = .next (s.withCtl (trainingDone p s.dev.c)) := runCtl_running _ s hr

theorem exec_portTrainingTimeout : exec (.portTrainingTimeout p) s = .next (s.withCtl (trainingTimeout p s.dev.c)) := runCtl_running _ s hr

theorem exec_pauseEnd : exec (.pauseEnd p) s = .next (s.withCtl (pauseEnd p s.dev.c)) := runCtl_running _ s hr

variable (hp : portReady s.dev.c p = true)
include hp

/-- A command of a port that is READY, while the module runs. -/
theorem runCtl_whenPort (f : Ctl → Ctl) : runCtl (whenPort p f) s = .next (s.withCtl (f s.dev.c)) := by
  rw [runCtl_running _ s hr, whenPort, if_pos hp]
  rfl

theorem exec_restart : exec (.restart p) s = .next (s.withCtl (portRestart p s.dev.c)) := runCtl_whenPort hr hp _

theorem exec_takeDown : exec (.takeDown p) s = .next (s.withCtl (portTakeDown p s.dev.c)) := runCtl_whenPort hr hp _

variable {l : Nat} (hl : l < 8)
include hl

/-- A command of one of its eight lanes. -/
theorem runCtl_whenLane (f : Ctl → Ctl) : runCtl (whenLane p l f) s = .next (s.withCtl (f s.dev.c)) := by
  rw [← runCtl_whenPort hr hp f, show whenLane p l f = whenPort p f from funext fun _ => if_pos hl]

theorem exec_laneFail : exec (.laneFail p l) s = .next (s.withCtl (rxLaneOut p l s.dev.c)) := runCtl_whenLane hr hp hl _

theorem exec_laserFail (dead : Bool) : exec (.laserFail p l dead) s = .next (s.withCtl (laserFail p l dead s.dev.c)) := runCtl_whenLane hr hp hl _

theorem exec_spareLaserSettled (lit : Bool) : exec (.spareLaserSettled p l lit) s = .next (s.withCtl (spareSettled p l lit s.dev.c)) :=
  runCtl_whenLane hr hp hl _

end

/-! ### A charge leaves every other register (R384, R386) -/

/-- Marking a unit as due is no matter of registers. -/
theorem regs_markDue (k : Nat) (c : Ctl) : (markDue k c).regs = c.regs := by
  unfold markDue
  dsimp only
  split <;> split <;> rfl

theorem getReg_markDue (k : Nat) (c : Ctl) (off : Nat) : getReg (markDue k c) off = getReg c off := by
  rw [getReg, getReg, regs_markDue]

/-- A finding that is charged to a unit writes the log's head, the accumulator and the notice words. -/
theorem getReg_chargeUnit (kind src : Nat) (c : Ctl) {off : Nat} (hh : off ≠ R.FAN_LOG_SEL.HEAD.off) (ha : off ≠ R.FAN_STATUS.ACC.off)
    (hn : off ∉ noticeWords) : getReg (chargeUnit kind src c) off = getReg c off := by
  have charged (f : FUnit → FUnit) (g : FanSt → FanSt) (x y : Nat) (c0 : Ctl) : getReg (markDue src (onUnit src f (setF R.FAN_STATUS.ACC x
      (setF R.FAN_LOG_SEL.HEAD y (onFan g c0))))) off = getReg c0 off := by
    rw [getReg_markDue]
    exact (getReg_setReg_ne _ _ ha).trans (getReg_setReg_ne _ _ hh)
  unfold chargeUnit finding
  dsimp only
  split
  · exact charged _ _ _ _ _
  · exact ((raiseAt_notice _ _ _ _ _ _ _).2 off hn).trans (charged _ _ _ _ _)

/-! ### Lasers (R234, R384) -/

/-- The registers of the lanes lie above those that a charge writes. -/
theorem getF_chargeUnit_lanes (kind src p l : Nat) (f : Fld) (hf : R.PORT_LANES.adr ≤ f.off) (c : Ctl) :
    getF (chargeUnit kind src c) (lanesF f p l) = getF c (lanesF f p l) := by
  have below : ∀ o ∈ R.FAN_LOG_SEL.HEAD.off :: R.FAN_STATUS.ACC.off :: noticeWords, o < R.PORT_LANES.adr := by decide
  have apart : ∀ o ∈ R.FAN_LOG_SEL.HEAD.off :: R.FAN_STATUS.ACC.off :: noticeWords, (lanesF f p l).off ≠ o :=
    fun o ho => Nat.ne_of_gt (Nat.lt_of_lt_of_le (below o ho) (Nat.le_trans hf (Nat.le_add_right _ _)))
  rw [getF, getF, getReg_chargeUnit kind src c (apart _ List.mem_cons_self) (apart _ (List.mem_cons_of_mem _ List.mem_cons_self))
    fun hn => apart _ (List.mem_cons_of_mem _ (List.mem_cons_of_mem _ hn)) rfl]

/-- Two changes that agree at a state, and with its records gathered, are the same change of the cycle. -/
theorem inCycle_congr {f g : Ctl → Ctl} {c : Ctl} (h : f c = g c) (hg : f (gatherStart c) = g (gatherStart c)) : inCycle f c = inCycle g c := by
  rw [inCycle, inCycle, h, hg]

section
variable (p l : Nat) {c : Ctl}

/-- A laser that fails but works on is charged, and its spare is lit. -/
theorem laserFail_of_working : laserFail p l false c = inCycle (fun c => lightSpare p l (chargeUnit kLaser (srcPort p) c)) c := rfl

/-- A lane whose own laser is dead is out of service as well. -/
theorem laserFail_of_dead (hs : getF c (lanesF R.PORT_LANES.SPARE_LASER p l) = 0) :
    laserFail p l true c = inCycle (fun c => txLaneOut p l (lightSpare p l (chargeUnit kLaser (srcPort p) c))) c := by
  have onOwn (c0 : Ctl) (h : getF c0 (lanesF R.PORT_LANES.SPARE_LASER p l) = 0) :
      getF (chargeUnit kLaser (srcPort p) c0) (lanesF R.PORT_LANES.SPARE_LASER p l) = 0 :=
    (getF_chargeUnit_lanes _ _ _ _ _ (by decide) _).trans h
  refine inCycle_congr ?_ ?_
  · simp [onOwn c hs]
  · simp [onOwn (gatherStart c) hs]

theorem rxLaneOut_of_used (h : (portSt c p).rxOut.getLsbD l = false) :
    rxLaneOut p l c = chargeUnit kLane (srcPort p)
      (setF (lanesF R.PORT_LANES.RX_ACTIVE p l) 0 (setPortSt p (fun x => { x with rxOut := x.rxOut ||| laneBit l }) c)) :=
  if_neg (ne_true_of_eq_false h)

theorem rxLaneOut_of_out (h : (portSt c p).rxOut.getLsbD l = true) : rxLaneOut p l c = c := if_pos h

/-- A spare laser that has settled waits for the boundary. -/
theorem spareSettled_of_lit (h : (portSt c p).lighting.getLsbD l = true) : spareSettled p l true c =
    setPortSt p (fun x => { x with lighting := x.lighting &&& ~~~ laneBit l, settled := x.settled ||| laneBit l }) c := by
  simp [spareSettled, h]

/-- One that fails leaves the lane out of service for good. -/
theorem spareSettled_of_failed (h : (portSt c p).lighting.getLsbD l = true) :
    spareSettled p l false c = laserDead p l (chargeUnit kLaser (srcPort p) c) := by
  simp [spareSettled, h]

end

/-! ### Training, take-down, pauses (R233, R263, R267) -/

@[simp] theorem portSt_setF (f : Fld) (x : Nat) (c : Ctl) (p : Nat) : portSt (setF f x c) p = portSt c p := rfl

@[simp] theorem portSt_setPortSt_same (p : Nat) (f : PortSt → PortSt) (c : Ctl) : portSt (setPortSt p f c) p = f (portSt c p) := by
  simp [portSt, setPortSt, Tab.getD]

/-- A width never exceeds the eight lanes of a direction. -/
theorem laneWidth_le (dead : BitVec 8) : laneWidth dead ≤ 8 := by
  unfold laneWidth
  dsimp only
  repeat' split
  all_goals decide

/-- A port that has trained: UP at once, with the widths of its lanes in service, and out of use until the boundary. -/
def portTrained (p : Nat) (c : Ctl) : Ctl :=
  setF (portF R.PORT_STATUS.STATE p) 2 (setF (portF R.PORT_STATUS.DOWN_CAUSE p) 0 (setWidths p
    (setPortSt p (fun s => { s with fresh := true, ready := !getB c (portF R.PORT_STATUS.MAPPED p) }) c)))

section
variable (p : Nat) (c : Ctl)

theorem state_of_portTrained : getF (portTrained p c) (portF R.PORT_STATUS.STATE p) = 2 := by
  simp only [portTrained, portF]
  rw [getF_setF_at_same _ _ _ (by decide)]
  rfl

theorem cause_of_portTrained : getF (portTrained p c) (portF R.PORT_STATUS.DOWN_CAUSE p) = 0 := by
  simp only [portTrained, portF]
  rw [getF_setF_at_bits _ _ _ (by decide) (by decide) (by decide), getF_setF_at_same _ _ _ (by decide)]
  rfl

theorem txWidth_of_portTrained : getF (portTrained p c) (portF R.PORT_STATUS.TX_WIDTH p) = laneWidth (portSt c p).txOut := by
  simp only [portTrained, setWidths, portF, portSt_setPortSt_same]
  rw [getF_setF_at_bits _ _ _ (by decide) (by decide) (by decide), getF_setF_at_bits _ _ _ (by decide) (by decide) (by decide),
    getF_setF_at_off _ _ _ (by decide), getF_setF_at_off _ _ _ (by decide), getF_setF_at_same _ _ _ (by decide)]
  exact Nat.mod_eq_of_lt (Nat.lt_of_le_of_lt (laneWidth_le _) (by decide))

theorem rxWidth_of_portTrained : getF (portTrained p c) (portF R.PORT_STATUS.RX_WIDTH p) = laneWidth (portSt c p).rxOut := by
  simp only [portTrained, setWidths, portF, portSt_setPortSt_same]
  rw [getF_setF_at_bits _ _ _ (by decide) (by decide) (by decide), getF_setF_at_bits _ _ _ (by decide) (by decide) (by decide),
    getF_setF_at_off _ _ _ (by decide), getF_setF_at_off _ _ _ (by decide), getF_setF_at_bits _ _ _ (by decide) (by decide) (by decide),
    getF_setF_at_same _ _ _ (by decide)]
  exact Nat.mod_eq_of_lt (Nat.lt_of_le_of_lt (laneWidth_le _) (by decide))

theorem fresh_of_portTrained : (portSt (portTrained p c) p).fresh = true := by
  simp only [portTrained, setWidths, portSt_setF, portSt_setPortSt_same]

end

section
variable {p : Nat} {c : Ctl}

/-- No lane locks while the fabric clock is missing. -/
theorem trainingDone_of_no_clock (h : c.pwr.noFabric = true) : trainingDone p c = c := by
  simp [trainingDone, h]

theorem portRestart_of_down (hs : getF c (portF R.PORT_STATUS.STATE p) = 4) (hl : portLoop c p = false) :
    portRestart p c = setF (portF R.PORT_STATUS.STATE p) 1 c := by
  rw [portRestart, hs, hl]
  rfl

variable (hp : p < 38)
include hp

theorem trainingDone_of_lanes (hs : getF c (portF R.PORT_STATUS.STATE p) = 1) (hc : c.pwr.noFabric = false)
    (ht : laneWidth (portSt c p).txOut ≠ 0) (hr : laneWidth (portSt c p).rxOut ≠ 0) : trainingDone p c = portTrained p c := by
  rw [trainingDone, if_pos ⟨hp, hs, hc⟩]
  exact if_neg (not_or.2 ⟨ht, hr⟩)

theorem trainingTimeout_of_training (hs : getF c (portF R.PORT_STATUS.STATE p) = 1) : trainingTimeout p c = portDown p downTrain c :=
  if_pos ⟨hp, hs⟩

theorem pauseEnd_of_paused (hs : getF c (portF R.PORT_STATUS.STATE p) = 3) :
    pauseEnd p c = flushWait (setF (portF R.PORT_STATUS.STATE p) 2 c) := if_pos ⟨hp, hs⟩

end

/-- Settles O25: each command is a function of the port's registers and state, and each clause a case of it. -/
theorem lanesLasersAndPorts : Obligations.LanesLasersAndPorts := by
  refine ⟨fun s p l dead hr hl hp => ⟨fun h => ?used, fun h => ?out, ?working, fun hd hs => ?dead, fun h => ?lit, fun h => ?failed⟩,
    fun s p hr hp => ⟨fun _ hc => ?clock, fun hs hc ht hx => ?trained, fun hs => ?timeout, fun hm hs hx => ?restart, fun hm => ?takeDown,
      fun hs => ?pause⟩⟩
  case used => rw [exec_laneFail hr hp hl, rxLaneOut_of_used p l h]
  case out => rw [exec_laneFail hr hp hl, rxLaneOut_of_out p l h]; rfl
  case working => rw [exec_laserFail hr hp hl, laserFail_of_working]
  case dead => rw [hd, exec_laserFail hr hp hl, laserFail_of_dead p l hs]
  case lit => rw [exec_spareLaserSettled hr hp hl, spareSettled_of_lit p l h]
  case failed => rw [exec_spareLaserSettled hr hp hl, spareSettled_of_failed p l h]
  case clock => rw [exec_portTrainingDone hr, trainingDone_of_no_clock hc]; rfl
  case trained =>
    refine ⟨s.withCtl (portTrained p s.dev.c), ?_, rfl, state_of_portTrained p _, cause_of_portTrained p _, txWidth_of_portTrained p _,
      rxWidth_of_portTrained p _, fresh_of_portTrained p _⟩
    rw [exec_portTrainingDone hr, trainingDone_of_lanes hp hs hc ht hx]
  case timeout => rw [exec_portTrainingTimeout hr, trainingTimeout_of_training hp hs]; rfl
  case restart => rw [exec_restart hr hm, portRestart_of_down hs hx]
  case takeDown => exact exec_takeDown hr hm
  case pause => rw [exec_pauseEnd hr, pauseEnd_of_paused hp hs]

end Sys2Proof.Machine
end

section
/-! ## Proofs: admission

Handshakes are functions of a peer's row: what each admission frame does (R253 to R256), and the deadlines, retries and commands of the host
(R244, R252, R263, R274). -/

namespace Sys2Proof.Machine

/-! ### A peer's row -/

section
variable {c : Ctl} {n : Nat} {p : Peer} (hp : peerOf c n = some p)
include hp

/-- A change of a peer that is in the roster is seen in its row. -/
theorem peerOf_onPeer_same (f : Peer → Peer) : peerOf (onPeer n f c) n = some (f p) := by
  rw [peerOf] at hp
  simp [peerOf, onPeer, Tab.adjust, hp]

theorem peerIs_of_peerOf (k : Nat) : peerIs c n k = (p.state == k) := by
  rw [peerOf] at hp
  simp [peerIs, hp]

/-- A handshake that is under way takes no further room (R252). -/
theorem handshakeFree_of_active (ha : p.active = true) : handshakeFree c n = true := by
  rw [peerOf] at hp
  simp [handshakeFree, hp, ha]

end

/-! ### What each admission frame does (R253, R254, R256) -/

section
variable {rx : Rx} {d : Dev} {p : Peer} (hp : peerOf d.c rx.peer = some p) (lost : Nat)
include hp

theorem gotHello_of_no_level (hl : levelOk (leNat (rx.frame.payload.take 4) % 16) = false) :
    gotHello lost rx d = onCtl (admitReject rx.peer 5 rx.port) d := by
  simp [gotHello, onCtl, hp, hl]

/-- The first HELLO of a handshake under way answers this device's own, with the nonce of that. -/
theorem gotHello_of_first (hl : levelOk (leNat (rx.frame.payload.take 4) % 16) = true) (ha : p.active = true) (ht : p.theirs = none)
    {theirs : BitVec 256} (hn : BitVec.ofNat 256 (leNat ((rx.frame.payload.drop 72).take 32)) = theirs) :
    gotHello lost rx d = onCtl (fun c =>
      let c := onPeer rx.peer (fun x => { x with theirs := some (theirs, leNat (rx.frame.payload.take 4) % 16) }) c
      admitWait rx.peer (sendAny (out 0 0x11 rx.peer (provePayload c rx.peer p.nonce theirs)) c)) d := by
  simp [gotHello, answerHello, onCtl, hp, hl, ha, ht, hn, handshakeFree_of_active hp ha, peerOf_onPeer_same hp]

/-- A PROVE that fails a check has its sender rejected and quarantined. -/
theorem gotProve_of_failed {theirs : BitVec 256} {al r : Nat} (ha : p.active = true) (ht : p.theirs = some (theirs, al))
    (hc : proveCheck d.c rx.peer p theirs al rx.frame.hdr.ver.toNat rx.frame.payload = some r) :
    gotProve lost rx d = onCtl (admitReject rx.peer r rx.port) d := by
  simp [gotProve, onCtl, hp, ha, ht, hc]

/-- One that passes is answered with ADMITTED. -/
theorem gotProve_of_passed {theirs : BitVec 256} {al : Nat} (ha : p.active = true) (ht : p.theirs = some (theirs, al))
    (hc : proveCheck d.c rx.peer p theirs al rx.frame.hdr.ver.toNat rx.frame.payload = none) :
    gotProve lost rx d = onCtl (fun c => admitDone rx.peer (admitWait rx.peer (onPeer rx.peer (fun x => { x with sentAdmitted := true })
      (sendAny (out 0 0x12 rx.peer (leBytes 4 (min alMax al))) c)))) d := by
  simp [gotProve, onCtl, hp, ha, ht, hc]

theorem gotAdmitted_of_active (ha : p.active = true) :
    gotAdmitted lost rx d = onCtl (fun c => admitDone rx.peer (onPeer rx.peer (fun x => { x with gotAdmitted := true }) c)) d := by
  simp [gotAdmitted, onCtl, hp, ha]

end

section
variable {s : State} {rx : Rx} {c : Ctl}

theorem exec_hello (hd : Delivered s 0 0x10 rx c) : exec (.hello rx) s = .next (s.withDev (gotHello 0 (rx.typed 0 0x10) { s.dev with c := c })) :=
  arrive_delivered s 0 0x10 rx c gotHello hd

theorem exec_prove (hd : Delivered s 0 0x11 rx c) : exec (.prove rx) s = .next (s.withDev (gotProve 0 (rx.typed 0 0x11) { s.dev with c := c })) :=
  arrive_delivered s 0 0x11 rx c gotProve hd

theorem exec_admitted (hd : Delivered s 0 0x12 rx c) :
    exec (.admitted rx) s = .next (s.withDev (gotAdmitted 0 (rx.typed 0 0x12) { s.dev with c := c })) := arrive_delivered s 0 0x12 rx c gotAdmitted hd

theorem exec_reject (hd : Delivered s 0 0x13 rx c) :
    exec (.reject rx) s = .next (s.withDev (gotReject 0 (rx.typed 0 0x13) { s.dev with c := c })) := arrive_delivered s 0 0x13 rx c gotReject hd

end

/-- Settles O29: a delivered frame goes to the handler of its type, and each clause is a case of that. -/
theorem admissionFrames : Obligations.AdmissionFrames := by
  intro s rx c p n pay hp
  refine ⟨fun hd hl => ?noLevel, fun hd hl ha ht => ?first, fun theirs al hd ha ht => ?prove, fun hd ha => ?admitted, fun hd => ?reject⟩
  case noLevel => rw [exec_hello hd, gotHello_of_no_level (rx := rx.typed 0 0x10) hp 0 hl]; rfl
  case first =>
    intro theirs c1
    rw [exec_hello hd, gotHello_of_first (rx := rx.typed 0 0x10) hp 0 hl ha ht rfl]
    rfl
  case prove =>
    rw [exec_prove hd]
    cases hc : proveCheck c n p theirs al rx.frame.hdr.ver.toNat pay with
    | some r => rw [gotProve_of_failed (rx := rx.typed 0 0x11) hp 0 ha ht hc]; rfl
    | none => rw [gotProve_of_passed (rx := rx.typed 0 0x11) hp 0 ha ht hc]; rfl
  case admitted => rw [exec_admitted hd, gotAdmitted_of_active (rx := rx.typed 0 0x12) hp 0 ha]; rfl
  case reject => rw [exec_reject hd]; rfl

/-! ### Deadlines and retries (R252, R263) -/

section
variable {s : State} (hr : running s.dev.c = true)
include hr

theorem exec_admissionDeadline (n : Nat) : exec (.admissionDeadline n) s = .next (s.withCtl (admissionDue n s.dev.c)) := runCtl_running _ s hr

theorem exec_admissionRetry (n : Nat) : exec (.admissionRetry n) s = .next (s.withCtl (admissionRetryDue n s.dev.c)) := runCtl_running _ s hr

theorem exec_flowContextFree (k : Nat) : exec (.flowContextFree k) s = .next (s.withCtl (flowFree k s.dev.c)) := runCtl_running _ s hr

variable (hm : mainReady s.dev.c 9 = true)
include hm

theorem exec_clearQuar : exec .clearQuar s = .next (s.withCtl (clearQuar s.dev.c)) := runCtl_whenReady _ hr hm

theorem exec_retry : exec .retry s = .next (s.withCtl (retryPeer s.dev.c)) := runCtl_whenReady _ hr hm

end

/-- The next retry of an UNREACHABLE peer lies 16 admission deadlines away (R263). -/
def retryLater (n : Nat) (c : Ctl) : Ctl := onPeer n (fun x => { x with deadline := some (c.ticks + 16 * admitBeats c) }) c

/-- A peer whose quarantine the host has ended is PENDING, with no attempt and no reason (R274). -/
def quarantineEnded (n : Nat) (c : Ctl) : Ctl := onPeer n (fun x => { x with attempts := 0, reason := 0 }) (setPeerState n 1 c)

section
variable {c : Ctl} {n : Nat} {p : Peer}

/-- A handshake past its deadline is tried again, up to three times. -/
theorem admissionDue_of_tries (hp : peerOf c n = some p) (hd : peerDue c n 1 = true) (ha : p.attempts < 3) : admissionDue n c = sendHello n c := by
  simp [admissionDue, hd, hp, ha]

/-- After the third the peer is UNREACHABLE. -/
theorem admissionDue_of_tried (hp : peerOf c n = some p) (hd : peerDue c n 1 = true) (ha : 3 ≤ p.attempts) :
    admissionDue n c = handshakeFill (raiseLinkPeer 0x0C srcSelvedge n 0
      (onPeer n (fun x => { x with deadline := some (c.ticks + 16 * admitBeats c) }) (setPeerState n 4 c))) := by
  simp [admissionDue, hd, hp, Nat.not_lt.2 ha]

theorem admissionRetryDue_of_free (hd : peerDue c n 4 = true) (hf : handshakeFree c n = true) :
    admissionRetryDue n c = sendHello n (retryLater n c) := by
  rw [admissionRetryDue, hd, hf]
  rfl

/-- With 64 handshakes under way a new one waits. -/
theorem admissionRetryDue_of_full (hf : handshakeFree c n = false) : admissionRetryDue n c = c := by
  simp [admissionRetryDue, hf]

/-- CLEAR_QUAR ends a quarantine, and a handshake starts or waits its turn. -/
theorem clearQuar_of_quarantined (hn : selPeer c = n) (hp : peerOf c n = some p) (hs : p.state = 3) :
    clearQuar c = if handshakeFree (quarantineEnded n c) n then sendHello n (quarantineEnded n c) else quarantineEnded n c := by
  subst hn
  rw [clearQuar, peerIs_of_peerOf hp, hs]
  rfl

theorem clearQuar_of_other (hn : selPeer c = n) (hp : peerOf c n = some p) (hs : p.state ≠ 3) : clearQuar c = c := by
  subst hn
  rw [clearQuar, peerIs_of_peerOf hp, beq_false_of_ne hs]
  rfl

/-- RETRY tries an UNREACHABLE peer at once, or at the next boundary that finds room. -/
theorem retryPeer_of_unreachable (hn : selPeer c = n) (hp : peerOf c n = some p) (hs : p.state = 4) :
    retryPeer c = if handshakeFree c n then sendHello n (retryLater n c) else onPeer n (fun x => { x with deadline := some c.ticks }) c := by
  subst hn
  rw [retryPeer, peerIs_of_peerOf hp, hs]
  rfl

theorem retryPeer_of_other (hn : selPeer c = n) (hp : peerOf c n = some p) (hs : p.state ≠ 4) : retryPeer c = c := by
  subst hn
  rw [retryPeer, peerIs_of_peerOf hp, beq_false_of_ne hs]
  rfl

/-- A flow context without outstanding request is freed when its flow has been still for 16 beats, and frames that wait may go. -/
theorem flowFree_of_still {k : Nat} {f : Flow} (hf : c.flows.look k = some f) (hb : flowBusy c f = false) (hl : f.last + 16 ≤ c.ticks) :
    flowFree k c = flushWait { c with flows := c.flows.del k } := by
  simp [flowFree, hf, hb, hl]

end

/-- Settles O30: each command is a function of the peer's row, or of the flow's, and each clause a case of it. -/
theorem admissionTimers : Obligations.AdmissionTimers := by
  intro s n k p f hr c later cleared hp
  refine ⟨fun hd ha => ?again, fun hd ha => ?unreachable, fun hd hf => ?retried, fun hf => ?waits,
    fun hm hn hs hf => ?cleared, fun hm hn hs hf => ?clearedWaits, fun hm hn hs hf => ?retry,
    fun hm hn hs hf => ?retryWaits, fun hm hn hs => ⟨?noQuarantine, ?noRetry⟩, fun hf hb hl => ?flow⟩
  case again => rw [exec_admissionDeadline hr, admissionDue_of_tries hp hd ha]
  case unreachable => rw [exec_admissionDeadline hr, admissionDue_of_tried hp hd ha]
  case retried => rw [exec_admissionRetry hr, admissionRetryDue_of_free hd hf]; rfl
  case waits => rw [exec_admissionRetry hr, admissionRetryDue_of_full hf]; rfl
  case cleared => rw [exec_clearQuar hr hm, (clearQuar_of_quarantined hn hp hs).trans (if_pos hf)]; rfl
  case clearedWaits => rw [exec_clearQuar hr hm, (clearQuar_of_quarantined hn hp hs).trans (if_neg (ne_true_of_eq_false hf))]; rfl
  case retry => rw [exec_retry hr hm, retryPeer_of_unreachable hn hp hs, if_pos hf]; rfl
  case retryWaits => rw [exec_retry hr hm, retryPeer_of_unreachable hn hp hs, if_neg (ne_true_of_eq_false hf)]
  case noQuarantine => rw [exec_clearQuar hr hm, clearQuar_of_other hn hp (by rw [hs]; decide)]; rfl
  case noRetry => rw [exec_retry hr hm, retryPeer_of_other hn hp (by rw [hs]; decide)]; rfl
  case flow => rw [exec_flowContextFree hr, flowFree_of_still hf hb hl]

end Sys2Proof.Machine
end

section
/-! ## Proofs: responses to this device's requests

A response or a deadline is a function of the table of outstanding requests (R243, R263 to R265, R469). -/

namespace Sys2Proof.Machine

/-! ### A response (R264, R265, R469) -/

section
variable {rx : Rx} {d : Dev} (isRead : Bool) (lost : Nat)

/-- A response that matches no request is counted as late. -/
theorem gotResponse_of_unknown (hq : d.c.reqs.look rx.tag = none) :
    gotResponse isRead lost rx d = onCtl (satF (portF R.PORT_ERR1.LATE rx.port) 1) d := by
  simp only [gotResponse, hq]

variable {isRead : Bool} {r : Req} (hq : d.c.reqs.look rx.tag = some r)
include hq

/-- So is one from another peer or of another kind than its request. -/
theorem gotResponse_of_mismatch (h : r.peer ≠ rx.peer ∨ r.isRead ≠ isRead) :
    gotResponse isRead lost rx d = onCtl (satF (portF R.PORT_ERR1.LATE rx.port) 1) d := by
  simp only [gotResponse, hq]
  exact if_pos (h.imp_right .inl)

variable (hn : r.peer = rx.peer) (hk : r.isRead = isRead)
include hn hk

/-- Forced coincidence holds a response for the boundary. -/
theorem gotResponse_of_coinciding (hc : coincides d.c r = true) :
    gotResponse isRead lost rx d = onCtl (fun c => tenSpend R.TEN_COINCIDE.COUNT
      { c with reqs := c.reqs.put rx.tag { r with held := some ⟨rx.port, rx.status, rx.frame.payload⟩ } }) d := by
  have hh : r.held = none := by
    simp only [coincides, Bool.and_eq_true, Option.isNone_iff_eq_none] at hc
    exact hc.2
  simp [gotResponse, hq, hn, hk, hh, hc]

/-- Any other response completes its request. -/
theorem gotResponse_of_match (hh : r.held = none) (hc : coincides d.c r = false) :
    gotResponse isRead lost rx d = reqAnswer r rx.status rx.frame.payload (onCtl (fun c => { c with reqs := c.reqs.del rx.tag }) d) := by
  simp [gotResponse, hq, hn, hk, hh, hc]

end

/-- A delivered response goes to the handler of its kind of request. -/
theorem exec_response {s : State} {rx : Rx} {c : Ctl} {x : Instr × Nat × Bool} (hx : x ∈ [(Instr.readRsp rx, 0x02, true), (.ack rx, 0x05, false)])
    (hd : Delivered s 2 x.2.1 rx c) : exec x.1 s = .next (s.withDev (gotResponse x.2.2 0 (rx.typed 2 x.2.1) { s.dev with c := c })) := by
  simp only [List.mem_cons, List.not_mem_nil, or_false] at hx
  obtain rfl | rfl := hx
  · exact arrive_delivered s 2 0x02 rx c _ hd
  · exact arrive_delivered s 2 0x05 rx c _ hd

/-! ### A deadline (R263) -/

section
variable {d : Dev} {tag : Nat} {r : Req} (hq : d.c.reqs.look tag = some r)
include hq

theorem reqDue_of_early (ht : d.c.ticks < r.deadline) : reqDue tag d = d := by
  simp [reqDue, hq, Nat.not_le.2 ht]

/-- A request without a response answers zeros. -/
theorem reqDue_of_expired (ht : r.deadline ≤ d.c.ticks) (hh : r.held = none) : reqDue tag d = reqExpire tag r d := by
  simp [reqDue, hq, ht, hh]

end

theorem exec_rmaDeadline {s : State} (hr : running s.dev.c = true) (tag : Nat) :
    exec (.rmaDeadline tag) s = .next (s.withDev (reqDue tag s.dev)) := runDev_running _ s hr

/-- Settles O44: a response and a deadline are functions of the table of requests, and each clause a case of them. -/
theorem remoteResponses : Obligations.RemoteResponses := by
  intro s rx c r tag late freed
  refine ⟨fun x hx hd => ⟨fun hq => ?unknown, fun hq hne => ?mismatch, fun hq hn hk hh hc => ?answered, fun hq hn hk hc => ?held⟩,
    fun hr hq ht => ?early, fun hr hq ht hh => ?expired⟩
  case unknown => rw [exec_response hx hd, gotResponse_of_unknown (rx := rx.typed 2 x.2.1) _ 0 hq]; rfl
  case mismatch => rw [exec_response hx hd, gotResponse_of_mismatch (rx := rx.typed 2 x.2.1) 0 hq hne]; rfl
  case answered => rw [exec_response hx hd, gotResponse_of_match (rx := rx.typed 2 x.2.1) 0 hq hn hk hh hc]; rfl
  case held => rw [exec_response hx hd, gotResponse_of_coinciding (rx := rx.typed 2 x.2.1) 0 hq hn hk hc]; rfl
  case early => rw [exec_rmaDeadline hr, reqDue_of_early hq ht]; rfl
  case expired => rw [exec_rmaDeadline hr, reqDue_of_expired hq ht hh]; rfl

end Sys2Proof.Machine
end

section
/-! ## Proofs: collectives and the vote

A COLL pick of TS begins a collective or the vote, and a frame of the class COLL is either stray or heard and handled (R287 to R296). -/

namespace Sys2Proof.Machine

/-! ### A collective starts (R288 to R290, R293) -/

/-- The five types of collective have one start (R288). -/
theorem exec_collStart {s : State} {p : Nat} {x : Instr × Nat} (hr : running s.dev.c = true) (hp : p < 72)
    (hx : x ∈ [(Instr.reduceScatter p, 1), (.allReduce p, 2), (.allGather p, 3), (.broadcast p, 4), (.ringPass p, 5)]) :
    exec x.1 s = .next (s.withDev (collStart x.2 p s.dev)) := by
  simp only [List.mem_cons, List.not_mem_nil, or_false] at hx
  obtain rfl | rfl | rfl | rfl | rfl := hx <;> exact runDev_onCore _ hr hp

section
variable {d : Dev} {p : Nat} {run : Running} (hc : curRun d.c p 5 opColl = some run)
include hc

/-- The command of another TYPE leaves the pick alone. -/
theorem collStart_of_other_type {ty : Nat} (ht : imgF run.image 22 0 8 ≠ ty) : collStart ty p d = d := by
  simp only [collStart, hc, bne_iff_ne.2 ht, if_true]

/-- That of the pick's TYPE marks the COLL_ID used, reads the input, and goes. -/
theorem collStart_of_type {ty rank : Nat} {members : List Nat} (ht : imgF run.image 22 0 8 = ty)
    (hg : groupRank d.c (imgF run.image 52 0 12) = some (members, rank)) {r0 : CollRun} (h0 : collOf d.c run members rank = r0) :
    collStart ty p d =
      collGo p (inCycleDev (collFetch p run.image { r0 with undef := r0.undef || collClash d.c p run r0 }) (onCtl (collMark p r0.id) d)) := by
  subst ht h0
  simp only [collStart, hc, hg, bne_self_eq_false, Bool.false_eq_true, if_false]

end

/-- A collective that runs sends its CREADYs and what it may. -/
theorem collGo_of_running {d : Dev} {p : Nat} {r : CollRun} (h : d.c.coll.runs.look p = some r) :
    collGo p d = collSettle p (collBegin p r (onCtl (fun c => r.sources.foldl (fun c q => collSend r ⟨q, 0x04, 0, []⟩ c) c) d)) := by
  simp only [collGo, h]

/-- One that stopped at absent input does not. -/
theorem collGo_of_none {d : Dev} {p : Nat} (h : d.c.coll.runs.look p = none) : collGo p d = d := by
  simp only [collGo, h]

/-- Settles O46: the pick of the command's TYPE marks and fetches its collective, which then goes unless the fetch stopped the pick. -/
theorem collectivesStart : Obligations.CollectivesStart := by
  intro s p rank members run x hr hp hx hc hg r0 r1 again marked fetched
  have start : imgF run.image 22 0 8 = x.2 → exec x.1 s = .next (s.withDev (collGo p fetched)) := fun ht => by
    rw [exec_collStart hr hp hx, collStart_of_type hc ht hg rfl]
    rfl
  refine ⟨fun ht => ⟨fun r hl => ?runs, fun hl => ?stopped⟩, fun ht => ?other, rfl, rfl, rfl, rfl⟩
  case runs => rw [start ht, collGo_of_running hl]
  case stopped => rw [start ht, collGo_of_none hl]
  case other => rw [exec_collStart hr hp hx, collStart_of_other_type hc ht]; rfl

/-! ### A COLL frame is stray, or heard (R293, R294) -/

section
variable {s : State} {rx : Rx} {c : Ctl}

theorem exec_part (hd : Delivered s 1 0x01 rx c) : exec (.part rx) s = .next (s.withDev (gotPart 0 (rx.typed 1 0x01) { s.dev with c := c })) :=
  arrive_delivered s 1 0x01 rx c gotPart hd

theorem exec_data (hd : Delivered s 1 0x02 rx c) : exec (.data rx) s = .next (s.withDev (gotData 0 (rx.typed 1 0x02) { s.dev with c := c })) :=
  arrive_delivered s 1 0x02 rx c gotData hd

theorem exec_ring (hd : Delivered s 1 0x03 rx c) : exec (.ring rx) s = .next (s.withDev (gotRing 0 (rx.typed 1 0x03) { s.dev with c := c })) :=
  arrive_delivered s 1 0x03 rx c gotRing hd

theorem exec_cready (hd : Delivered s 1 0x04 rx c) :
    exec (.cready rx) s = .next (s.withDev (gotCready 0 (rx.typed 1 0x04) { s.dev with c := c })) := arrive_delivered s 1 0x04 rx c gotCready hd

theorem exec_voteUp (hd : Delivered s 1 0x05 rx c) :
    exec (.voteUp rx) s = .next (s.withDev (gotVoteUp 0 (rx.typed 1 0x05) { s.dev with c := c })) := arrive_delivered s 1 0x05 rx c gotVoteUp hd

theorem exec_voteDown (hd : Delivered s 1 0x06 rx c) :
    exec (.voteDown rx) s = .next (s.withDev (gotVoteDown 0 (rx.typed 1 0x06) { s.dev with c := c })) := arrive_delivered s 1 0x06 rx c gotVoteDown hd

theorem exec_digest (hd : Delivered s 1 0x10 rx c) :
    exec (.digest rx) s = .next (s.withDev (gotDigest 0 (rx.typed 1 0x10) { s.dev with c := c })) := arrive_delivered s 1 0x10 rx c gotDigest hd

/-- The frames of collectives differ only in what they do once heard. -/
theorem exec_across {x : Instr × Nat} (hx : x ∈ [(Instr.part rx, 0x01), (.data rx, 0x02), (.ring rx, 0x03), (.cready rx, 0x04), (.digest rx, 0x10)])
    (hd : Delivered s 1 x.2 rx c) :
    ∃ f, exec x.1 s = .next (s.withDev (collFrame .across f 0 (rx.typed 1 x.2) { s.dev with c := c })) := by
  simp only [List.mem_cons, List.not_mem_nil, or_false] at hx
  obtain rfl | rfl | rfl | rfl | rfl := hx
  · exact ⟨_, exec_part hd⟩
  · exact ⟨_, exec_data hd⟩
  · exact ⟨_, exec_ring hd⟩
  · exact ⟨_, exec_cready hd⟩
  · exact ⟨_, exec_digest hd⟩

end

section
variable {way : CollWay} {rx : Rx} {d : Dev} (f : Rx → Dev → Dev)

theorem collFrame_of_stray (hs : collStray way rx d.c = true) :
    collFrame way f 0 rx d = onCtl (fun c => raiseLinkPeer 0x0D (srcPort rx.port) rx.peer 0 (satF R.COLL_STATUS.STRAY 1 c)) d := if_pos hs

theorem collFrame_of_heard (hs : collStray way rx d.c = false) : collFrame way f 0 rx d = f rx (onCtl (hear (BitVec.ofNat 5 rx.arg)) d) :=
  if_neg (ne_true_of_eq_false hs)

end

/-! ### What each frame of a running collective does (R290, R292, R293, R326) -/

/-- A heard frame from rank q of the collective `r` that runs on core p: `g` is done in one cycle, and then what may leave does (R293). -/
def heardRun (p : Nat) (rx : Rx) (g : Dev → Dev) (d : Dev) : Dev :=
  inCycleDev (fun d => collSettle p (g d)) (onCtl (hear (BitVec.ofNat 5 rx.arg)) d)

section
variable {rx : Rx} {d : Dev} {p q : Nat} {r : CollRun} (hs : collStray .across rx d.c = false)
  (hrun : d.c.coll.runs.find? (fun e => e.2.id == rx.word4) = some (p, r))
  (hq : (List.range r.ranks).find? (fun q => (r.members[q]?).bind (deviceOf (hear (BitVec.ofNat 5 rx.arg) d.c)) == some rx.peer) = some q)
include hs hrun hq

/-- A heard frame of a running collective goes to what its type does for that collective and the sender's rank. -/
theorem collFor_of_heard (f : Nat → CollRun → Nat → Rx → Dev → Dev) : collFrame .across (collFor f) 0 rx d = heardRun p rx (f p r q rx) d := by
  have hrun' : (hear (BitVec.ofNat 5 rx.arg) d.c).coll.runs.find? (fun e => e.2.id == rx.word4) = some (p, r) := hrun
  rw [collFrame_of_heard _ hs]
  simp only [collFor, onCtl_c, hrun', hq]
  rfl

/-- PART enters the sums of a reduction. -/
theorem gotPart_of_reduces (hr : r.reduces = true) : gotPart 0 rx d = heardRun p rx
    (let v := payloadCodes 32 rx.frame.payload
     sumsOut p ((List.range v.length).foldl (fun x i => sumGot q (rx.word5 + i) (v.getD i 0) x) ⟨r, [], []⟩)) d := by
  rw [gotPart, collFor_of_heard hs hrun hq, hr]
  rfl

/-- DATA goes to its place in the output of an ALL_REDUCE, an ALL_GATHER or a BROADCAST. -/
theorem gotData_of_placed (ht : r.type = 2 ∨ r.type = 3 ∧ r.digest = false ∨ r.type = 4) :
    gotData 0 rx d = heardRun p rx (collWrite p rx.word5 (payloadCodes (codeBits r.fmt) rx.frame.payload)) d := by
  rw [gotData, collFor_of_heard hs hrun hq]
  simp only [Bool.not_eq_true', ht, if_true]

/-- It has no place in any other collective. -/
theorem gotData_of_unplaced (ht : r.type = 1 ∨ r.type = 5 ∨ r.type = 3 ∧ r.digest = true) : gotData 0 rx d = heardRun p rx id d := by
  have hn : ¬ (r.type = 2 ∨ r.type = 3 ∧ r.digest = false ∨ r.type = 4) := by
    obtain h | h | ⟨h, hg⟩ := ht
    · simp [h]
    · simp [h]
    · simp [h, hg]
  rw [gotData, collFor_of_heard hs hrun hq]
  simp only [Bool.not_eq_true', hn, if_false]
  rfl

/-- RING goes to its place in the output of a RING_PASS. -/
theorem gotRing_of_ringPass (ht : r.type = 5) :
    gotRing 0 rx d = heardRun p rx (collWrite p rx.word5 (payloadCodes (codeBits r.fmt) rx.frame.payload)) d := by
  rw [gotRing, collFor_of_heard hs hrun hq]
  simp only [ht, if_true]

/-- CREADY marks its sender ready. -/
theorem gotCready_of_heard : gotCready 0 rx d = heardRun p rx (onCtl (onCollRun p (fun r => { r with ready := q :: r.ready }))) d :=
  collFor_of_heard hs hrun hq _

/-- DIGEST goes to its rank's place in a digest gather, and is kept to be compared. -/
theorem gotDigest_of_gather (hg : r.digest = true) : gotDigest 0 rx d = heardRun p rx (fun d =>
    collWrite p (4 * q) (payloadCodes 32 rx.frame.payload)
      (onCtl (onCollRun p (fun r => { r with digs := Tab.put r.digs q rx.frame.payload })) d)) d := by
  rw [gotDigest, collFor_of_heard hs hrun hq]
  simp only [hg, if_true]

end

/-- Settles O47: a frame of a collective is stray or is heard, and one that is heard does for its collective what its type does. -/
theorem collectiveFrames : Obligations.CollectiveFrames := by
  intro s rx c p q r bits heard then_ v
  refine ⟨fun x hx hd hs => ?stray, fun hs hrun hq => ⟨fun hd hr => ?part, fun hd ht => ?data, fun hd ht => ?noPlace, fun hd ht => ?ring,
    fun hd => ?cready, fun hd hg => ?digest⟩⟩
  case stray =>
    obtain ⟨f, hf⟩ := exec_across hx hd
    rw [hf, collFrame_of_stray (rx := rx.typed 1 x.2) (d := { s.dev with c := c }) f hs]
    rfl
  case part => rw [exec_part hd, gotPart_of_reduces (rx := rx.typed 1 0x01) (d := { s.dev with c := c }) hs hrun hq hr]; rfl
  case data => rw [exec_data hd, gotData_of_placed (rx := rx.typed 1 0x02) (d := { s.dev with c := c }) hs hrun hq ht]; rfl
  case noPlace => rw [exec_data hd, gotData_of_unplaced (rx := rx.typed 1 0x02) (d := { s.dev with c := c }) hs hrun hq ht]; rfl
  case ring => rw [exec_ring hd, gotRing_of_ringPass (rx := rx.typed 1 0x03) (d := { s.dev with c := c }) hs hrun hq ht]; rfl
  case cready => rw [exec_cready hd, gotCready_of_heard (rx := rx.typed 1 0x04) (d := { s.dev with c := c }) hs hrun hq]; rfl
  case digest => rw [exec_digest hd, gotDigest_of_gather (rx := rx.typed 1 0x10) (d := { s.dev with c := c }) hs hrun hq hg]; rfl

/-! ### The vote (R295, R296) -/

theorem exec_vote {s : State} {p : Nat} (hr : running s.dev.c = true) (hp : p < 72) :
    exec (.vote p) s = .next (s.withCtl (voteStart p s.dev.c)) := runDev_onCore _ hr hp

theorem exec_voteWaitExpiry {s : State} (hr : running s.dev.c = true) :
    exec .voteWaitExpiry s = .next (s.withCtl (voteExpire s.dev.c)) := runCtl_running _ s hr

/-- A VOTE pick takes part in the vote of the step with its COLL_ID. -/
theorem voteStart_of_vote {c : Ctl} {p : Nat} {run : Running} (hc : curRun c p 5 opColl = some run) (ht : imgF run.image 22 0 8 = 6) :
    voteStart p c = voteTry (onColl (fun x => { x with started := imgW run.image 53 :: x.started, vote := some (some p, imgW run.image 53) })
      (updRun p 5 (fun (q : Running) => { q with worked := true, waiting := q.waiting + 1 }) { c with step := { c.step with hasVote := true } })) := by
  simp only [voteStart, hc, ht, bne_self_eq_false, Bool.false_eq_true, if_false]

/-- With WAIT_US past the vote goes without the children that are missing. -/
theorem voteExpire_of_missing {c : Ctl} {o : Option Nat} {id : Nat} (hv : c.coll.vote = some (o, id)) (hs : c.step.voteSent = false)
    (hm : votesMissing c ≠ []) : voteExpire c = voteSend o id c := by
  have hm' : (votesMissing c).isEmpty = false := by simpa using hm
  simp only [voteExpire, hv, hs, hm', Bool.not_false, Bool.and_self, if_true]

section
variable {rx : Rx} {d : Dev}

/-- A child's VOTE_UP is kept, and may be the last that the vote waits for. -/
theorem gotVoteUp_of_child (hs : collStray .up rx d.c = false)
    (hk : (treeChildren (hear (BitVec.ofNat 5 rx.arg) d.c)).contains rx.peer = true) :
    gotVoteUp 0 rx d = onCtl (fun c => voteTry (onColl (fun x =>
      { x with ups := Tab.put x.ups rx.peer (BitVec.ofNat 5 rx.arg), upId := max x.upId rx.word4 }) (hear (BitVec.ofNat 5 rx.arg) c))) d := by
  rw [gotVoteUp, collFrame_of_heard _ hs]
  simp only [onCtl, hk, if_true]

/-- The parent's VOTE_DOWN is latched by a member whose pick gave its COLL_ID, and by one that has no pick. -/
theorem gotVoteDown_of_parent {o : Option Nat} {id : Nat} (hs : collStray .down rx d.c = false) (hv : d.c.coll.vote = some (o, id))
    (ho : o = none ∨ id = rx.word4) (ht : treeParent (hear (BitVec.ofNat 5 rx.arg) d.c) = some rx.peer) :
    gotVoteDown 0 rx d = onCtl (fun c => voteLatch o rx.word4 (BitVec.ofNat 5 rx.arg) (hear (BitVec.ofNat 5 rx.arg) c)) d := by
  have hv' : (hear (BitVec.ofNat 5 rx.arg) d.c).coll.vote = some (o, id) := hv
  have ours : (o.isNone || id == rx.word4) = true := by simpa using ho
  rw [gotVoteDown, collFrame_of_heard _ hs]
  simp only [onCtl, hv', ours, ht, beq_self_eq_true, Bool.and_self, if_true]

end

/-- A member without a seat votes under the COLL_ID of its children's VOTE_UPs, whatever its own. -/
theorem voteSend_of_seatless (id : Nat) (c : Ctl) : voteSend none id c = voteSend none c.coll.upId c := rfl

/-- Settles O48: the pick, its wait and the two frames are functions of the vote under way, and each clause is a case of one. -/
theorem voteCommands : Obligations.VoteCommands := by
  intro s rx c p id o run
  refine ⟨fun hr hp hc ht => ?starts, fun hr hv hs hm => ?expires, fun hd hs hk => ?up, fun hd hs hv ht => ?down,
    fun hd hs hv ht => ?downSeatless, voteSend_of_seatless id⟩
  case starts => rw [exec_vote hr hp, voteStart_of_vote hc ht]
  case expires => rw [exec_voteWaitExpiry hr, voteExpire_of_missing hv hs hm]
  case up => rw [exec_voteUp hd, gotVoteUp_of_child (rx := rx.typed 1 0x05) (d := { s.dev with c := c }) hs hk]; rfl
  case down => rw [exec_voteDown hd, gotVoteDown_of_parent (rx := rx.typed 1 0x06) (d := { s.dev with c := c }) hs hv (.inr rfl) ht]; rfl
  case downSeatless => rw [exec_voteDown hd, gotVoteDown_of_parent (rx := rx.typed 1 0x06) (d := { s.dev with c := c }) hs hv (.inl rfl) ht]; rfl

end Sys2Proof.Machine
end

section
/-! ## Proofs: filing, replay and armed recovery

Each command is a test and one action (R329, R333, R338); a lemma states the action where the test holds, and another that nothing is done
where there is nothing to do. -/

namespace Sys2Proof.Machine

/-! ### The retain engine (R329, R333) -/

section
variable {d : Dev}

/-- The targets of step t take the stage content from its slot (R328, R333). -/
def stageCopied (t : Nat) (l : List RestoreTarget) (d : Dev) : Dev :=
  l.foldl (fun d x =>
    let r := readRun false (slotBase d.c t + slotStage + x.off) x.len d
    (writeRunPlain x.addr r.1 .nobody r.2.2).1) d

/-- A stage has been restored to targets `l`: their chip flags are set, and the stages of `rest` are left (R333). -/
def stageReported (l : List RestoreTarget) (rest : List Nat) (c : Ctl) : Ctl :=
  setB R.RET_STATUS.RESTORING (!rest.isEmpty) (onRet (fun r => { r with restoring := rest })
    (l.foldl (fun c x => setChip 0 (BitVec.ofNat 64 x.flags) c) c))

/-- The stage goes to the slot, and then the record is kept. -/
theorem fileDone_of_free {t : Nat} (h : d.c.ret.filing = some (t, true)) :
    fileDone d =
      (let r := readLong (retStage d.c) (stageLen d.c) d
       onCtl (onRet (fun x => { x with filing := none, kept := x.kept ++ [t] })) (writeLong (slotBase d.c t + slotStage) r.1 r.2)) := by
  simp only [fileDone, h]

/-- Without a filing under way nothing is filed. -/
theorem fileDone_of_none (h : d.c.ret.filing = none) : fileDone d = d := by simp only [fileDone, h]

theorem stageRestored_of_cons {t : Nat} {rest : List Nat} (h : d.c.ret.restoring = t :: rest) :
    stageRestored d = onCtl (stageReported ((restoreTargets d.c).filter (targetOfStep t)) rest)
      (stageCopied t ((restoreTargets d.c).filter (targetOfStep t)) d) := by
  simp only [stageRestored, h]
  rfl

/-- Without a stage to restore nothing is restored. -/
theorem stageRestored_of_nil (h : d.c.ret.restoring = []) : stageRestored d = d := by simp only [stageRestored, h]

/-! ### The starts (R333, R338) -/

/-- What REPLAY_START makes of the recovery: its beat is reached, and the steps are replayed, or run anew after RST_CTRL.GO (R333, R373). -/
def replayReady (c : Ctl) : Ctl := setRecState (if c.ret.restart then recIdle else recReplay) (onRet (fun r => { r with resume := none }) c)

/-- The measuring step before the replay is known wherever a rollback point exists (R109, R163). -/
def replayMeas (c : Ctl) : Ctl := if c.step.hasRollback then measRestored c else c

/-- The replayed step opens, its first beat stretched as recorded (R17, R333). -/
def replayOpen (d : Dev) : Dev :=
  let d := openStep d.c.ret.point d
  onCtl segmentsStart (noteStretch 0 (getF d.c R.BEAT_STRETCH.CUR) d)

/-- At A + RESTORE_BEATS a device whose restore is complete replays. -/
theorem replayStart_of_whole {a : Nat} (h : d.c.ret.resume = some a) (hb : beatsRun d.c = true) (hg : d.c.time.inGuard = false)
    (hs : getF d.c R.REC_STATE.STATE = 1) (ha : a ≤ getF d.c R.BEAT_NOW.BEAT) (hw : restoreWhole d.c = true) :
    replayStart d = replayOpen (onCtl (fun c => replayMeas (replayReady c)) d) := by
  have goes : (!beatsRun d.c || d.c.time.inGuard || getF d.c R.REC_STATE.STATE != recRestore ||
      decide (getF d.c R.BEAT_NOW.BEAT < a)) = false := by
    rw [hb, hg, hs, decide_eq_false (Nat.not_lt.2 ha)]
    rfl
  simp only [replayStart, h, goes, hw, Bool.not_true, Bool.false_eq_true, if_false]
  rfl

/-- Without a beat to resume at there is no replay. -/
theorem replayStart_of_none (h : d.c.ret.resume = none) : replayStart d = d := by simp only [replayStart, h]

/-- At the boundary that opens the armed beat the recovery starts; ATTEMPT begins again (log entry 33). -/
theorem armedStart_of_due (hb : beatsRun d.c = true) (hg : d.c.time.inGuard = false) (ho : stepOpen d.c = false)
    (ha : d.c.ret.armed = some (getF d.c R.BEAT_NOW.BEAT)) :
    armedStart d =
      (let d := onCtl (fun c => setB R.VOTE_STATE.HALTED false (setAttempt 0 (onRet (fun r => { r with armed := none }) c))) d
       startRecovery (getF d.c R.REC_FAULT_STEP.STEP) d) :=
  if_pos (by rw [hb, hg, ho, ha, beq_self_eq_true]; rfl)

end

/-! ### The commands -/

section
variable {s : State} (hr : running s.dev.c = true)
include hr

theorem exec_retainFileDone : exec .retainFileDone s = .next (s.withDev (fileDone s.dev)) := runDev_running _ s hr

theorem exec_stageRestoreDone : exec .stageRestoreDone s = .next (s.withDev (stageRestored s.dev)) := runDev_running _ s hr

theorem exec_replayStart : exec .replayStart s = .next (s.withDev (replayStart s.dev)) := runDev_running _ s hr

theorem exec_armedRecoveryStart : exec .armedRecoveryStart s = .next (s.withDev (armedStart s.dev)) := runDev_running _ s hr

end

/-- Settles O49: each command is a function of the device, whose sides are the lemmas above. -/
theorem recoverySteps : Obligations.RecoverySteps := by
  intro s t a rest hr c
  refine ⟨fun hf => ?file, fun hf => ?noFile, fun hs => ?stage, fun hs => ?noStage, fun ha hb hg hs hn hw => ?replay, fun ha => ?noReplay,
    fun hb hg ho ha => ?armed⟩
  case file => rw [exec_retainFileDone hr, fileDone_of_free hf]
  case noFile => rw [exec_retainFileDone hr, fileDone_of_none hf]; rfl
  case stage => rw [exec_stageRestoreDone hr, stageRestored_of_cons hs]; rfl
  case noStage => rw [exec_stageRestoreDone hr, stageRestored_of_nil hs]; rfl
  case replay => rw [exec_replayStart hr, replayStart_of_whole ha hb hg hs hn hw]; rfl
  case noReplay => rw [exec_replayStart hr, replayStart_of_none ha]; rfl
  case armed => rw [exec_armedRecoveryStart hr, armedStart_of_due hb hg ho ha]

end Sys2Proof.Machine
end

section
/-! ## Proofs: restores of an image

A restore starts, tries its sources in turn, is swept, and ends (R324, R370 to R373). Each command is a test and one action; what a restore
leaves in the registers at its end is said field by field, for any state section that was applied before. -/

namespace Sys2Proof.Machine

/-! ### The start (R370, R373) -/

/-- A device about to restore leaves the failed state, and no sweep runs (R153). -/
def restoreQuiet (c : Ctl) : Ctl := setB R.CHK_DIG_STATUS.SWEEP false { c with step := { c.step with failed := false } }

/-- A whole-job restore of a seat's image of step u as it begins (R373). -/
def wholeRestore (u seat : Nat) : Restore :=
  { step := u, seat := seat, go := true, phase := .mirror, next := 0, total := 0, out := [], got := [], recs := [], record := [], stripes := [], good := [], lost := [] }

/-- A restore is under way. -/
def restoreBegun (x : Restore) (c : Ctl) : Ctl :=
  setF R.RST_STATUS.STATE rstRunning (onSnap (fun y => { y with restore := some x, noSource := false }) c)

section
variable {d : Dev} {u n : Nat}

/-- A seat's restore tries its sources from the first. -/
theorem restoreStart_of_seat (hn : mySeat d.c = some n) :
    restoreStart u true d = trySource 0 (onCtl (fun c => restoreBegun (wholeRestore u n) (restoreQuiet c)) d) := by
  simp only [restoreStart]
  split
  case h_1 hm => exact absurd (hm.symm.trans hn) (Option.some_ne_none n).symm
  case h_2 m hm =>
    obtain rfl : m = n := Option.some.inj (hm.symm.trans hn)
    rfl

/-- A device without a seat has nothing to restore (log entry 174). -/
theorem restoreStart_of_seatless (hn : mySeat d.c = none) :
    restoreStart u true d = onCtl (fun c => restoreEnd (goSteps u (restoreQuiet c))) d := by
  simp only [restoreStart]
  split
  case h_1 => rfl
  case h_2 m hm => exact absurd (hm.symm.trans hn) (Option.some_ne_none m)

/-- While no step has opened, or in HALTED, GO starts the restore at RST_STEP. -/
theorem rstGo_of_heeded (hj : d.c.job.isSome = true) (ho : d.c.step.opened = false ∨ getF d.c R.REC_STATE.STATE = 3) :
    rstGo d = restoreStart (getF d.c R.RST_STEP.STEP) true d := by
  have goes : (d.c.job.isSome && (getF d.c R.REC_STATE.STATE == 3 || !d.c.step.opened)) = true := by
    rcases ho with ho | ho <;> simp [hj, ho]
  rw [rstGo, if_pos goes]

/-- Once a step has opened, and not in HALTED, GO does nothing. -/
theorem rstGo_of_opened (ho : d.c.step.opened = true) (hs : getF d.c R.REC_STATE.STATE ≠ 3) : rstGo d = d := by
  have stays : ¬ (d.c.job.isSome && (getF d.c R.REC_STATE.STATE == 3 || !d.c.step.opened)) = true := by simp [ho, hs]
  rw [rstGo, if_neg stays]

end

/-! ### The digest sweep (R324, R372) -/

/-- The sweep has ended: its sum is the running digest. -/
def sweepTaken (d : Dev) : Ctl := setB R.CHK_DIG_STATUS.SWEEP false (setLiveDig (sweepDigest d) d.c)

/-- The sum of a sweep compared with the header, where a restore waits for it: an image whose digest differs is left for the next source. -/
def sweepCompared (d : Dev) : Dev :=
  match d.c.snap.restore with
  | some x =>
    if x.phase != .sweep then { d with c := sweepTaken d }
    else if headerTrimmed (sweepTaken d) d.m || headerDigest (sweepTaken d) d.m 0 == sweepDigest d then
      { d with c := onRestore (fun y => { y with phase := .ready }) (sweepTaken d) }
    else
      trySource (getF (sweepTaken d) R.RST_STATUS.SOURCE)
        { d with c := raise evMemory 0x0A srcDevice 0 (setB R.RST_STATUS.DIG_BAD true (sweepTaken d)) }
  | none => { d with c := sweepTaken d }

section
variable {d : Dev} (hs : getB d.c R.CHK_DIG_STATUS.SWEEP = true) (hh : d.c.slu.held = [])
include hs hh

/-- A sweep ends when no read of it is held over. -/
theorem sweepDone_of_sweep : sweepDone d = sweepCompared d := by
  have goes : (!getB d.c R.CHK_DIG_STATUS.SWEEP || !d.c.slu.held.isEmpty) = false := by
    rw [hs, hh]
    rfl
  simp only [sweepDone, goes, Bool.false_eq_true, if_false]
  rfl

theorem sweepDone_of_no_restore (hx : d.c.snap.restore = none) : sweepDone d = { d with c := sweepTaken d } := by
  rw [sweepDone_of_sweep hs hh, sweepCompared, hx]

variable {x : Restore} (hx : d.c.snap.restore = some x) (hp : x.phase = .sweep)
include hx hp

/-- An image whose digest is its header's is ready. -/
theorem sweepDone_of_right (hd : (headerTrimmed (sweepTaken d) d.m || headerDigest (sweepTaken d) d.m 0 == sweepDigest d) = true) :
    sweepDone d = { d with c := onRestore (fun y => { y with phase := .ready }) (sweepTaken d) } := by
  rw [sweepDone_of_sweep hs hh, sweepCompared, hx]
  simp only [hp, hd, bne_self_eq_false, Bool.false_eq_true, if_false, if_true]

/-- An image whose digest differs is left for the next source. -/
theorem sweepDone_of_wrong (hd : (headerTrimmed (sweepTaken d) d.m || headerDigest (sweepTaken d) d.m 0 == sweepDigest d) = false) :
    sweepDone d = trySource (getF (sweepTaken d) R.RST_STATUS.SOURCE)
      { d with c := raise evMemory 0x0A srcDevice 0 (setB R.RST_STATUS.DIG_BAD true (sweepTaken d)) } := by
  rw [sweepDone_of_sweep hs hh, sweepCompared, hx]
  simp only [hp, hd, bne_self_eq_false, Bool.false_eq_true, if_false]

end

/-! ### The end of a restore (R371 to R373) -/

section
variable (c : Ctl)

/-- A restore that ends as DONE leaves every other register but the notice words. -/
theorem getF_restoreEnd {f : Fld} (hf : f.off ∉ noticeWords) (ho : f.off ≠ R.RST_STATUS.STATE.off) : getF (restoreEnd c) f = getF c f :=
  ((cause_notice 17 _).getF f hf).trans (getF_setF_off rstDone _ ho)

theorem state_of_restoreEnd : getF (restoreEnd c) R.RST_STATUS.STATE = 2 :=
  ((cause_notice 17 _).getF _ (by decide)).trans (getF_setF_same _ _ _ (by decide))

@[simp] theorem restoreEnd_restore : (restoreEnd c).snap.restore = none := by simp [restoreEnd]

@[simp] theorem restoreEnd_ret : (restoreEnd c).ret = c.ret := by simp [restoreEnd]

/-- A register and the state of the images are set in either order. -/
theorem setF_onSnap (g : Fld) (v : Nat) (f : SnapSt → SnapSt) : setF g v (onSnap f c) = onSnap f (setF g v c) := rfl

/-- A restore that fails leaves every register but SWEEP, its state and the notice words. -/
theorem getF_restoreFail {f : Fld} (hf : f.off ∉ noticeWords) (hs : f.off ≠ R.CHK_DIG_STATUS.SWEEP.off) :
    getF (restoreFail c) f = getF (setF R.RST_STATUS.STATE rstFailed c) f := by
  refine ((cause_notice 17 _).getF f hf).trans ((getF_setF_off _ _ hs).trans ?_)
  rw [setF_onSnap, getF_onSnap]
  split
  · rw [setF_onSnap, getF_onSnap]
  · rfl

theorem state_of_restoreFail : getF (restoreFail c) R.RST_STATUS.STATE = 3 :=
  (getF_restoreFail c (by decide) (by decide)).trans (getF_setF_same _ _ _ (by decide))

/-- FIT stays set when the restore fails. -/
theorem fit_of_restoreFail : getB (restoreFail (setB R.RST_STATUS.FIT true c)) R.RST_STATUS.FIT = true := by
  rw [getB, getF_restoreFail _ (by decide) (by decide),
    getF_setF_bits (f := R.RST_STATUS.STATE) (g := R.RST_STATUS.FIT) _ _ rfl (by decide) (by decide)]
  exact getB_setB_true c (by decide) (by decide)

@[simp] theorem restoreFail_restore : (restoreFail c).snap.restore = none := by simp [restoreFail]

variable (u : Nat)

/-- The four step registers that GO sets, as the only registers that it writes (R373). -/
theorem getF_goSteps (f : Fld) : getF (goSteps u c) f = getF (setF R.STEP_CHECKED.STEP u (setF R.STEP_SEALED.STEP u
    (setF R.REC_FAULT_STEP.STEP u (setF R.STEP_ROLLBACK.STEP u c)))) f := rfl

theorem rollback_of_goSteps : getF (goSteps u c) R.STEP_ROLLBACK.STEP = u % 2 ^ 64 := by
  rw [getF_goSteps, getF_setF_off _ _ (by decide), getF_setF_off _ _ (by decide), getF_setF_off _ _ (by decide), getF_setF_same _ _ _ (by decide)]
  rfl

theorem faultStep_of_goSteps : getF (goSteps u c) R.REC_FAULT_STEP.STEP = u % 2 ^ 64 := by
  rw [getF_goSteps, getF_setF_off _ _ (by decide), getF_setF_off _ _ (by decide), getF_setF_same _ _ _ (by decide)]
  rfl

/-- GO leaves the registers of the sluice, which say what the local copy holds. -/
theorem getF_goSteps_sluice {f : Fld} (h : R.SLU_STATUS.SNAP_VALID.off ≤ f.off) : getF (goSteps u c) f = getF c f := by
  have above {o : Nat} (ho : o < R.SLU_STATUS.SNAP_VALID.off) : f.off ≠ o := Nat.ne_of_gt (Nat.lt_of_lt_of_le ho h)
  rw [getF_goSteps, getF_setF_off _ _ (above (by decide)), getF_setF_off _ _ (above (by decide)), getF_setF_off _ _ (above (by decide)),
    getF_setF_off _ _ (above (by decide))]

/-- The restored image is the local copy (R373). -/
def copyMarked (c : Ctl) : Ctl := setB R.MIR_STATUS.DONE false (setB R.SLU_STATUS.SNAP_VALID true (setF R.SLU_SNAP_STEP.STEP u c))

theorem getF_goDone (f : Fld) : getF (goDone u c) f = getF (goSteps u (copyMarked u c)) f := getF_onSnap _ _ f

theorem rollback_of_goDone : getF (goDone u c) R.STEP_ROLLBACK.STEP = u % 2 ^ 64 := by rw [getF_goDone, rollback_of_goSteps]

theorem faultStep_of_goDone : getF (goDone u c) R.REC_FAULT_STEP.STEP = u % 2 ^ 64 := by rw [getF_goDone, faultStep_of_goSteps]

theorem snapStep_of_goDone : getF (goDone u c) R.SLU_SNAP_STEP.STEP = u % 2 ^ 64 := by
  rw [getF_goDone, getF_goSteps_sluice _ _ (by decide), copyMarked, setB, setB, getF_setF_off _ _ (by decide), getF_setF_off _ _ (by decide),
    getF_setF_same _ _ _ (by decide)]
  rfl

theorem snapValid_of_goDone : getB (goDone u c) R.SLU_STATUS.SNAP_VALID = true := by
  rw [getB, getF_goDone, getF_goSteps_sluice _ _ (by decide), copyMarked, setB, getF_setF_off _ _ (by decide)]
  exact getB_setB_true _ (by decide) (by decide)

end

/-! ### RESTORE_COMPLETE (R371, R373) -/

/-- A field of the state section in STATE_L. -/
def sectionField (d : Dev) (o n : Nat) : Nat := leNat (readBytes d.m (stateArea d.c 0 + o) n)

/-- The image of a restore is noted as good once it has been applied. -/
def imageGood (x : Restore) (c : Ctl) : Ctl :=
  onSnap (fun s => { s with good := if s.good.contains x.step then s.good else x.step :: s.good })
    (if x.go then goDone x.step c else stageDue (x.step + 1) c)

/-- After a whole-job restore the registers are as GO leaves them. -/
theorem getF_imageGood {x : Restore} (hg : x.go = true) (c : Ctl) (f : Fld) : getF (imageGood x c) f = getF (goDone x.step c) f := by
  rw [imageGood, getF_onSnap, if_pos hg]

section
variable {d : Dev} {x : Restore} (hx : d.c.snap.restore = some x)
include hx

section
variable (hp : x.phase = .ready)
include hp

/-- An image of another number of logical cores does not fit. -/
theorem restoreComplete_of_unfit (hn : sectionField d 0x40 2 ≠ lcores d.c.fuses.grade) :
    restoreComplete d = onCtl (fun c => restoreFail (setB R.RST_STATUS.FIT true c)) d := by
  simp only [restoreComplete, hx, hp, bne_self_eq_false, Bool.false_eq_true, if_false]
  exact if_pos hn

/-- An image of the right number is applied, and the restore ends. -/
theorem restoreComplete_of_fit (hn : sectionField d 0x40 2 = lcores d.c.fuses.grade) :
    restoreComplete d = onCtl (fun c => restoreEnd (imageGood x (applySection (sectionField d) c))) d := by
  simp only [restoreComplete, hx, hp, bne_self_eq_false, Bool.false_eq_true, if_false]
  exact if_neg (fun hne => hne hn)

end

/-! ### Requests of a restore (R370) -/

variable {i t : Nat} (ht : x.out.look i = some t)
include ht

/-- Before its deadline a request is left. -/
theorem restoreTimeout_of_waiting (hd : d.c.ticks < t) : restoreTimeout i d = d := by
  simp only [restoreTimeout, hx, ht, if_pos hd]

variable (hd : t ≤ d.c.ticks)
include hd

/-- A stripe past its deadline is given up. -/
theorem restoreTimeout_of_stripes (hp : x.phase = .stripes) : restoreTimeout i d = stripesCheck (onCtl (stripeLost i) d) := by
  simp only [restoreTimeout, hx, ht, hp, if_neg (Nat.not_lt.2 hd)]

/-- Without a commit record the last source is left. -/
theorem restoreTimeout_of_record (hp : x.phase = .record) : restoreTimeout i d = trySource 3 d := by
  simp only [restoreTimeout, hx, ht, hp, if_neg (Nat.not_lt.2 hd)]

/-- An extent past its deadline is asked for again. -/
theorem restoreTimeout_of_mirror (hp : x.phase = .mirror) {n : Nat} (hn : holderDevice d.c = some n) :
    restoreTimeout i d = onCtl (requestExtent n i x) d := by
  simp only [restoreTimeout, hx, ht, hp, hn, if_neg (Nat.not_lt.2 hd)]

end

/-! ### The commands -/

section
variable {s : State} (hr : running s.dev.c = true)
include hr

theorem exec_rstCtrlGo (hm : mainReady s.dev.c 8 = true) : exec .rstCtrlGo s = .next (s.withDev (rstGo s.dev)) :=
  (runDev_running _ s hr).trans (by rw [if_pos hm]; rfl)

theorem exec_digestSweepDone : exec .digestSweepDone s = .next (s.withDev (sweepDone s.dev)) := runDev_running _ s hr

theorem exec_restoreComplete : exec .restoreComplete s = .next (s.withDev (restoreComplete s.dev)) := runDev_running _ s hr

theorem exec_restoreRequestTimeout (i : Nat) : exec (.restoreRequestTimeout i) s = .next (s.withDev (restoreTimeout i s.dev)) :=
  runDev_running _ s hr

end

/-- The step registers, the local copy and the retained inputs after a whole-job restore of step u (R373). -/
structure RestoredAt (u : Nat) (c : Ctl) : Prop where
  rollback : getF c R.STEP_ROLLBACK.STEP = u
  faultStep : getF c R.REC_FAULT_STEP.STEP = u
  copyStep : getF c R.SLU_SNAP_STEP.STEP = u
  copyValid : getB c R.SLU_STATUS.SNAP_VALID = true
  released : c.ret.kept = []

/-- A whole-job restore ends with the steps and the local copy at its step, whatever state section was applied. -/
theorem restoredAt_of_go {x : Restore} (hg : x.go = true) (hu : x.step < 2 ^ 64) (c : Ctl) : RestoredAt x.step (restoreEnd (imageGood x c)) := by
  have fits : x.step % 2 ^ 64 = x.step := Nat.mod_eq_of_lt hu
  constructor
  case rollback => rw [getF_restoreEnd _ (by decide) (by decide), getF_imageGood hg, rollback_of_goDone, fits]
  case faultStep => rw [getF_restoreEnd _ (by decide) (by decide), getF_imageGood hg, faultStep_of_goDone, fits]
  case copyStep => rw [getF_restoreEnd _ (by decide) (by decide), getF_imageGood hg, snapStep_of_goDone, fits]
  case copyValid =>
    rw [getB, getF_restoreEnd _ (by decide) (by decide), getF_imageGood hg]
    exact snapValid_of_goDone c x.step
  case released =>
    rw [restoreEnd_ret, imageGood, if_pos hg]
    rfl

/-- Settles O51: the start, the sweep, the end and the requests are each a function of the device, whose sides are the lemmas above. -/
theorem restoreCommands : Obligations.RestoreCommands := by
  intro s x i t n hr c u heeded quiet begun cores swept right
  refine ⟨fun ⟨hm, hj, ho⟩ hn => ?go, fun ⟨hm, hj, ho⟩ hn => ?goSeatless, fun hm ho hs => ?noGo,
    fun hs hh => ⟨fun hx => ?sweep, fun hx hp hd => ?right, fun hx hp hd => ?wrong⟩,
    fun hx hp hn => ?unfit, fun hx hp hn => ?fit, fun hx ht hd => ?waiting,
    fun hx ht hd => ⟨fun hp => ?stripes, fun hp => ?record, fun hp hn => ?mirror⟩⟩
  case go => rw [exec_rstCtrlGo hr hm, rstGo_of_heeded hj ho, restoreStart_of_seat hn]; rfl
  case goSeatless => rw [exec_rstCtrlGo hr hm, rstGo_of_heeded hj ho, restoreStart_of_seatless hn]; rfl
  case noGo => rw [exec_rstCtrlGo hr hm, rstGo_of_opened ho hs]; rfl
  case sweep => rw [exec_digestSweepDone hr, sweepDone_of_no_restore hs hh hx]; rfl
  case right =>
    have waits : swept.snap.restore = some x := hx
    rw [exec_digestSweepDone hr, sweepDone_of_right hs hh hx hp hd, show sweepTaken s.dev = swept from rfl, onRestore, onSnap, waits]
    rfl
  case wrong => rw [exec_digestSweepDone hr, sweepDone_of_wrong hs hh hx hp hd]; rfl
  case unfit =>
    refine ⟨s.withCtl (restoreFail (setB R.RST_STATUS.FIT true c)), ?_, rfl, rfl, restoreFail_restore _, state_of_restoreFail _,
      fit_of_restoreFail c⟩
    rw [exec_restoreComplete hr, restoreComplete_of_unfit hx hp hn]
    rfl
  case fit =>
    refine ⟨s.withCtl (restoreEnd (imageGood x (applySection (sectionField s.dev) c))), ?_, rfl, rfl, restoreEnd_restore _, state_of_restoreEnd _,
      fun hg hu => ?_⟩
    · rw [exec_restoreComplete hr, restoreComplete_of_fit hx hp hn]
      rfl
    · obtain ⟨rollback, faultStep, copyStep, copyValid, released⟩ := restoredAt_of_go hg hu (applySection (sectionField s.dev) c)
      exact ⟨rollback, faultStep, copyStep, copyValid, released⟩
  case waiting => rw [exec_restoreRequestTimeout hr, restoreTimeout_of_waiting hx ht hd]; rfl
  case stripes => rw [exec_restoreRequestTimeout hr, restoreTimeout_of_stripes hx ht hd hp]
  case record => rw [exec_restoreRequestTimeout hr, restoreTimeout_of_record hx ht hd hp]
  case mirror => rw [exec_restoreRequestTimeout hr, restoreTimeout_of_mirror hx ht hd hp hn]; rfl

end Sys2Proof.Machine
end

section
/-! ## Proofs: the front command, and the module that does not run

A step is its front command (log entry 1), and each command is one function of the device (`exec_eq_pinDev_or_runDev`): what that function
gives decides what the command leaves. -/

namespace Sys2Proof.Machine

section
variable {s : State} {d : Dev} {c : Ctl}

/-- A command of a pin leaves what its function gives. -/
theorem pinDev_of_eq {f : Dev → Dev} (h : f s.dev = d) : pinDev f s = .next (s.withDev d) := by
  subst h
  rfl

theorem pinCtl_of_eq {f : Ctl → Ctl} (h : f s.dev.c = c) : pinCtl f s = .next (s.withCtl c) := by
  subst h
  rfl

variable (hr : running s.dev.c = true)
include hr

/-- While the module runs, any other command does. -/
theorem runDev_of_eq {f : Dev → Dev} (h : f s.dev = d) : runDev f s = .next (s.withDev d) := by
  subst h
  exact runDev_running f s hr

theorem runCtl_of_eq {f : Ctl → Ctl} (h : f s.dev.c = c) : runCtl f s = .next (s.withCtl c) := by
  subst h
  exact runCtl_running f s hr

end

/-- Settles O1: a step matches on the queue. -/
theorem frontCommandRuns : Obligations.FrontCommandRuns := by
  refine ⟨fun s i rest h => ?taken, fun s h => ?idle⟩
  case taken => rw [step, h]
  case idle => rw [step, h]

/-- Settles O3: a command that is no pin's goes through `runDev`, which leaves a module that does not run. -/
theorem offModuleTakesOnlyPinCommands : Obligations.OffModuleTakesOnlyPinCommands := by
  intro i s hi hr
  obtain ⟨f, hf⟩ := exec_eq_pinDev_or_runDev i
  rw [hf s, hi]
  exact runDev_off f s hr

end Sys2Proof.Machine
end

section
/-! ## Proofs: the module's power

A command of a pin or of the supply is a function of the device with one test (R485 to R489). A lemma states what the function does on each
side of its test. -/

namespace Sys2Proof.Machine

/-! ### Power-on state (R428, R429, R488) -/

section
variable {d : Dev}

theorem startUp_of_off (h : running d.c = false) : startUp d = d := if_neg (ne_true_of_eq_false h)

theorem startUp_of_running (h : running d.c = true) : startUp d = onCtl applyRepairs d := if_pos h

theorem applyPower_of_input (h : d.c.pwr.input = true) : applyPower d = d := if_pos h

theorem applyPower_of_no_input (h : d.c.pwr.input = false) :
    applyPower d = startUp (onCtl (onPwr (fun p => { p with input := true, on := true, latched := false })) d) := if_neg (ne_true_of_eq_false h)

theorem resetRelease_of_released (h : d.c.pwr.released = true) : resetRelease d = d := if_pos h

theorem resetRelease_of_low (h : d.c.pwr.released = false) :
    resetRelease d = startUp (onCtl (onPwr (fun p => { p with released := true })) d) := if_neg (ne_true_of_eq_false h)

end

section
variable {c : Ctl}

theorem flashCut_of_idle (h : c.fw.staging = false) : flashCut c = c.flash := if_neg (ne_true_of_eq_false h)

/-- A staging writes the slot that does not hold the running image, and spoils it when it is cut off. -/
theorem flashCut_of_staging (h : c.fw.staging = true) :
    flashCut c = if 1 - getF c R.FW_STATUS.ACTIVE_SLOT = 0 then { c.flash with badA := true } else { c.flash with badB := true } := if_pos h

end

/-! ### The regulators switch off (R487) -/

/-- The power state after a switch-off: LAST_OFF holds the cause, and the warnings of a voltage that is gone are cleared. -/
def offPower (why : Nat) (latch : Bool) (p : Power) : Power :=
  { p with
    on := false
    latched := latch
    modStatus := (p.modStatus &&& ~~~ 0x700#16 &&& ~~~ (if why = 1 ∨ why = 2 then 3#16 else 0#16)) ||| BitVec.ofNat 16 (why * 2 ^ 8) }

/-- The masks of LAST_OFF and of the voltage's warnings are one mask. -/
theorem offPower_of_voltage {why : Nat} (hw : why = 1 ∨ why = 2) (latch : Bool) (p : Power) :
    offPower why latch p = { p with on := false, latched := latch, modStatus := (p.modStatus &&& 0xF8FC) ||| BitVec.ofNat 16 (why * 256) } := by
  rw [offPower, if_pos hw, BitVec.and_assoc]
  rfl

theorem offPower_of_other {why : Nat} (hw : ¬ (why = 1 ∨ why = 2)) (latch : Bool) (p : Power) :
    offPower why latch p = { p with on := false, latched := latch, modStatus := (p.modStatus &&& 0xF8FF) ||| BitVec.ofNat 16 (why * 256) } := by
  rw [offPower, if_neg hw, BitVec.and_assoc]
  rfl

section
variable {d : Dev}

theorem switchOff_of_off (h : d.c.pwr.on = false) (why : Nat) (latch : Bool) : switchOff why latch d = d := if_pos (by simp [h])

theorem restartPower_of_latched (h : d.c.pwr.latched = true) : restartPower d = d := if_pos (by simp [h])

variable (hi : d.c.pwr.input = true)
include hi

theorem switchOff_of_on (h : d.c.pwr.on = true) (why : Nat) (latch : Bool) :
    switchOff why latch d = onCtl (onPwr (offPower why latch)) (powerOnState d.c) := if_neg (by simp [hi, h])

/-- HOT is noted before the regulators switch off. -/
theorem overheat_of_on (h : d.c.pwr.on = true) :
    overheat d = onCtl (onPwr (fun p => offPower 4 true { p with modStatus := p.modStatus ||| 8 })) (powerOnState d.c) := by
  have hot : onCtl (modSet 8) d = onCtl (onPwr (fun p => { p with modStatus := p.modStatus ||| 8 })) d :=
    congrArg (fun c : Ctl => { d with c := c }) (if_pos hi)
  rw [overheat, hot, switchOff_of_on (by exact hi) (by exact h)]
  rfl

/-- A switch-off that is not latched ends by itself. -/
theorem restartPower_of_unlatched (h : d.c.pwr.on = false) (hl : d.c.pwr.latched = false) :
    restartPower d = startUp (onCtl (onPwr (fun p => { p with on := true, modStatus := p.modStatus &&& ~~~ 3#16 })) d) := if_neg (by simp [hi, h, hl])

end

/-- Settles O7: each pin's function on each side of its test, and one mask of MOD_STATUS for each cause of a switch-off. -/
theorem powerPinsAndRegulators : Obligations.PowerPinsAndRegulators := by
  refine ⟨fun s => ?pins, fun d => ⟨startUp_of_off, fun h => startUp_of_running h⟩, fun c => ⟨flashCut_of_idle, fun h k => ?badA, fun h k => ?badB⟩,
    fun s hi => ?regulators⟩
  case pins =>
    exact ⟨fun h => pinDev_of_eq (applyPower_of_no_input h), fun h => pinDev_of_eq (applyPower_of_input h),
      fun h => pinDev_of_eq (resetRelease_of_low h), fun h => pinDev_of_eq (resetRelease_of_released h), rfl, rfl⟩
  case badA => rw [flashCut_of_staging h, k, if_pos rfl]
  case badB => rw [flashCut_of_staging h, k, if_neg (by decide)]
  case regulators =>
    have off (why : Nat) (latch : Bool) (hon : s.dev.c.pwr.on = true) :
        pinDev (switchOff why latch) s = .next (s.poweredOn (offPower why latch s.dev.c.pwr)) := pinDev_of_eq (switchOff_of_on hi hon why latch)
    refine ⟨fun hon => ⟨?undervoltage, ?overvoltage, ?overcurrent, ?overtemperature⟩, fun hoff i hmem => ?stays,
      fun _ hl => pinDev_of_eq (restartPower_of_latched hl), fun hoff hl => pinDev_of_eq (restartPower_of_unlatched hi hoff hl)⟩
    case undervoltage => exact (off 1 false hon).trans (by rw [offPower_of_voltage (.inl rfl)])
    case overvoltage => exact (off 2 true hon).trans (by rw [offPower_of_voltage (.inr rfl)])
    case overcurrent => exact (off 3 true hon).trans (by rw [offPower_of_other (by decide)])
    case overtemperature =>
      have hot : pinDev overheat s = .next (s.poweredOn (offPower 4 true { s.dev.c.pwr with modStatus := s.dev.c.pwr.modStatus ||| 8 })) :=
        pinDev_of_eq (overheat_of_on hi hon)
      exact hot.trans (by rw [offPower_of_other (by decide)])
    case stays =>
      have stays (why : Nat) (latch : Bool) : pinDev (switchOff why latch) s = .next s := pinDev_of_eq (switchOff_of_off hoff why latch)
      simp only [List.mem_cons, List.not_mem_nil, or_false] at hmem
      obtain rfl | rfl | rfl := hmem
      · exact stays 1 false
      · exact stays 2 true
      · exact stays 3 true

end Sys2Proof.Machine
end

section
/-! ## Proofs: reference clocks

A clock that is lost or back is one function of the device (R495). With the fabric clock every port goes down in turn: what a port that goes
down sends and reports on the way leaves the state words of the ports, so the turn of each port can be followed by these words alone. -/

namespace Sys2Proof.Machine

/-! ### The state words of the ports -/

/-- The offset of port q's PORT_STATUS. -/
def portWord (q : Nat) : Nat := (portF R.PORT_STATUS.STATE q).off

theorem portWord_eq (q : Nat) : portWord q = 0x2800000 + 0x10000 * q := rfl

/-- A word that is no port's PORT_STATUS: it lies below the ports, or elsewhere in a block of 64 KiB. -/
def AwayFromPorts (off : Nat) : Prop := off < 0x2800000 ∨ off % 0x10000 ≠ 0

theorem AwayFromPorts.ne {off : Nat} (h : AwayFromPorts off) (q : Nat) : portWord q ≠ off := by
  rw [portWord_eq]
  unfold AwayFromPorts at h
  omega

theorem awayFromPorts_of_notice {off : Nat} (h : off ∈ noticeWords) : AwayFromPorts off := by
  have below : ∀ o ∈ noticeWords, o < 0x2800000 := by decide
  exact .inl (below off h)

/-- The state of every port, and the module's power, are as they were. -/
def PortsKept (c t : Ctl) : Prop := t.pwr = c.pwr ∧ ∀ q, getReg t (portWord q) = getReg c (portWord q)

namespace PortsKept

theorem refl (c : Ctl) : PortsKept c c := ⟨rfl, fun _ => rfl⟩

theorem trans {a b c : Ctl} (h : PortsKept a b) (k : PortsKept b c) : PortsKept a c :=
  ⟨k.1.trans h.1, fun q => (k.2 q).trans (h.2 q)⟩

theorem setReg {off : Nat} (h : AwayFromPorts off) (v : Dword) (c : Ctl) : PortsKept c (setReg off v c) :=
  ⟨rfl, fun q => getReg_setReg_ne v c (h.ne q)⟩

theorem setF {f : Fld} (h : AwayFromPorts f.off) (x : Nat) (c : Ctl) : PortsKept c (setF f x c) := setReg h _ c

theorem notice {c t : Ctl} (h : NoticeOnly c t) : PortsKept c t := by
  refine ⟨?_, fun q => h.2 _ (fun hn => (awayFromPorts_of_notice hn).ne q rfl)⟩
  rw [h.1]

/-- What keeps the ports at each step keeps them over a list. -/
theorem foldl {α : Type} {f : Ctl → α → Ctl} (hf : ∀ c a, PortsKept c (f c a)) (l : List α) (c : Ctl) : PortsKept c (l.foldl f c) :=
  foldl_keeps (PortsKept c) l (fun b a h => h.trans (hf b a)) (refl c)

end PortsKept

/-! ### Frames (R240, R244, R271, R470) -/

theorem flowTake_portsKept {peer cls q : Nat} {c t : Ctl} (h : flowTake peer cls q c = some t) : PortsKept c t := by
  unfold flowTake at h
  dsimp only at h
  split at h
  · cases h; exact .refl c
  · split at h
    · cases h
    · cases h
      split
      · exact .setF (.inr (by decide)) _ _
      · exact .refl c

theorem flowNext_portsKept {peer cls q a : Nat} {first : Bool} {c t : Ctl} (h : flowNext peer cls q c = some (t, first, a)) : PortsKept c t := by
  unfold flowNext at h
  split at h
  · cases h
  · next u hu =>
    cases h
    exact .trans (flowTake_portsKept hu) ⟨rfl, fun _ => rfl⟩

theorem tenSpend_portsKept {f : Fld} (hf : AwayFromPorts f.off) (c : Ctl) : PortsKept c (tenSpend f c) := by
  unfold tenSpend
  split
  · dsimp only
    split
    · exact .setReg hf _ c
    · exact .refl c
  · exact .refl c

theorem tenInjected_portsKept (c : Ctl) : PortsKept c (tenInjected c) := by
  unfold tenInjected
  dsimp only
  split
  · exact .setF (.inl (by decide)) _ _
  · exact .setF (.inl (by decide)) _ _

/-- A frame that leaves is counted by a link engine. -/
theorem emit_portsKept {q p : Nat} {f : Frame} {c t : Ctl} (h : emit q p f c = some t) : PortsKept c t := by
  have counted (c : Ctl) : PortsKept c (lpeCount R.LPE_TX.COUNT q c) :=
    .setF (.inr (by show (0x2c00008 + 0x10000 * lpeOf c q) % 0x10000 ≠ 0; omega)) _ c
  unfold emit at h
  dsimp only at h
  split at h
  · cases h
  · next u first a hu =>
    cases h
    refine .trans ((flowNext_portsKept hu).trans ?_) (counted _)
    split
    · exact (tenSpend_portsKept (.inl (by decide)) u).trans (tenInjected_portsKept _)
    · exact .refl u

theorem sendOn_portsKept (q : Nat) (f : Frame) (c : Ctl) : PortsKept c (sendOn q f c) := by
  unfold sendOn
  split
  · exact .refl c
  · split
    · next t ht =>
      unfold tryPort at ht
      split at ht
      · cases ht
      · split at ht
        · exact emit_portsKept ht
        · cases ht
    · exact .refl c

theorem retryFrame_portsKept (c : Ctl) (w : WaitFrame) : PortsKept c (retryFrame c w) := by
  unfold retryFrame
  split
  · split
    · exact sendOn_portsKept _ _ c
    · exact sendOn_portsKept _ _ { c with turn := c.turn + 1 }
  · exact .refl c

theorem flushWait_portsKept (c : Ctl) : PortsKept c (flushWait c) :=
  .foldl retryFrame_portsKept _ { c with waitq := [] }

/-! ### Charges (R384, R386) -/

theorem markDue_pwr (k : Nat) (c : Ctl) : (markDue k c).pwr = c.pwr := by
  unfold markDue
  dsimp only
  split <;> split <;> rfl

theorem chargeUnit_pwr (kind src : Nat) (c : Ctl) : (chargeUnit kind src c).pwr = c.pwr := by
  unfold chargeUnit finding
  dsimp only
  split
  · exact markDue_pwr src _
  · rw [(raiseAt_notice _ _ _ _ _ _ _).1]
    exact markDue_pwr src _

theorem chargeUnit_portsKept (kind src : Nat) (c : Ctl) : PortsKept c (chargeUnit kind src c) := by
  have head : AwayFromPorts R.FAN_LOG_SEL.HEAD.off := .inl (by decide)
  have acc : AwayFromPorts R.FAN_STATUS.ACC.off := .inl (by decide)
  exact ⟨chargeUnit_pwr kind src c, fun q => getReg_chargeUnit kind src c (head.ne q) (acc.ne q) (fun hn => (awayFromPorts_of_notice hn).ne q rfl)⟩

/-! ### A port goes down (R232, R235, R266) -/

/-- Port q trains, is up or is paused (R266). -/
def PortActive (c : Ctl) (q : Nat) : Prop := getF c (portF R.PORT_STATUS.STATE q) ∈ [1, 2, 3]

theorem portActive_iff {c : Ctl} {q : Nat} : PortActive c q ↔ getF c (portF R.PORT_STATUS.STATE q) = 1 ∨ getF c (portF R.PORT_STATUS.STATE q) = 2 ∨
    getF c (portF R.PORT_STATUS.STATE q) = 3 := by
  simp [PortActive]

/-- A port that is not active is neither up nor paused. -/
theorem not_up_of_inactive {c : Ctl} {q : Nat} (h : ¬ PortActive c q) :
    getF c (portF R.PORT_STATUS.STATE q) ≠ 2 ∧ getF c (portF R.PORT_STATUS.STATE q) ≠ 3 :=
  ⟨fun up => h (portActive_iff.mpr (.inr (.inl up))), fun paused => h (portActive_iff.mpr (.inr (.inr paused)))⟩

/-- Port q is down, with cause LANES. -/
def PortLost (c : Ctl) (q : Nat) : Prop :=
  getF c (portF R.PORT_STATUS.STATE q) = 4 ∧ getF c (portF R.PORT_STATUS.DOWN_CAUSE q) = 1

/-- Fields of a state word that is the same are the same. -/
theorem getF_of_portWord {c t : Ctl} {q : Nat} (h : getReg t (portWord q) = getReg c (portWord q)) {f : Fld} (hf : f.off = R.PORT_STATUS.adr) :
    getF t (portF f q) = getF c (portF f q) := by
  have word : (portF f q).off = portWord q := by simp only [portF, Fld.at, hf]; rfl
  rw [getF, getF, word, h]

theorem portActive_congr {c t : Ctl} {q : Nat} (h : getReg t (portWord q) = getReg c (portWord q)) : PortActive t q ↔ PortActive c q := by
  rw [PortActive, PortActive, getF_of_portWord h rfl]

theorem portLost_congr {c t : Ctl} {q : Nat} (h : getReg t (portWord q) = getReg c (portWord q)) : PortLost t q ↔ PortLost c q := by
  rw [PortLost, PortLost, getF_of_portWord h rfl, getF_of_portWord h rfl]

section
variable (p : Nat) (c : Ctl)

theorem getReg_setPortSt (f : PortSt → PortSt) (off : Nat) : getReg (setPortSt p f c) off = getReg c off := rfl

theorem getF_setPortSt (f : PortSt → PortSt) (g : Fld) : getF (setPortSt p f c) g = getF c g := rfl

theorem state_of_portDark : getF (portDark p downLanes c) (portF R.PORT_STATUS.STATE p) = 4 := by
  simp only [portDark]
  rw [getF_setPortSt]
  simp only [portF]
  rw [getF_setF_at_off _ _ _ (by decide), getF_setF_at_off _ _ _ (by decide), getF_setF_at_bits _ _ _ (by decide) (by decide) (by decide),
    getF_setF_at_bits _ _ _ (by decide) (by decide) (by decide), getF_setF_at_bits _ _ _ (by decide) (by decide) (by decide),
    getF_setF_at_same _ _ _ (by decide)]
  rfl

theorem cause_of_portDark : getF (portDark p downLanes c) (portF R.PORT_STATUS.DOWN_CAUSE p) = 1 := by
  simp only [portDark]
  rw [getF_setPortSt]
  simp only [portF]
  rw [getF_setF_at_off _ _ _ (by decide), getF_setF_at_off _ _ _ (by decide), getF_setF_at_bits _ _ _ (by decide) (by decide) (by decide),
    getF_setF_at_bits _ _ _ (by decide) (by decide) (by decide), getF_setF_at_same _ _ _ (by decide)]
  rfl

/-- PORT_STATUS and PORT_LANES of port p lie in p's block. -/
theorem getReg_setF_port {p q : Nat} {g : Fld} (hg : g.off ∈ [R.PORT_STATUS.adr, R.PORT_LANES.adr]) (h : q ≠ p) (v : Nat) (c : Ctl) :
    getReg (setF (portF g p) v c) (portWord q) = getReg c (portWord q) := by
  refine getReg_setReg_ne _ c ?_
  simp only [R.PORT_STATUS.adr, R.PORT_LANES.adr, List.mem_cons, List.not_mem_nil, or_false] at hg
  simp only [portWord_eq, portF, Fld.at]
  omega

/-- A port that goes dark writes no other port's state. -/
theorem getReg_portDark_other {q : Nat} (h : q ≠ p) (cause : Nat) : getReg (portDark p cause c) (portWord q) = getReg c (portWord q) := by
  simp only [portDark]
  rw [getReg_setPortSt, getReg_setF_port (by decide) h, getReg_setF_port (by decide) h, getReg_setF_port (by decide) h, getReg_setF_port (by decide) h,
    getReg_setF_port (by decide) h, getReg_setF_port (by decide) h]

end

theorem portLost_of_portDark (p : Nat) (c : Ctl) : PortLost (portDark p downLanes c) p := ⟨state_of_portDark p c, cause_of_portDark p c⟩

/-- From `c` to `t` the power stays, and a port's word stays but where a spare that was off begins to train. -/
def SpareOnly (c t : Ctl) : Prop :=
  t.pwr = c.pwr ∧ ∀ q, getReg t (portWord q) = getReg c (portWord q) ∨
    getF c (portF R.PORT_STATUS.STATE q) = 0 ∧ getF t (portF R.PORT_STATUS.STATE q) = 1

theorem SpareOnly.between {a b c d : Ctl} (h : PortsKept a b) (k : SpareOnly b c) (l : PortsKept c d) : SpareOnly a d := by
  refine ⟨l.1.trans (k.1.trans h.1), fun q => ?_⟩
  obtain word | ⟨off, trains⟩ := k.2 q
  · exact .inl ((l.2 q).trans (word.trans (h.2 q)))
  · exact .inr ⟨(getF_of_portWord (h.2 q) rfl).symm.trans off, (getF_of_portWord (l.2 q) rfl).trans trains⟩

/-- A port that was not off is left alone. -/
theorem SpareOnly.word {c t : Ctl} {q : Nat} (h : SpareOnly c t) (hq : getF c (portF R.PORT_STATUS.STATE q) ≠ 0) :
    getReg t (portWord q) = getReg c (portWord q) := (h.2 q).resolve_right (fun k => hq k.1)

theorem portReplace_spareOnly (p cause : Nat) (c : Ctl) : SpareOnly c (portReplace p cause c) := by
  have kept : SpareOnly c c := ⟨rfl, fun _ => .inl rfl⟩
  unfold portReplace
  split
  · split
    · exact kept
    · unfold spareTrain
      split
      · next k _ sp hsp =>
        split
        · exact kept
        · have off : getF c (portF R.PORT_STATUS.STATE sp) = 0 := by
            have found := List.find?_some hsp
            simp only [Bool.and_eq_true, beq_iff_eq] at found
            obtain ⟨⟨⟨⟨⟨_, off⟩, _⟩, _⟩, _⟩, _⟩ := found
            exact off
          refine ⟨rfl, fun q => ?_⟩
          by_cases hq : q = sp
          · subst hq
            exact .inr ⟨off, by rw [startTraining, portF, getF_setF_at_same _ _ _ (by decide)]; rfl⟩
          · exact .inl (getReg_setReg_ne _ _ (by show portWord q ≠ portWord sp; rw [portWord_eq, portWord_eq]; omega))
      · exact kept
  · exact kept

/-! ### Every port loses its lock (R232, R495) -/

theorem lockLost_of_inactive {p : Nat} {c : Ctl} (h : ¬ PortActive c p) : lockLost p c = c := by
  have dark : portLive c p = false := by
    simp only [portLive, Bool.or_eq_false_iff, beq_eq_false_iff_ne]
    exact not_up_of_inactive h
  have idle : ¬ [1, 2, 3].contains (getF c (portF R.PORT_STATUS.STATE p)) = true := by simpa [PortActive] using h
  simp only [lockLost, dark, Bool.false_eq_true, if_false, if_neg idle]

/-- A port that loses its lock is charged for its lanes and goes dark; after that only a spare may begin to train. -/
theorem lockLost_of_active {p : Nat} {c : Ctl} (h : PortActive c p) :
    ∃ c1, PortsKept c c1 ∧ SpareOnly (portDark p downLanes c1) (lockLost p c) := by
  unfold lockLost
  extract_lets lanes c1
  have charged : PortsKept c c1 := by
    show PortsKept c (if portLive c p = true then forN lanes (fun _ => chargeUnit kLane (srcPort p)) c else c)
    split
    · exact forN_keeps (PortsKept c) lanes (fun _ b h => h.trans (chargeUnit_portsKept _ _ b)) (.refl c)
    · exact .refl c
  have active : PortActive c1 p := (portActive_congr (charged.2 p)).2 h
  refine ⟨c1, charged, ?_⟩
  have down : portDown p downLanes c1 = flushWait (portReplace p downLanes (raiseLink 0x0F (srcPort p) p (portDark p downLanes c1))) := by
    rw [portActive_iff] at active
    obtain h1 | h2 | h3 := active
    · simp [portDown, h1]
    · simp [portDown, h2]
    · simp [portDown, h3]
  have contained : [1, 2, 3].contains (getF c1 (portF R.PORT_STATUS.STATE p)) = true := by simpa [PortActive] using active
  rw [if_pos contained, down]
  exact .between (.notice (raise_notice _ _ _ _ _)) (portReplace_spareOnly p downLanes _) (flushWait_portsKept _)

/-- The turn of port p: it is lost if it was active, and no other port changes but for a spare that begins to train. -/
theorem lockLost_turn (p : Nat) (c : Ctl) : (lockLost p c).pwr = c.pwr ∧ (PortActive c p → PortLost (lockLost p c) p) ∧
    ∀ q, q ≠ p → getReg (lockLost p c) (portWord q) = getReg c (portWord q) ∨
      getF c (portF R.PORT_STATUS.STATE q) = 0 ∧ getF (lockLost p c) (portF R.PORT_STATUS.STATE q) = 1 := by
  by_cases h : PortActive c p
  · obtain ⟨c1, charged, spare⟩ := lockLost_of_active h
    have lost := portLost_of_portDark p c1
    refine ⟨spare.1.trans charged.1, fun _ => ?_, fun q hq => ?_⟩
    · exact (portLost_congr (spare.word (by rw [lost.1]; decide))).2 lost
    · have word : getReg (portDark p downLanes c1) (portWord q) = getReg c (portWord q) := (getReg_portDark_other p c1 hq _).trans (charged.2 q)
      obtain same | ⟨off, trains⟩ := spare.2 q
      · exact .inl (same.trans word)
      · exact .inr ⟨(getF_of_portWord word rfl).symm.trans off, trains⟩
  · rw [lockLost_of_inactive h]
    exact ⟨rfl, fun ha => absurd ha h, fun _ _ => .inl rfl⟩

/-- After the turns of the ports below n: those that were active are lost, those that are still to come are as they were, and of the others none
is up or paused. -/
def LostBelow (n : Nat) (c t : Ctl) : Prop :=
  t.pwr = c.pwr ∧ ∀ q, (PortActive c q → (q < n → PortLost t q) ∧ (n ≤ q → getReg t (portWord q) = getReg c (portWord q))) ∧
    (¬ PortActive c q → getF t (portF R.PORT_STATUS.STATE q) ≠ 2 ∧ getF t (portF R.PORT_STATUS.STATE q) ≠ 3)

theorem forN_succ {α : Type} (n : Nat) (f : Nat → α → α) (a : α) : forN (n + 1) f a = f n (forN n f a) := by
  rw [forN, forN, List.range_succ, List.foldl_append]
  rfl

theorem lostBelow_forN (c : Ctl) : ∀ n, LostBelow n c (forN n lockLost c)
  | 0 => ⟨rfl, fun q => ⟨fun _ => ⟨fun h => absurd h (Nat.not_lt_zero q), fun _ => rfl⟩, not_up_of_inactive⟩⟩
  | n + 1 => by
    obtain ⟨power, ports⟩ := lostBelow_forN c n
    rw [forN_succ]
    generalize forN n lockLost c = t at power ports
    obtain ⟨power', turn, others⟩ := lockLost_turn n t
    refine ⟨power'.trans power, fun q => ?_⟩
    obtain ⟨wasActive, wasNot⟩ := ports q
    by_cases hq : q = n
    · subst hq
      refine ⟨fun h => ⟨fun _ => turn ((portActive_congr ((wasActive h).2 (Nat.le_refl _))).2 h), fun hle => absurd hle (by omega)⟩, fun h => ?_⟩
      by_cases hnow : PortActive t q
      · rw [(turn hnow).1]
        decide
      · rw [lockLost_of_inactive hnow]
        exact wasNot h
    · refine ⟨fun h => ⟨fun hlt => ?_, fun hle => ?_⟩, fun h => ?_⟩
      · have lost := (wasActive h).1 (by omega)
        exact (portLost_congr ((others q hq).resolve_right (fun k => by rw [lost.1] at k; omega))).2 lost
      · have word := (wasActive h).2 (by omega)
        have on : getF t (portF R.PORT_STATUS.STATE q) ≠ 0 := by
          have active := (portActive_congr word).2 h
          rw [portActive_iff] at active
          omega
        exact ((others q hq).resolve_right (fun k => on k.1)).trans word
      · obtain same | ⟨_, trains⟩ := others q hq
        · rw [getF_of_portWord same rfl]
          exact wasNot h
        · rw [trains]
          decide

/-! ### Records of one cycle (R456) -/

theorem gatherEnd_notice (c : Ctl) : NoticeOnly c (gatherEnd c) := by
  unfold gatherEnd
  split
  · extract_lets sorted
    exact foldl_keeps (NoticeOnly c) sorted (fun b e h => h.trans (eventPush_notice e b)) (.host c _)
  · exact .refl c

/-- A change made in one cycle is the change of the state, or of the state with its records gathered, but for what their entering the queue
notes. -/
theorem inCycle_notice (f : Ctl → Ctl) (c : Ctl) : ∃ c0, (c0 = c ∨ c0 = gatherStart c) ∧ NoticeOnly (f c0) (inCycle f c) := by
  unfold inCycle
  split
  · exact ⟨c, .inl rfl, .refl _⟩
  · exact ⟨gatherStart c, .inr rfl, gatherEnd_notice _⟩

/-! ### The timebase stops (R32, R495) -/

theorem timebaseStops_portsKept (c : Ctl) : PortsKept c (timebaseStops c) := by
  have cleared {f : Fld} (hf : f.off < 0x2800000) (x : Ctl) : PortsKept x (setB f false x) := .setF (.inl hf) _ x
  have left : PortsKept c { c with time := { TimeSt.reset with adj := c.time.adj, lost := c.time.lost, stopped := true } } := ⟨rfl, fun _ => rfl⟩
  exact ((left.trans (cleared (by decide) _)).trans (cleared (by decide) _)).trans (cleared (by decide) _)

/-- No beats run, no stretch is due, and the device has left the job's time messages. -/
def TimeStopped (c : Ctl) : Prop :=
  getB c R.BEAT_STATUS.RUNNING = false ∧ getB c R.BEAT_STATUS.ALIGNED = false ∧ getB c R.BEAT_STRETCH.NEXT_VALID = false ∧
    c.time.stopped = true ∧ c.time.inGuard = false ∧ c.time.joined = false

theorem getB_setB_false {f : Fld} (hf : f.lo + f.w ≤ 64) (c : Ctl) : getB (setB f false c) f = false := by
  rw [getB, setB, getF_setF_same _ _ _ hf]
  simp

theorem getB_setB_off {f g : Fld} (b : Bool) (c : Ctl) (h : g.off ≠ f.off) : getB (setB f b c) g = getB c g := by
  rw [getB, setB, getF_setF_off _ _ h]
  rfl

theorem getB_setB_bits {f g : Fld} (b : Bool) (c : Ctl) (ho : g.off = f.off) (hg : g.lo + g.w ≤ 64) (h : f.lo + f.w ≤ g.lo ∨ g.lo + g.w ≤ f.lo) :
    getB (setB f b c) g = getB c g := by
  rw [getB, setB, getF_setF_bits _ _ ho hg h]
  rfl

theorem timeStopped_of_timebaseStops (c : Ctl) : TimeStopped (timebaseStops c) := by
  refine ⟨getB_setB_false (by decide) _, ?_, ?_, rfl, rfl, rfl⟩
  · rw [timebaseStops, getB_setB_bits _ _ (by decide) (by decide) (by decide)]
    exact getB_setB_false (by decide) _
  · rw [timebaseStops, getB_setB_off _ _ (by decide), getB_setB_off _ _ (by decide)]
    exact getB_setB_false (by decide) _

theorem TimeStopped.notice {c t : Ctl} (h : TimeStopped c) (k : NoticeOnly c t) : TimeStopped t := by
  obtain ⟨run, aligned, next, time⟩ := h
  have same : t.time = c.time := by rw [k.1]
  rw [TimeStopped, k.getB _ (by decide), k.getB _ (by decide), k.getB _ (by decide), same]
  exact ⟨run, aligned, next, time⟩

/-- With the fabric clock gone: every port that was active is lost, none is up, and the timebase has stopped. -/
theorem fabricLost (c : Ctl) {t : Ctl} (ht : inCycle (fun c => timebaseStops (forN 38 lockLost c)) c = t) :
    t.pwr = c.pwr ∧ TimeStopped t ∧ ∀ q, q < 38 → portLive t q = false ∧ (PortActive c q → PortLost t q) := by
  subst ht
  obtain ⟨c0, hc0, notice⟩ := inCycle_notice (fun c => timebaseStops (forN 38 lockLost c)) c
  have start : PortsKept c c0 := by
    obtain rfl | rfl := hc0
    · exact .refl _
    · exact ⟨rfl, fun _ => rfl⟩
  have stop := (timebaseStops_portsKept (forN 38 lockLost c0)).trans (.notice notice)
  obtain ⟨power, ports⟩ := lostBelow_forN c0 38
  refine ⟨stop.1.trans (power.trans start.1), (timeStopped_of_timebaseStops _).notice notice, fun q hq => ?_⟩
  obtain ⟨active, other⟩ := ports q
  have lost (h : PortActive c0 q) := (portLost_congr (stop.2 q)).2 ((active h).1 hq)
  refine ⟨?_, fun h => lost ((portActive_congr (start.2 q)).2 h)⟩
  simp only [portLive, Bool.or_eq_false_iff, beq_eq_false_iff_ne]
  by_cases h : PortActive c0 q
  · rw [(lost h).1]
    decide
  · rw [getF_of_portWord (stop.2 q) rfl]
    exact other h

/-! ### The commands -/

/-- A bit of MOD_STATUS is set along with another change of the power state. -/
theorem modSet_onPwr {c : Ctl} {f : Power → Power} (h : (f c.pwr).input = true) (m : BitVec 16) :
    modSet m (onPwr f c) = onPwr (fun p => { f p with modStatus := (f p).modStatus ||| m }) c := if_pos h

/-- The PCI Express clock is noted as missing. -/
def pcieMissing : Ctl → Ctl := onPwr (fun p => { p with noPcie := true, modStatus := p.modStatus ||| 0x10 })

/-- The fabric clock is noted as missing. -/
def fabricMissing : Ctl → Ctl := onPwr (fun p => { p with noFabric := true, modStatus := p.modStatus ||| 0x20 })

section
variable {d : Dev} (hi : d.c.pwr.input = true)
include hi

theorem clockLost_pcie :
    clockLost .pcie d = if running d.c && d.c.host.linkUp then hostResetRun true true (onCtl pcieMissing d) else onCtl pcieMissing d := by
  have noted : modSet 0x10 (onPwr (fun p => { p with noPcie := true }) d.c) = pcieMissing d.c := modSet_onPwr hi _
  simp only [clockLost, onCtl, noted]
  rfl

theorem clockLost_fabric : clockLost .fabric d =
    onCtl (fun c => if running c then inCycle (fun c => timebaseStops (forN 38 lockLost c)) (fabricMissing c) else fabricMissing c) d := by
  have noted : modSet 0x20 (onPwr (fun p => { p with noFabric := true }) d.c) = fabricMissing d.c := modSet_onPwr hi _
  simp only [clockLost, onCtl, noted]
  rfl

theorem clockLost_system : clockLost .system d =
    powerOnState (onPwr (fun p => { p with noSystem := true, held := true, modStatus := p.modStatus ||| 0x40 }) d.c) := by
  have noted := modSet_onPwr (f := fun p => { p with noSystem := true, held := true }) hi 0x40
  simp only [clockLost, onCtl, noted]

end

/-- Settles O8: the PCI Express and system clocks by the branches of `clockLost`, the fabric clock by the turns of the ports. -/
theorem referenceClocks : Obligations.ReferenceClocks := by
  intro s hi c p
  refine ⟨fun hr hl => pinDev_of_eq ?pcie, fun h => pinDev_of_eq ?noLink, fun hr => ?fabric, fun hr => pinDev_of_eq ?off, pinDev_of_eq ?system,
    fun t ht => by simp [running, ht], rfl, rfl, rfl⟩
  case pcie =>
    rw [clockLost_pcie hi, if_pos (by rw [hr, hl]; rfl)]
    rfl
  case noLink =>
    have unlinked : ¬ (running c && c.host.linkUp) = true := by
      obtain h | h := h
      · simp [h]
      · simp [h]
    rw [clockLost_pcie hi, if_neg unlinked]
    rfl
  case fabric =>
    obtain ⟨power, stopped, ports⟩ := fabricLost (fabricMissing c) rfl
    obtain ⟨run, aligned, next, time⟩ := stopped
    refine ⟨_, pinDev_of_eq (clockLost_fabric hi), ?_⟩
    rw [onCtl, if_pos hr]
    exact ⟨rfl, rfl, power, ports, run, aligned, next, time⟩
  case off =>
    rw [clockLost_fabric hi, onCtl, if_neg (ne_true_of_eq_false hr)]
    rfl
  case system =>
    rw [clockLost_system hi]
    rfl

end Sys2Proof.Machine
end

section
/-! ## Proofs: SMBus

The management controller answers a transfer of its address (R498): one lemma for a read, one for whether a write acts, and one for each bit
of MOD_STATUS that follows a condition. -/

namespace Sys2Proof.Machine

/-! ### Reads -/

/-- The packet error code of a read, if the host takes one: over the address bytes, the command and the body. -/
def readPec (x : SmbRead) (cmd : Nat) (body : List Byte) : List Byte :=
  if x.pec then [BitVec.ofNat 8 (pecOf ([BitVec.ofNat 8 (2 * x.addr.toNat), BitVec.ofNat 8 cmd, BitVec.ofNat 8 (2 * x.addr.toNat + 1)] ++ body))] else []

/-- An answer joins those that the controller has given. -/
def smbGiven (cmd : Nat) (bs : List Byte) (c : Ctl) : Ctl := onPwr (fun p => { p with smb := p.smb ++ [(cmd, bs)] }) c

section
variable {c : Ctl} (hi : c.pwr.input = true)
include hi

/-- A read of the controller's address is answered, its code over the body, which begins with its length for a block read (command 0). -/
theorem smbAnswer_of_heard {x : SmbRead} (ha : x.addr.toNat = 0x58 + c.pwr.smbAddr.toNat) (cmd : Nat) (bs : Ctl → List Byte) :
    smbAnswer cmd x bs c =
      smbGiven cmd (bs c ++ readPec x cmd (if cmd = 0 then BitVec.ofNat 8 (bs c).length :: bs c else bs c)) c := by
  have address : smbAddress c = x.addr.toNat := ha.symm
  have heard : smbHears x.addr c = true := by simp [smbHears, hi, address]
  rw [smbAnswer, if_pos heard, address]
  cases hp : x.pec with
  | false => simp [readPec, smbGiven, hp]
  | true => simp [readPec, smbGiven, hp]

theorem smbWord_of_heard {x : SmbRead} (ha : x.addr.toNat = 0x58 + c.pwr.smbAddr.toNat) {cmd : Nat} (hc : cmd ≠ 0) (v : BitVec 16) :
    smbWord cmd x v c = smbGiven cmd (leBytes 2 v.toNat ++ readPec x cmd (leBytes 2 v.toNat)) c := by
  rw [smbWord, smbAnswer_of_heard hi ha, if_neg hc]

theorem pinMeasured_of_input (v : BitVec 16) : pinMeasured v c = onPwr (fun p => { p with pinPeak := if p.pinPeak ≤ v then v else p.pinPeak }) c :=
  if_pos hi

/-- A bit of MOD_STATUS follows its condition while there is input power. -/
theorem modFollow_of_input (m : BitVec 16) (b : Bool) :
    modFollow m b c = onPwr (fun p => { p with modStatus := (p.modStatus &&& ~~~ m) ||| (if b then m else 0) }) c := if_pos hi

/-- The coolant as measured, and COOL_WARN after it (R492). -/
theorem coolant_of_input (i o : Option Nat) : coolant i o c =
    onPwr (fun p => { p with plateIn := i <|> p.plateIn, plateOut := o <|> p.plateOut,
                             modStatus := (p.modStatus &&& ~~~ 4#16) ||| (if coolShort (i <|> p.plateIn) (o <|> p.plateOut) then 4#16 else 0#16) }) c := by
  rw [coolant, if_pos hi]
  exact modFollow_of_input (by exact hi) _ _

end

/-! ### Writes -/

/-- A write that names the controller's address, with the right packet error code or with none. -/
def WriteTaken (cmd : Nat) (x : SmbWrite) (p : Power) : Prop :=
  x.addr.toNat = 0x58 + p.smbAddr.toNat ∧
    ∀ b, x.pec = some b → b.toNat = pecOf ([BitVec.ofNat 8 (2 * x.addr.toNat), BitVec.ofNat 8 cmd] ++ leBytes 2 x.value.toNat)

theorem smbTaken_iff {c : Ctl} (hi : c.pwr.input = true) (cmd : Nat) (x : SmbWrite) : smbTaken cmd x c = true ↔ WriteTaken cmd x c.pwr := by
  by_cases ha : x.addr.toNat = smbAddress c
  · have address : x.addr.toNat = 0x58 + c.pwr.smbAddr.toNat := ha
    cases hp : x.pec with
    | none => simp [smbTaken, smbHears, WriteTaken, hi, ha, hp, ← address]
    | some b => simp [smbTaken, smbHears, WriteTaken, hi, hp, ← ha, ← address]
  · have other : ¬ x.addr.toNat = 0x58 + c.pwr.smbAddr.toNat := ha
    simp [smbTaken, smbHears, WriteTaken, ha, other]

/-- Settles O9: each read is the answer after what it has measured, and each write acts where `smbTaken_iff` says. -/
theorem smbusCommands : Obligations.SmbusCommands := by
  refine ⟨fun s x v hi ha => ?reads, fun s x uv ov inlet outlet hi => ?writes⟩
  case reads =>
    have word {cmd : Nat} (hc : cmd ≠ 0) (bs : Ctl → List Byte) {c : Ctl} (hci : c.pwr.input = true) (hca : x.addr.toNat = 0x58 + c.pwr.smbAddr.toNat) :
        smbAnswer cmd x bs c = smbGiven cmd (bs c ++ readPec x cmd (bs c)) c := by rw [smbAnswer_of_heard hci hca, if_neg hc]
    refine ⟨?id, ?vin, ?iin, ?pin, ?pinPeak, ?tempMax, ?plateIn, ?plateOut, ?modStatus⟩
    case id => exact pinCtl_of_eq (smbAnswer_of_heard hi ha 0x00 modIdBytes)
    case vin => exact pinCtl_of_eq (smbWord_of_heard hi ha (by decide) v)
    case iin => exact pinCtl_of_eq (smbWord_of_heard hi ha (by decide) v)
    case pin => exact pinCtl_of_eq (by rw [readPin, pinMeasured_of_input hi, smbWord_of_heard (by exact hi) (by exact ha) (by decide) v]; rfl)
    case pinPeak => exact pinCtl_of_eq (by rw [readPinPeak, pinMeasured_of_input hi, word (by decide) _ (by exact hi) (by exact ha)]; rfl)
    case tempMax => exact pinCtl_of_eq (word (by decide) _ hi ha)
    case plateIn => exact pinCtl_of_eq (by rw [coolant_of_input hi, smbWord_of_heard (by exact hi) (by exact ha) (by decide) v]; rfl)
    case plateOut => exact pinCtl_of_eq (by rw [coolant_of_input hi, smbWord_of_heard (by exact hi) (by exact ha) (by decide) v]; rfl)
    case modStatus => exact pinCtl_of_eq (word (by decide) _ hi ha)
  case writes =>
    have taken (cmd : Nat) := smbTaken_iff hi cmd x
    refine ⟨fun h => ?peak, fun h => ?status, fun h => ?noPeak, fun h => ?noStatus, ?vinWarn, ?coolWarn⟩
    case peak => exact pinCtl_of_eq (if_pos ((taken 0x13).2 h))
    case status => exact pinCtl_of_eq (if_pos ((taken 0x30).2 h))
    case noPeak => exact pinCtl_of_eq (if_neg (fun ht => h ((taken 0x13).1 ht)))
    case noStatus => exact pinCtl_of_eq (if_neg (fun ht => h ((taken 0x30).1 ht)))
    case vinWarn => exact pinCtl_of_eq (by rw [modFollow_of_input hi, modFollow_of_input (by exact hi)]; rfl)
    case coolWarn => exact pinCtl_of_eq (coolant_of_input hi _ _)

end Sys2Proof.Machine
end

section
/-! ## Proofs: causes and event records

A cause is taken in one of two ways, by its status bit (R458), and its message goes out or stays pending, by `msixOpen`. A record enters the
queue or is dropped, by the queue's length (R456); the causes that follow its entry leave the queue. -/

namespace Sys2Proof.Machine

/-! ### A cause (R447, R448, R458) -/

/-- A bit set in a word. -/
theorem getLsbD_or_shift (w : Dword) {v : Nat} (hv : v < 64) : (w ||| ((1 : Dword) <<< v)).getLsbD v = true := by
  simp [hv]

/-- The control word of a vector in the MSI-X table is no interrupt register. -/
theorem msixWord_ne_irqStatus (v k : Nat) : msixWord v k ≠ R.IRQ_STATUS.adr := by
  simp only [msixWord, R.IRQ_STATUS.adr]
  omega

section
variable {v : Nat} {c : Ctl}

theorem msixSend_of_open (h : msixOpen v c = true) : ∃ m : MsixMsg, m.vector = v ∧ (msixSend v c).host.msix = c.host.msix ++ [m] := by
  rw [msixSend, if_pos h]
  exact ⟨_, rfl, rfl⟩

theorem msixSend_of_closed (h : msixOpen v c = false) : msixSend v c = setReg pbaOff (getReg c pbaOff ||| (1 <<< v)) c :=
  if_neg (ne_true_of_eq_false h)

/-- A message leaves IRQ_STATUS. -/
theorem getReg_msixSend {off : Nat} (h : off ≠ pbaOff) : getReg (msixSend v c) off = getReg c off := by
  unfold msixSend
  split
  · rfl
  · exact getReg_setReg_ne _ c h

/-- The status bit of vector v is set. -/
def irqNoted (v : Nat) (c : Ctl) : Ctl := setReg R.IRQ_STATUS.adr (getReg c R.IRQ_STATUS.adr ||| (1 <<< v)) c

theorem msixOpen_irqNoted : msixOpen v (irqNoted v c) = msixOpen v c := by
  have word : getReg (irqNoted v c) (msixWord v 3) = getReg c (msixWord v 3) := getReg_setReg_ne _ c (msixWord_ne_irqStatus v 3)
  rw [msixOpen, msixOpen, word]
  rfl

theorem cause_of_noted (h : (getReg c R.IRQ_STATUS.adr).getLsbD v = true) : cause v c = c := if_pos h

variable (h : (getReg c R.IRQ_STATUS.adr).getLsbD v = false)
include h

/-- A new cause sends a message where its vector is enabled. -/
theorem cause_of_new : cause v c = if (getReg c R.IRQ_ENABLE.adr).getLsbD v then msixSend v (irqNoted v c) else irqNoted v c := by
  have enable : getReg (irqNoted v c) R.IRQ_ENABLE.adr = getReg c R.IRQ_ENABLE.adr := getReg_setReg_ne _ c (by decide)
  rw [cause, if_neg (ne_true_of_eq_false h), ← enable]
  rfl

theorem irqStatus_of_cause (hv : v < 20) : (getReg (cause v c) R.IRQ_STATUS.adr).getLsbD v = true := by
  have noted : (getReg (irqNoted v c) R.IRQ_STATUS.adr).getLsbD v = true := by
    rw [irqNoted, getReg_setReg_same]
    exact getLsbD_or_shift _ (by omega)
  rw [cause_of_new h]
  split
  · rw [getReg_msixSend (by decide)]
    exact noted
  · exact noted

theorem msix_of_disabled (he : (getReg c R.IRQ_ENABLE.adr).getLsbD v = false) : (cause v c).host.msix = c.host.msix := by
  rw [cause_of_new h, he]
  rfl

theorem msix_of_open (he : (getReg c R.IRQ_ENABLE.adr).getLsbD v = true) (ho : msixOpen v c = true) :
    ∃ m : MsixMsg, m.vector = v ∧ (cause v c).host.msix = c.host.msix ++ [m] := by
  rw [cause_of_new h, if_pos he]
  exact msixSend_of_open (msixOpen_irqNoted.trans ho)

/-- A vector that may not send now notes that its message is pending. -/
theorem pending_of_closed (hv : v < 20) (he : (getReg c R.IRQ_ENABLE.adr).getLsbD v = true) (ho : msixOpen v c = false) :
    (cause v c).host.msix = c.host.msix ∧ (getReg (cause v c) pbaOff).getLsbD v = true := by
  rw [cause_of_new h, if_pos he, msixSend_of_closed (msixOpen_irqNoted.trans ho)]
  refine ⟨rfl, ?_⟩
  rw [getReg_setReg_same]
  exact getLsbD_or_shift _ (by omega)

end

/-! ### A record (R453, R456) -/

theorem msixSend_evq (v : Nat) (c : Ctl) : (msixSend v c).host.evq = c.host.evq := by
  unfold msixSend
  split
  · rfl
  · rfl

/-- A cause leaves the event queue. -/
theorem cause_evq (v : Nat) (c : Ctl) : (cause v c).host.evq = c.host.evq := by
  unfold cause
  split
  · rfl
  · extract_lets c'
    split
    · exact msixSend_evq v c'
    · rfl

theorem evtLevel_evq (c : Ctl) : (evtLevel c).host.evq = c.host.evq := by
  unfold evtLevel
  split
  · exact cause_evq 0 c
  · rfl

theorem eventPush_evq_of_room {e : Event} {c : Ctl} (h : c.host.evq.length < evqMax) : (eventPush e c).host.evq = c.host.evq ++ [e] := by
  rw [eventPush, if_neg (Nat.not_le.2 h)]
  exact (evtLevel_evq _).trans (cause_evq _ _)

theorem eventPush_of_full {e : Event} {c : Ctl} (h : evqMax ≤ c.host.evq.length) : eventPush e c = satF R.EVT_STATUS.DROPS 1 c := if_pos h

theorem raiseAt_of_single {c : Ctl} (h : c.host.gather = none) (beat step cls sub src detail : Nat) :
    raiseAt beat step cls sub src detail c = eventPush (mkEvent cls sub src detail beat step c) c := by
  simp only [raiseAt, h]

/-- Settles O12: a new cause by `cause_of_new`, a record outside a cycle by `raiseAt_of_single` and the room of the queue. -/
theorem causesAndEventRecords : Obligations.CausesAndEventRecords := by
  refine ⟨fun c v hv => ⟨cause_of_noted, fun h => ⟨irqStatus_of_cause h hv, msix_of_disabled h, msix_of_open h, pending_of_closed h hv⟩⟩,
    fun c beat step cls sub src detail hg => ?record⟩
  rw [raiseAt_of_single hg]
  exact ⟨eventPush_evq_of_room, eventPush_of_full⟩

end Sys2Proof.Machine
end

section
/-! ## Proofs: the event queue and the interrupt registers

What the host writes goes through the host port: at a port that is quiet it acts at once (`hostRequest_write`), and what it does is a write in
the HOST block. -/

namespace Sys2Proof.Machine

/-! ### Writes in the HOST block (R8, R449) -/

/-- A write of a register of the HOST block, in a form that the register takes. -/
theorem bar0Write_host {off width : Nat} (v : Dword) {d : Dev} (hf : regTest off width = true) (ho : off < 0x10000)
    (hn : namesRegister off = true) (ht : isFanTemp off width = false) (hm : mainReady d.c 0 = true) :
    bar0Write off width v d = writeWord off width v .host d := by
  have block : blockAt off = some .host := if_pos ho
  have reached : writesReach d.c off .host = true := hm
  simp [bar0Write, writeReg, hf, block, reached, hn, ht]

/-- A write by the access columns of the register's row. -/
theorem maskWrite_of_row {off : Nat} {r : RegRow} (h : regRowAt off = some r) (v : Dword) (c : Ctl) :
    maskWrite off v c = setReg off ((getReg c off &&& ~~~ BitVec.ofNat 64 r.rw &&& ~~~ (BitVec.ofNat 64 r.w1c &&& v)) ||| (v &&& BitVec.ofNat 64 r.rw)) c := by
  simp only [maskWrite, h]

/-- A register without RW bits: ones clear. -/
theorem masked_w1c (w v m : Dword) : (w &&& ~~~ 0 &&& ~~~ (m &&& v)) ||| (v &&& 0) = w &&& ~~~ (v &&& m) := by
  have ones : ~~~ (0 : Dword) = BitVec.allOnes 64 := rfl
  have none : v &&& (0 : Dword) = 0 := BitVec.and_zero
  rw [ones, none, BitVec.and_allOnes, BitVec.and_comm m]
  exact BitVec.or_zero

/-- A register without W1C bits: its RW bits are the value's. -/
theorem masked_rw (w v m : Dword) : (w &&& ~~~ m &&& ~~~ (0 &&& v)) ||| (v &&& m) = (w &&& ~~~ m) ||| (v &&& m) := by
  have none : ~~~ ((0 : Dword) &&& v) = BitVec.allOnes 64 := congrArg (~~~ ·) BitVec.zero_and
  rw [none, BitVec.and_allOnes]

theorem maskWrite_irqStatus (v : Dword) (c : Ctl) :
    maskWrite R.IRQ_STATUS.adr v c = setReg R.IRQ_STATUS.adr (getReg c R.IRQ_STATUS.adr &&& ~~~ (v &&& 0xFFFFF)) c := by
  have row : regRowAt R.IRQ_STATUS.adr = some ⟨R.IRQ_STATUS.adr, 8, [], 0, 0xFFFFF, 0⟩ := by decide +kernel
  exact (maskWrite_of_row row v c).trans (congrArg (setReg _ · c) (masked_w1c _ v _))

/-- IRQ_ENABLE after a write: its 20 enables are those of the value. -/
def irqEnabled (v : Dword) (c : Ctl) : Dword := (getReg c R.IRQ_ENABLE.adr &&& ~~~ 0xFFFFF) ||| (v &&& 0xFFFFF)

theorem maskWrite_irqEnable (v : Dword) (c : Ctl) : maskWrite R.IRQ_ENABLE.adr v c = setReg R.IRQ_ENABLE.adr (irqEnabled v c) c := by
  have row : regRowAt R.IRQ_ENABLE.adr = some ⟨R.IRQ_ENABLE.adr, 8, [], 0xFFFFF, 0, 0⟩ := by decide +kernel
  exact (maskWrite_of_row row v c).trans (congrArg (setReg _ · c) (masked_rw _ v _))

/-- The vectors whose enable becomes 1 while their status bit is 1 send (R458). -/
theorem irqEnable_eq (v : Dword) (c : Ctl) :
    irqEnable v c = forN 20 (fun i c' =>
      if (irqEnabled v c &&& ~~~ getReg c R.IRQ_ENABLE.adr &&& getReg c R.IRQ_STATUS.adr).getLsbD i then msixSend i c' else c')
      (setReg R.IRQ_ENABLE.adr (irqEnabled v c) c) := by
  simp only [irqEnable, maskWrite_irqEnable, getReg_setReg_same]
  rw [getReg_setReg_ne _ _ (by decide)]

theorem irqEnable_sameRequests (v : Dword) (c : Ctl) : SameRequests c (irqEnable v c) := by
  rw [irqEnable_eq]
  refine forN_keeps (SameRequests c) 20 (fun i b h => ?_) ⟨rfl, rfl⟩
  split
  · exact h.trans (msixSend_sameRequests i b)
  · exact h

/-! ### The host's writes at a quiet port -/

section
variable {d : Dev} (hq : PortQuiet d.c) (hr : hostReaches d.c = true) (h3 : d.c.host.d3 = false)
include hq hr h3

/-- A write in the HOST block that leaves the host's requests as they are. -/
theorem hostRequest_hostWrite {off width : Nat} {v : Dword} {f : Ctl → Ctl} (hf : regTest off width = true) (hp : portholeForm off width = true)
    (ho : off < 0x10000) (hn : namesRegister off = true) (ht : isFanTemp off width = false) (hw : writeWord off width v .host d = onCtl f d)
    (hs : SameRequests d.c (f d.c)) :
    hostRequest { isRead := false, bar0 := true, off := off, width := width, data := v } d = onCtl f d := by
  have ready : mainReady d.c 0 = true := by
    simp only [hostReaches, Bool.and_eq_true] at hr
    exact hr.1
  exact hostRequest_write off width v hq hr h3 hp ((bar0Write_host v hf ho hn ht ready).trans hw) hs.1 (hs.2.trans hq.1)

theorem hostRequest_evtPop :
    hostRequest { isRead := false, bar0 := true, off := R.EVT_POP.adr, width := 4, data := 1 } d = onCtl evtPop d :=
  hostRequest_hostWrite hq hr h3 (by decide +kernel) (by decide) (by decide) (by decide +kernel) (by decide) rfl ⟨rfl, rfl⟩

theorem hostRequest_irqStatus (v : Dword) :
    hostRequest { isRead := false, bar0 := true, off := R.IRQ_STATUS.adr, width := 8, data := v } d =
      onCtl (fun c => setReg R.IRQ_STATUS.adr (getReg c R.IRQ_STATUS.adr &&& ~~~ (v &&& 0xFFFFF)) c) d :=
  hostRequest_hostWrite hq hr h3 (by decide +kernel) (by decide) (by decide) (by decide +kernel) (by decide)
    (congrArg (fun c : Ctl => { d with c := c }) (maskWrite_irqStatus v d.c)) ⟨rfl, rfl⟩

theorem hostRequest_irqEnable (v : Dword) :
    hostRequest { isRead := false, bar0 := true, off := R.IRQ_ENABLE.adr, width := 8, data := v } d = onCtl (irqEnable v) d :=
  hostRequest_hostWrite hq hr h3 (by decide +kernel) (by decide) (by decide) (by decide +kernel) (by decide) rfl (irqEnable_sameRequests v d.c)

end

theorem hostRequest_of_unreached {d : Dev} (q : HostReq) (h : hostReaches d.c = false) : hostRequest q d = d := if_neg (ne_true_of_eq_false h)

/-- The oldest record has waited its time (R461). -/
theorem evtAge_of_due {c : Ctl} {e : Event} {rest : List Event} (hq : c.host.evq = e :: rest) (ha : 0 < getF c R.EVT_IRQ.AGE)
    (ht : e.entered + getF c R.EVT_IRQ.AGE ≤ c.ticks) : evtAge c = cause 0 c := by
  simp only [evtAge, hq]
  exact if_pos ⟨ha, ht⟩

/-- The three commands are a write of the host each. -/
theorem exec_hostWrite {i : Instr} {v : Dword} (hi : i ∈ [Instr.evtPop, .irqStatusClear v, .irqEnableWrite v]) :
    ∃ q : HostReq, q.isRead = false ∧ ∀ s, exec i s = runDev (hostRequest q) s := by
  simp only [List.mem_cons, List.not_mem_nil, or_false] at hi
  obtain rfl | rfl | rfl := hi
  · exact ⟨_, rfl, fun _ => rfl⟩
  · exact ⟨_, rfl, fun _ => rfl⟩
  · exact ⟨_, rfl, fun _ => rfl⟩

/-- Settles O11: the age by `evtAge_of_due`, the writes by what they do in the HOST block, in D3hot and out of reach by the port's rules. -/
theorem eventQueueAndInterrupts : Obligations.EventQueueAndInterrupts := by
  intro s v e rest hr c new
  refine ⟨fun hq ha ht => runCtl_of_eq hr (evtAge_of_due hq ha ht), fun hs h3 hq => ⟨?pop, ?status, ?enable⟩, fun hs h3 hq i hi => ?asleep,
    fun hs i hi => ?away⟩
  case pop => exact runDev_of_eq hr (hostRequest_evtPop hq hs h3)
  case status => exact runDev_of_eq hr (hostRequest_irqStatus hq hs h3 v)
  case enable => exact runDev_of_eq hr ((hostRequest_irqEnable hq hs h3 v).trans (congrArg (fun c : Ctl => { s.dev with c := c }) (irqEnable_eq v c)))
  case asleep =>
    obtain ⟨q, hw, he⟩ := exec_hostWrite hi
    rw [he]
    exact runDev_of_eq hr (hostRequest_d3_write q hq hs h3 hw)
  case away =>
    obtain ⟨q, _, he⟩ := exec_hostWrite hi
    rw [he]
    exact runDev_of_eq hr (hostRequest_of_unreached q hs)

end Sys2Proof.Machine
end

section
/-! ## Proofs: resets of the host port, power states and the link

A reset is `hostReset`, of which each field and each register word is said here once (R452); the other commands are one test each (R446 to R448,
R473). -/

namespace Sys2Proof.Machine

/-! ### What a reset leaves (R452) -/

theorem getF_lt (c : Ctl) (f : Fld) : getF c f < 2 ^ f.w := by
  rw [getF, fldGet_eq]
  exact Nat.mod_lt _ (Nat.two_pow_pos _)

/-- The words of the HOST block are forgotten. -/
def hostWordsReset (c : Ctl) : Ctl := { c with regs := c.regs.filter (fun x => decide (0x10000 ≤ x.1)) }

theorem getReg_hostWordsReset (c : Ctl) (off : Nat) : getReg (hostWordsReset c) off = if 0x10000 ≤ off then getReg c off else regReset off := by
  rw [getReg, hostWordsReset, look_filter (fun k => decide (0x10000 ≤ k))]
  by_cases h : 0x10000 ≤ off
  · simp [h, getReg]
  · simp [h]

section
variable (down counted : Bool) (c : Ctl)

/-- HOST_LINK.RESETS after a reset. -/
def resetsCount (counted : Bool) (c : Ctl) : Nat :=
  if counted then min 0xFFFF (getF c R.HOST_LINK.RESETS + 1) else getF c R.HOST_LINK.RESETS

theorem resetsCount_lt : resetsCount counted c < 2 ^ 16 := by
  have below : getF c R.HOST_LINK.RESETS < 2 ^ 16 := getF_lt c R.HOST_LINK.RESETS
  unfold resetsCount
  split
  · omega
  · exact below

/-- The registers that a reset leaves. -/
theorem getReg_hostReset (off : Nat) :
    getReg (hostReset down counted c) off = getReg (setF R.HOST_LINK.RESETS (resetsCount counted c) (hostWordsReset c)) off := rfl

theorem getReg_hostReset_other {off : Nat} (h : off ≠ R.HOST_LINK.RESETS.off) :
    getReg (hostReset down counted c) off = if 0x10000 ≤ off then getReg c off else regReset off := by
  rw [getReg_hostReset, setF, getReg_setReg_ne _ _ h, getReg_hostWordsReset]

theorem resets_of_hostReset : getF (hostReset down counted c) R.HOST_LINK.RESETS = resetsCount counted c := by
  have field : getF (hostReset down counted c) R.HOST_LINK.RESETS =
    getF (setF R.HOST_LINK.RESETS (resetsCount counted c) (hostWordsReset c)) R.HOST_LINK.RESETS := rfl
  rw [field, getF_setF_same _ _ _ (by decide)]
  exact Nat.mod_eq_of_lt (resetsCount_lt counted c)

/-- Bus Master Enable and MSI-X go, at a fundamental reset and at any other. -/
theorem cfgReset_off (power : Bool) (g : Cfg) :
    (cfgReset power g).command = 0 ∧ (cfgReset power g).msixEn = false ∧ (cfgReset power g).funcMask = false := by
  cases power with
  | true => exact ⟨rfl, rfl, rfl⟩
  | false => exact ⟨rfl, rfl, rfl⟩

theorem masterOn_hostReset : masterOn (hostReset down counted c) = false := by
  have command : (hostReset down counted c).host.cfg.command = 0 := (cfgReset_off (!counted) c.host.cfg).1
  rw [masterOn, command]
  rfl

theorem mem_ops_hostReset (o : PortOp) : o ∈ (hostReset down counted c).host.ops ↔ o ∈ c.host.ops ∧ o.isRead = false := by
  have ops : (hostReset down counted c).host.ops = c.host.ops.filter (fun o => !o.isRead) := rfl
  rw [ops, List.mem_filter, Bool.not_eq_true']

/-- With every accepted write under way, nothing is left for the port to do. -/
theorem hostResetRun_of_issued {d : Dev} (h : ∀ o ∈ d.c.host.ops, o.isRead = false → o.issued = true) :
    hostResetRun down counted d = onCtl (hostReset down counted) d := by
  refine portRun_idle (fun o ho => ?_) rfl
  obtain ⟨mem, write⟩ := (mem_ops_hostReset down counted d.c o).1 ho
  exact h o mem write

end

/-! ### The commands -/

section
variable {c : Ctl}

theorem enterD3_of_link (h : hostLink c = true) : enterD3 c = onHost (fun h => { h with d3 := true }) c := if_pos h

theorem returnD0_of_link (h : hostLink c = true) : returnD0 c = msixRetry (onHost (fun h => { h with d3 := false }) c) := if_pos h

theorem cfgCommand_of_link (h : hostLink c = true) (w : CfgWrite) : cfgCommand w c = msixRetry (onHost (fun h => { h with cfg := cfgWrite w h.cfg }) c) :=
  if_pos h

theorem cfgCommand_of_no_link (h : hostLink c = false) (w : CfgWrite) : cfgCommand w c = c := if_neg (ne_true_of_eq_false h)

theorem hostLoopback_of_up (h : c.host.linkUp = true) (b : Bool) : hostLoopback b c = msixRetry (onHost (fun h => { h with loopback := b }) c) := if_pos h

theorem linkTrained_of_clock (h : c.pwr.noPcie = false) (rate width : Nat) (flit : Bool) : linkTrained rate width flit c =
    msixRetry (onHost (fun h => { h with linkUp := true }) (setF R.HOST_LINK.RATE rate (setF R.HOST_LINK.WIDTH width (setB R.HOST_LINK.FLIT flit c)))) :=
  if_neg (ne_true_of_eq_false h)

theorem enterD3_of_no_link (h : hostLink c = false) : enterD3 c = c := if_neg (ne_true_of_eq_false h)

end

/-- Each of the four resets runs `hostResetRun` while the link carries requests. -/
theorem exec_hostReset {s : State} {x : Instr × Bool × Bool} (hr : running s.dev.c = true) (hu : s.dev.c.host.linkUp = true)
    (hl : s.dev.c.host.loopback = false)
    (hx : x ∈ [(Instr.functionLevelReset, false, true), (.hotReset, true, true), (.linkLoss, true, true), (.perst, true, false)]) :
    exec x.1 s = .next (s.withDev (hostResetRun x.2.1 x.2.2 s.dev)) := by
  have link : hostLink s.dev.c = true := by rw [hostLink, hu, hl]; rfl
  simp only [List.mem_cons, List.not_mem_nil, or_false] at hx
  obtain rfl | rfl | rfl | rfl := hx
  · exact runDev_of_eq hr (if_pos link)
  · exact runDev_of_eq hr (if_pos hu)
  · exact runDev_of_eq hr (if_pos hu)
  · exact runDev_of_eq hr rfl

/-- Settles O10: the resets by `hostReset` and what it leaves, the other commands by their tests. -/
theorem hostPortAndLink : Obligations.HostPortAndLink := by
  refine ⟨fun s x hr hu hl hx => ⟨exec_hostReset hr hu hl hx, fun hw => ?issued⟩, fun c down counted => ?left,
    fun s b flit enable mask w v rate width hr => ?commands⟩
  case issued => exact (exec_hostReset hr hu hl hx).trans (by rw [hostResetRun_of_issued _ _ hw]; rfl)
  case left =>
    obtain ⟨_, msix, mask⟩ := cfgReset_off (!counted) c.host.cfg
    refine ⟨rfl, rfl, masterOn_hostReset down counted c, msix, mask, rfl, rfl, rfl, rfl, mem_ops_hostReset down counted c,
      fun off ho => ?_, fun off ho hne => ?_, resets_of_hostReset down counted c⟩
    · have other : off ≠ R.HOST_LINK.RESETS.off := by
        simp only [R.HOST_LINK.RESETS]
        omega
      rw [getReg_hostReset_other _ _ _ other, if_pos ho]
    · rw [getReg_hostReset_other _ _ _ hne, if_neg (Nat.not_le.2 ho)]
  case commands =>
    refine ⟨fun h => runCtl_of_eq hr (enterD3_of_link h), fun h => runCtl_of_eq hr (returnD0_of_link h), fun h => runCtl_of_eq hr (cfgCommand_of_link h w),
      fun h => runCtl_of_eq hr (cfgCommand_of_link h _), fun h => runCtl_of_eq hr (cfgCommand_of_link h _),
      fun h => runCtl_of_eq hr (cfgCommand_of_no_link h w), fun h => runCtl_of_eq hr (hostLoopback_of_up h b),
      fun h => runCtl_of_eq hr (linkTrained_of_clock h rate width flit), fun h => ⟨?_, ?_⟩⟩
    · exact runCtl_of_eq hr (enterD3_of_no_link (by rw [hostLink, h]; rfl))
    · exact runDev_of_eq hr (if_neg (ne_true_of_eq_false h))

end Sys2Proof.Machine
end

section
/-! ## Proofs: firmware, heartbeats, attestation, self-tests

A firmware command runs while a control processor is ready and one is active (R428, R434); then its function takes the branch that the phase
of the update names. -/

namespace Sys2Proof.Machine

/-! ### Staging and updating (R431, R433, R442) -/

section
variable {f : Ctl → Ctl} {s : State} {c d : Ctl}

/-- The DRAFT block answers while a control processor is ready (R428). -/
theorem runCtl_whenDraft (hr : running s.dev.c = true) (hm : (mainReady s.dev.c 1 || mainReady s.dev.c 2) = true) (h : f s.dev.c = d) :
    runCtl (whenDraft f) s = .next (s.withCtl d) :=
  runCtl_of_eq hr ((if_pos hm).trans h)

/-- A firmware command needs an active processor too (R434). -/
theorem runCtl_whenFw (hr : running s.dev.c = true) (hm : (mainReady s.dev.c 1 || mainReady s.dev.c 2) = true) (ha : s.dev.c.fw.dead = false)
    (h : f s.dev.c = d) : runCtl (whenFw f) s = .next (s.withCtl d) :=
  runCtl_of_eq hr ((if_neg (ne_true_of_eq_false ha)).trans ((if_pos hm).trans h))

theorem fwBegin_of_idle (h3 : fwPhase c ≠ 3) (h4 : fwPhase c ≠ 4) :
    fwBegin c = setPhase 1 { c with fw := { c.fw with recv := [], staging := false } } :=
  if_neg (not_or.mpr ⟨h3, h4⟩)

theorem fwWord_of_room {v : Word} (h1 : fwPhase c = 1) (hs : c.fw.staging = false) (room : c.fw.recv.length + 4 ≤ 0x1000000) :
    fwWord v c = { c with fw := { c.fw with recv := c.fw.recv ++ leBytes 4 v.toNat } } := by
  have fits : (c.fw.recv ++ leBytes 4 v.toNat).length ≤ fwSlotBytes := by
    rw [List.length_append, length_leBytes]
    exact room
  rw [fwWord, if_pos ⟨h1, by rw [hs]; rfl⟩, onFw, List.take_of_length_le fits]

theorem fwStage_of_receiving (h1 : fwPhase c = 1) (hf : mainReady c 3 = true) :
    fwStage c = { setFlash (1 - getF c R.FW_STATUS.ACTIVE_SLOT) c.fw.recv false c with fw := { c.fw with staging := true } } :=
  if_pos ⟨h1, hf⟩

theorem fwStageDone_of_staging (hs : c.fw.staging = true) : fwStageDone c =
    (let slot := 1 - getF c R.FW_STATUS.ACTIVE_SLOT
     let done : Ctl := { c with fw := { c.fw with staging := false } }
     if fwAuthentic done (flashSlot done slot) then setPhase 2 done
     else setB R.FW_STATUS.AUTH_FAIL true (setPhase 5 (setFlash slot (flashSlot done slot) true done))) := by
  rw [fwStageDone, hs]
  rfl

theorem fwUpdate_of_staged (h2 : fwPhase c = 2) (hs : getB c R.FAN_CP.STANDBY_OK = true) : fwUpdate c = setPhase 3 c :=
  if_pos ⟨h2, hs⟩

theorem fwUpdate_of_not_staged (h2 : fwPhase c ≠ 2) : fwUpdate c = c :=
  if_neg fun h => h2 h.1

theorem fwSyncStart_of_loading (h3 : fwPhase c = 3) (hs : getB c R.FAN_CP.STANDBY_OK = true) : fwSyncStart c =
    (let bs := flashSlot c (1 - getF c R.FW_STATUS.ACTIVE_SLOT)
     if fwAuthentic c bs then
       setPhase 4 (setB R.FAN_CP.STANDBY_OK false
         { c with fw := { c.fw with cps := c.fw.cps.put (1 - getF c R.FAN_CP.ACTIVE) (fwImage bs), synced := false } })
     else setB R.FW_STATUS.AUTH_FAIL true (setPhase 5 c)) :=
  if_pos ⟨h3, hs⟩

theorem fwSyncDone_of_beats (h4 : fwPhase c = 4) (hb : getB c R.BEAT_STATUS.RUNNING = true) :
    fwSyncDone c = { c with fw := { c.fw with synced := true } } :=
  (if_pos h4).trans (if_pos hb)

theorem fwBoot_of_unbooted (h : mainReady c 3 = false) : fwBoot c =
    if fwAuthentic c c.fw.recv then setPhase 0 (fwStart c.fw.recv c) else setB R.FW_STATUS.AUTH_FAIL true c :=
  if_neg (ne_true_of_eq_false h)

theorem fwBoot_of_booted (h : mainReady c 3 = true) : fwBoot c = c := if_pos h

theorem fwCommit_of_image {x : FwImage} (h : c.fw.cps.look (getF c R.FAN_CP.ACTIVE) = some x) :
    fwCommit c = { c with fuses := { c.fuses with minSecver := max c.fuses.minSecver x.secver } } := by
  rw [fwCommit, h]

/-- A commit that would lower the fused minimum leaves it (R432). -/
theorem fwCommit_of_lower {x : FwImage} (h : c.fw.cps.look (getF c R.FAN_CP.ACTIVE) = some x) (low : x.secver ≤ c.fuses.minSecver) :
    fwCommit c = c := by
  rw [fwCommit_of_image h, Nat.max_eq_left low]

end

/-- Settles O14: each command takes its branch of the phase. -/
theorem firmwareStaging : Obligations.FirmwareStaging := by
  intro s v hr hm ha
  refine ⟨fun h3 h4 => ?begins, fun h1 hs room => ?data, fun h1 hf => ?stages, fun hs => ?staged⟩
  case begins => exact runCtl_whenFw hr hm ha (fwBegin_of_idle h3 h4)
  case data => exact runCtl_whenFw hr hm ha (fwWord_of_room h1 hs room)
  case stages => exact runCtl_whenFw hr hm ha (fwStage_of_receiving h1 hf)
  case staged => exact runCtl_whenFw hr hm ha (fwStageDone_of_staging hs)

/-- Settles O15: as O14; the fused minimum is a maximum, which a lower version leaves. -/
theorem firmwareUpdate : Obligations.FirmwareUpdate := by
  refine ⟨fun s hr hm ha => ?update, fun s x hr hm ha hx => ?commit⟩
  case update =>
    refine ⟨fun h2 hs => ?_, fun h2 => ?_, fun h3 hs => ?_, fun h4 hb => ?_, fun hf => ?_, fun hf => ?_⟩
    · exact runCtl_whenFw hr hm ha (fwUpdate_of_staged h2 hs)
    · exact runCtl_whenFw hr hm ha (fwUpdate_of_not_staged h2)
    · exact runCtl_whenFw hr hm ha (fwSyncStart_of_loading h3 hs)
    · exact runCtl_whenFw hr hm ha (fwSyncDone_of_beats h4 hb)
    · exact runCtl_whenFw hr hm ha (fwBoot_of_unbooted hf)
    · exact runCtl_whenFw hr hm ha (fwBoot_of_booted hf)
  case commit =>
    refine ⟨?_, fun low => ?_⟩
    · exact runCtl_whenFw hr hm ha (fwCommit_of_image hx)
    · exact runCtl_whenFw hr hm ha (fwCommit_of_lower hx low)

/-! ### Heartbeats and attestation reports (R394, R435) -/

section
variable {c : Ctl}

theorem heartbeat_of_alive (ha : c.fw.dead = false) : heartbeat c = { c with fan := { c.fan with beatSeen := true } } :=
  if_neg (ne_true_of_eq_false ha)

/-- Outside a synchronisation the processor that is missing is retired, and charged where a standby takes over. -/
theorem heartbeatMiss_of_standby (hd : heartbeatDue c = true) (hs : getB c R.FAN_CP.STANDBY_OK = true) (h4 : fwPhase c ≠ 4) :
    heartbeatMiss c =
      (let k := srcCp (getF c R.FAN_CP.ACTIVE)
       retireCp k (getF c R.FAN_CP.ACTIVE) (chargeUnit kCp k { c with fan := { c.fan with missed := 0 } })) := by
  have standby : getB (onFan (fun f => { f with missed := 0 }) c) R.FAN_CP.STANDBY_OK = true := hs
  have settled : (fwPhase c == phSyncing) = false := beq_false_of_ne h4
  simp only [heartbeatMiss, hd, settled, standby, Bool.not_true, Bool.false_eq_true, Bool.or_false, if_true, if_false]
  rfl

theorem attGo_of_free (hf : mainReady c 3 = true) (hn : c.att.next = none) :
    attGo c = setB R.ATT_CTRL.DONE false { c with att := { c.att with next := some (attBody c) } } := by
  rw [attGo, hn, hf]
  rfl

theorem attDone_of_report {bs : List Byte} (hn : c.att.next = some bs) : attDone c = cause 16 (setB R.ATT_CTRL.DONE true
    { c with att := { next := none, report := bs ++ signMessage (leBytes 32 c.fuses.idSeed.toNat) bs } }) := by
  rw [attDone, hn]

end

/-! ### Self-tests (R427 to R429, R431) -/

section
variable {c : Ctl} {f : Func}

/-- The READY bit of a function is in a register of its own block, at which no port's registers stand. -/
theorem getReg_setReady {off : Nat} (f : Func) (c : Ctl) (h : off ≠ (funcBit f).1) : getReg (setReady f c) off = getReg c off :=
  getReg_setReg_ne _ c h

theorem portStatus_ne_ready (p : Nat) : (portF R.PORT_STATUS.STATE p).off ≠ R.READY_PORT.PORTS.off := by
  refine Nat.ne_of_gt (Nat.lt_of_lt_of_le ?_ (Nat.le_add_right _ (0x10000 * p)))
  decide

variable (ho : testOpen c f = true)
include ho

theorem funcFails_of_open : funcFails f c = inCycle (testFailed f) (setFail f c) := if_pos ho

/-- A function other than a port, a control processor or the firmware is READY, and nothing else. -/
theorem selfTestDone_of_plain (hp : ∀ p, f ≠ .port p) (h1 : f ≠ .main 1) (h2 : f ≠ .main 2) (h3 : f ≠ .main 3) :
    selfTestDone f .pass c = setReady f c := by
  cases f with
  | port p => exact absurd rfl (hp p)
  | core p => simp [selfTestDone, ho]
  | main b =>
    have h1 : b ≠ 1 := fun h => h1 (h ▸ rfl)
    have h2 : b ≠ 2 := fun h => h2 (h ▸ rfl)
    have h3 : b ≠ 3 := fun h => h3 (h ▸ rfl)
    simp [selfTestDone, ho, h1, h2, h3]

/-- A control processor that is late boots from flash. -/
theorem selfTestDone_of_cp {i : Nat} (hi : i < 2) (hf : f = .main (1 + i)) : selfTestDone f .pass c = fwJoin i (setReady f c) := by
  subst hf
  have cp : 1 + i = 1 ∨ 1 + i = 2 := by omega
  have other : 1 + i ≠ 3 := by omega
  simp only [selfTestDone, ho, Bool.not_true, Bool.false_eq_true, if_false, if_neg other, if_pos cp, Nat.add_sub_cancel_left]

/-- A mapped port that is OFF starts to train. -/
theorem selfTestDone_of_port {p : Nat} (hf : f = .port p) (hm : getB c (portF R.PORT_STATUS.MAPPED p) = true)
    (hoff : getF c (portF R.PORT_STATUS.STATE p) = 0) :
    selfTestDone f .pass c = setF (portF R.PORT_STATUS.STATE p) 1 (setReady f c) := by
  subst hf
  have word : getReg (setReady (.port p) c) (portF R.PORT_STATUS.STATE p).off = getReg c (portF R.PORT_STATUS.STATE p).off :=
    getReg_setReady _ c (portStatus_ne_ready p)
  have mapped : getB (setReady (.port p) c) (portF R.PORT_STATUS.MAPPED p) = true :=
    (congrArg (fun w => fldGet w (portF R.PORT_STATUS.MAPPED p) != 0) word).trans hm
  have off : getF (setReady (.port p) c) (portF R.PORT_STATUS.STATE p) = 0 :=
    (congrArg (fldGet · (portF R.PORT_STATUS.STATE p)) word).trans hoff
  simp only [selfTestDone, ho, Bool.not_true, Bool.false_eq_true, if_false, mapped, off, BEq.rfl, Bool.and_true, if_true, startTraining]

end

/-- Settles O16: each command takes the branch that the state names. -/
theorem heartbeatsReportsAndSelfTests : Obligations.HeartbeatsReportsAndSelfTests := by
  refine ⟨fun s hr hm ha => ?heartbeats, fun s bs hr hm ha => ?reports, fun s f hr ho => ?selfTests⟩
  case heartbeats =>
    refine ⟨?_, fun hd hs h4 => ?_⟩
    · exact (runCtl_whenReady heartbeat hr hm).trans (by rw [heartbeat_of_alive ha])
    · exact (runCtl_whenReady heartbeatMiss hr hm).trans (by rw [heartbeatMiss_of_standby hd hs h4])
  case reports =>
    refine ⟨fun hf hn => ⟨_, runCtl_whenFw hr hm ha (attGo_of_free hf hn), rfl, rfl, ?_, rfl⟩, fun hn => ?_⟩
    · exact getB_setB_false (by decide) _
    · exact runCtl_whenFw hr hm ha (attDone_of_report hn)
  case selfTests =>
    refine ⟨fun hp h1 h2 h3 => ?_, fun i hi hf => ?_, fun p hf hp hoff => ?_, ?_, ?_⟩
    · exact runCtl_of_eq hr (selfTestDone_of_plain ho hp h1 h2 h3)
    · exact runCtl_of_eq hr (selfTestDone_of_cp ho hi hf)
    · exact runCtl_of_eq hr (selfTestDone_of_port ho hf hp hoff)
    · exact runCtl_of_eq hr (funcFails_of_open ho)
    · exact runCtl_of_eq hr (funcFails_of_open ho)

end Sys2Proof.Machine
end

section
/-! ## Proofs: the draft

The loader's commands act while the firmware runs (R419, R434); the store, the verification and the start each take the branch that STATE
names. -/

namespace Sys2Proof.Machine

section
variable {c : Ctl} {d : Dev}

/-! ### The receiving store (R419, R420, R441) -/

theorem loaderOn_of_alive (hm : mainReady c 3 = true) (ha : c.fw.dead = false) : loaderOn c = true := by
  rw [loaderOn, hm, ha]
  rfl

theorem pinWrite_of_unlocked {v : Word} (h : getB c R.DRAFT_PIN_CTRL.LOCK = false) :
    pinWrite v c = setF R.DRAFT_PIN_CTRL.LOCK (v.toNat / 2 % 2) (setF R.DRAFT_PIN_CTRL.SET (v.toNat % 2) c) :=
  if_neg (ne_true_of_eq_false h)

theorem pinWrite_of_locked {v : Word} (h : getB c R.DRAFT_PIN_CTRL.LOCK = true) : pinWrite v c = c := if_pos h

/-- A locked pin register keeps its bits, whether the DRAFT block answers or not. -/
theorem whenDraft_pinWrite_of_locked {v : Word} (h : getB c R.DRAFT_PIN_CTRL.LOCK = true) : whenDraft (pinWrite v) c = c := by
  rw [whenDraft, pinWrite_of_locked h, ite_self]

/-- A change of STATE is a cause at most; the draft stays. -/
theorem draft_setDraftState (n : Nat) (c : Ctl) : (setDraftState n c).draft = c.draft := by
  unfold setDraftState
  split
  · rfl
  · have kept := (cause_notice 14 (setF R.DRAFT_STATUS.STATE n c)).1
    rw [kept]
    rfl

section
variable (hl : loaderOn c = true)
include hl

theorem draftBegin_of_loader : draftBegin c = setDraftState 1 (setRecv [] c) := if_pos hl

theorem draftAbort_of_loader : draftAbort c = setDraftState (draftRest c) (setRecv [] c) := if_pos hl

theorem draftWord_of_verifying {v : Word} (h : getF c R.DRAFT_STATUS.STATE = 2) : draftWord v c = raise evProgram 0x15 srcDevice 0 c := by
  rw [draftWord, hl]
  exact if_pos h

theorem draftWord_of_receiving {v : Word} (h : getF c R.DRAFT_STATUS.STATE = 1) : draftWord v c = draftAppend (leBytes 4 v.toNat) c := by
  have other : getF c R.DRAFT_STATUS.STATE ≠ stVerifying := by
    rw [h]
    decide
  rw [draftWord, hl]
  exact (if_neg other).trans (if_pos h)

end

theorem draftPull_of_loader (hl : loaderOn d.c = true) : draftPull d =
    (let r := readLong (getF d.c R.DRAFT_SRC.ADDR * 8) (min draftMax (getF d.c R.DRAFT_PULL_LEN.BYTES)) d
     { r.2 with c := draftAppend r.1 (setDraftState 1 (setRecv [] r.2.c)) }) := by
  rw [draftPull, hl]
  rfl

/-! ### Verification concludes (R420 to R427) -/

theorem verifyDone_of_not_verifying (h : getF d.c R.DRAFT_STATUS.STATE ≠ 2) : verifyDone d = d := by
  have other : (getF d.c R.DRAFT_STATUS.STATE != stVerifying) = true := bne_iff_ne.mpr h
  rw [verifyDone, other, Bool.or_true]
  rfl

section
variable (hl : loaderOn d.c = true) (hs : getF d.c R.DRAFT_STATUS.STATE = 2)
include hl hs

theorem verifyDone_of_failed {code off : Nat} (hv : verifyDraft d.c d.c.draft.recv = some (code, off)) :
    verifyDone d = onCtl (draftFail code off) d := by
  rw [verifyDone, hl, hs]
  simp only [hv]
  rfl

variable (hv : verifyDraft d.c d.c.draft.recv = none)
include hv

theorem verifyDone_of_full (hj : (draftRead d.c d.c.draft.recv).reload = false) :
    verifyDone d = if testsDone d.c then applyFull (draftRead d.c d.c.draft.recv) d else d := by
  rw [verifyDone, hl, hs]
  simp only [hv, hj]
  rfl

/-- The reload that waits for its step, over the draft in force. -/
def pendingReload (old j : Draft) (c : Ctl) : Ctl :=
  setDraftState 4 (setRecv [] { c with draft := { c.draft with
    reload := some { job := reloadOver old j, digest := j.digest, group := j.group, step := getF c R.DRAFT_APPLY.STEP } } })

theorem verifyDone_of_reload {old : Draft} (hj : (draftRead d.c d.c.draft.recv).reload = true) (ho : d.c.job = some old) :
    verifyDone d = onCtl (pendingReload old (draftRead d.c d.c.draft.recv)) d := by
  rw [verifyDone, hl, hs]
  simp only [hv, hj, ho]
  rfl

theorem verifyDone_of_no_draft (hj : (draftRead d.c d.c.draft.recv).reload = true) (ho : d.c.job = none) : verifyDone d = d := by
  rw [verifyDone, hl, hs]
  simp only [hv, hj, ho]
  rfl

end

/-- The last registers of a draft that is applied: the store is empty, and LOADED reads 1 under KEEP. -/
def draftLoaded (keep : Bool) (digest : Nat) (c : Ctl) : Ctl :=
  let c := setDigest digest { c with draft := { recv := [], reload := none, startDone := false }, copying := [] }
  setB R.DRAFT_STATUS.KEEP keep (setB R.DRAFT_STATUS.LOADED true (setDraftState 3 (setF R.DRAFT_COUNT.BYTES 0 c)))

theorem loaded_draftLoaded (keep : Bool) (n : Nat) (c : Ctl) : getB (draftLoaded keep n c) R.DRAFT_STATUS.LOADED = true := by
  rw [draftLoaded, getB_setB_bits _ _ (by decide) (by decide) (by decide)]
  exact getB_setB_true _ (by decide) (by decide)

theorem recv_draftLoaded (keep : Bool) (n : Nat) (c : Ctl) : (draftLoaded keep n c).draft.recv = [] :=
  congrArg DraftSt.recv (draft_setDraftState 3 _)

/-- A draft that is applied ends in its last registers. -/
theorem applyFull_ends (j : Draft) (d : Dev) : ∃ keep c, (applyFull j d).c = draftLoaded keep j.digest.toNat c := ⟨_, _, rfl⟩

/-! ### The first step (R423) -/

/-- A boundary at which the first step may open, the device being placed in a draft that is loaded. -/
def StartAwaited (c : Ctl) : Prop :=
  getF c R.DRAFT_START_AT.BEAT ≠ 0 ∧ getB c R.DRAFT_STATUS.LOADED = true ∧ c.step.opened = false ∧ c.draft.startDone = false ∧
    (myPos c).isSome = true ∧ beatsRun c = true

theorem startAt_of_awaited (h : StartAwaited d.c) : startAt d =
    (let done := onCtl (fun c => { c with draft := { c.draft with startDone := true } }) d
     if !d.c.time.inGuard && getF d.c R.BEAT_NOW.BEAT == getF d.c R.DRAFT_START_AT.BEAT then
       (if getF d.c R.REC_STATE.STATE = recIdle then beginStep (firstStep d.c) done else done)
     else if decide (getF d.c R.DRAFT_START_AT.BEAT < getF d.c R.BEAT_NOW.BEAT) then onCtl (setB R.DRAFT_STATUS.START_LATE true) done
     else d) := by
  obtain ⟨beat, loaded, opened, fresh, placed, beats⟩ := h
  have runs : getB d.c R.BEAT_STATUS.RUNNING = true := (Bool.and_eq_true_iff.mp beats).2
  have here : (myPos d.c).isNone = false := by rw [← Option.not_isSome, placed]; rfl
  simp only [startAt, beat, loaded, opened, fresh, here, beats, runs, Bool.not_true, Bool.false_eq_true, or_self, if_false, Bool.true_and,
    Bool.false_or]

theorem startAt_of_beat (h : StartAwaited d.c) (hg : d.c.time.inGuard = false)
    (now : getF d.c R.BEAT_NOW.BEAT = getF d.c R.DRAFT_START_AT.BEAT) (idle : getF d.c R.REC_STATE.STATE = 0) :
    startAt d = beginStep (firstStep d.c) (onCtl (fun c => { c with draft := { c.draft with startDone := true } }) d) := by
  rw [startAt_of_awaited h, hg, beq_iff_eq.mpr now]
  exact if_pos idle

theorem startAt_of_late (h : StartAwaited d.c) (late : getF d.c R.DRAFT_START_AT.BEAT < getF d.c R.BEAT_NOW.BEAT) :
    startAt d = onCtl (fun c => setB R.DRAFT_STATUS.START_LATE true { c with draft := { c.draft with startDone := true } }) d := by
  rw [startAt_of_awaited h, beq_false_of_ne (Nat.ne_of_gt late), Bool.and_false]
  exact if_pos (decide_eq_true late)

end

/-- Settles O17: the loader is on, and each command takes its branch of STATE. -/
theorem draftReceiving : Obligations.DraftReceiving := by
  intro s v hr hm ha
  have on : loaderOn s.dev.c = true := loaderOn_of_alive hm ha
  refine ⟨?_, ?_, fun h => ?_, fun h => ?_, ?_, fun hd hu => ?_, fun hl => ?_⟩
  · exact runCtl_of_eq hr (draftBegin_of_loader on)
  · exact runCtl_of_eq hr (draftAbort_of_loader on)
  · exact runCtl_of_eq hr (draftWord_of_receiving on h)
  · exact runCtl_of_eq hr (draftWord_of_verifying on h)
  · exact runDev_of_eq hr (draftPull_of_loader on)
  · exact runCtl_whenDraft hr hd (pinWrite_of_unlocked hu)
  · exact runCtl_of_eq hr (whenDraft_pinWrite_of_locked hl)

/-- Settles O18: the verification has four ends, by the check, the kind of draft and the draft in force. -/
theorem draftConcludes : Obligations.DraftConcludes := by
  intro s p hr
  refine ⟨fun on hs => ?verified, fun hs => ?ignored, fun x d => ?applied, ?copied, fun beat loaded opened fresh placed beats => ?first⟩
  case verified =>
    cases hv : verifyDraft s.dev.c s.dev.c.draft.recv with
    | some e => exact runDev_of_eq hr (verifyDone_of_failed on hs hv)
    | none =>
      cases hj : (draftRead s.dev.c s.dev.c.draft.recv).reload with
      | false =>
        have full := verifyDone_of_full on hs hv hj
        by_cases ready : testsDone s.dev.c = true
        · exact (runDev_of_eq hr (full.trans (if_pos ready))).trans (congrArg _ (if_pos ready).symm)
        · exact (runDev_of_eq hr (full.trans (if_neg ready))).trans (congrArg _ (if_neg ready).symm)
      | true =>
        cases ho : s.dev.c.job with
        | some old =>
          refine (runDev_of_eq hr (verifyDone_of_reload on hs hv hj ho)).trans ?_
          dsimp only
          rw [← ho]
          rfl
        | none =>
          refine (runDev_of_eq hr (verifyDone_of_no_draft on hs hv hj ho)).trans ?_
          dsimp only
          rfl
  case ignored => exact runDev_of_eq hr (verifyDone_of_not_verifying hs)
  case applied =>
    obtain ⟨keep, c, ends⟩ := applyFull_ends x d
    rw [ends]
    exact ⟨loaded_draftLoaded _ _ _, recv_draftLoaded _ _ _⟩
  case copied => exact runCtl_of_eq hr rfl
  case first =>
    have awaited : StartAwaited s.dev.c := ⟨beat, loaded, opened, fresh, placed, beats⟩
    refine ⟨fun hg now idle => ?_, fun late => ?_⟩
    · exact runDev_of_eq hr (startAt_of_beat awaited hg now idle)
    · exact runDev_of_eq hr (startAt_of_late awaited late)

end Sys2Proof.Machine
end

section
/-! ## Proofs: tension and the loopback tester

A write of a TENSION register changes what is written, then takes it in force where no beats run (R466). A run of the loopback tester starts
with its eight error counters cleared one by one, each a word of its own. -/

namespace Sys2Proof.Machine

/-! ### Fields written one by one -/

section
variable {f g : Fld} {k x : Nat} (n : Nat) (c : Ctl)

/-- The first n fields of a row get x. -/
def setRow (f : Fld) (k x n : Nat) (c : Ctl) : Ctl := forN n (fun i c => setF (idxF f k i) x c) c

theorem getF_setRow_off (h : ∀ i, g.off ≠ (idxF f k i).off) : getF (setRow f k x n c) g = getF c g :=
  forN_keeps (fun t => getF t g = getF c g) n (fun i _ ht => (getF_setF_off x _ (h i)).trans ht) rfl

theorem idxF_off_ne (hk : 0 < k) {i j : Nat} (h : i ≠ j) : (idxF f k i).off ≠ (idxF f k j).off := fun e =>
  h (Nat.eq_of_mul_eq_mul_left hk (Nat.add_left_cancel e))

theorem getF_setRow_same (hk : 0 < k) (hf : f.lo + f.w ≤ 64) {i : Nat} (hi : i < n) :
    getF (setRow f k x n c) (idxF f k i) = x % 2 ^ f.w := by
  induction n with
  | zero => exact absurd hi (Nat.not_lt_zero i)
  | succ n ih =>
    rw [setRow, forN_succ]
    by_cases here : i = n
    · subst here
      exact getF_setF_same (idxF f k i) x _ hf
    · exact (getF_setF_off x _ (idxF_off_ne hk here)).trans (ih (by omega))

end

section
variable {c : Ctl}

/-! ### Arming and the perturbation registers (R465, R466) -/

theorem tenArmWrite_first : tenArmWrite 0x54454E31 c = tenAtOnce { setB R.TEN_STATUS.STAGE true c with tenKey := true } := rfl

theorem tenArmWrite_second (h : c.tenKey = true) :
    tenArmWrite 0x41524D32 c = tenAtOnce { setB R.TEN_STATUS.ARMED true c with tenKey := false } := by
  have key : (0x41524D32 : Word) ≠ 0x54454E31 := by decide
  rw [tenArmWrite, if_neg key, if_pos ⟨rfl, h⟩]

theorem tenArmWrite_other {v : Word} (h1 : v ≠ 0x54454E31) (h2 : v ≠ 0x41524D32 ∨ c.tenKey = false) :
    tenArmWrite v c = tenAtOnce { setB R.TEN_STATUS.ARMED false (setB R.TEN_STATUS.STAGE false c) with tenKey := false } := by
  have noSecond : ¬ (v = 0x41524D32 ∧ c.tenKey = true) := by
    rintro ⟨second, key⟩
    exact h2.elim (· second) (fun h => absurd key (ne_true_of_eq_false h))
  rw [tenArmWrite, if_neg h1, if_neg noSecond]

/-- A write that passes the test of R9 reaches its perturbation register. -/
theorem exec_tensionRegWrite {s : State} (hr : running s.dev.c = true) {off width : Nat} (ho : off ∈ tenOffsets)
    (ht : regTest off width = true) (w : Dword) :
    exec (.tensionRegWrite off width w) s = .next (s.withCtl (tenAtOnce (tenOther (maskWrite off w s.dev.c)))) := by
  have perturbs : isPerturbation off = true := List.contains_iff_mem.mpr ho
  refine runCtl_of_eq hr ?_
  rw [ht, perturbs]
  rfl

/-! ### The loopback tester (R472, R481) -/

/-- No error counter stands in the status word. -/
theorem lbStatus_ne_err (i : Nat) : R.TEN_LB_STATUS.adr ≠ (idxF R.TEN_LB_ERR.ERRORS 8 i).off :=
  Nat.ne_of_lt (Nat.lt_of_lt_of_le (by decide) (Nat.le_add_right _ (8 * i)))

/-- A run begins, with nothing counted. -/
def loopBegun (c : Ctl) : Ctl :=
  setRow R.TEN_LB_ERR.ERRORS 8 0 8 (setB R.TEN_LB_STATUS.RUNNING true (setB R.TEN_LB_STATUS.LOCKED false (setF R.TEN_LB_STATUS.BITS 0 c)))

theorem loopStart_of_selected (h : loopSelected (tenOther c) = true) : loopStart c = loopBegun (tenOther c) := if_pos h

theorem loopStart_of_unselected (h : loopSelected (tenOther c) = false) : loopStart c = tenOther c :=
  if_neg (ne_true_of_eq_false h)

section
variable {g : Fld} (h : g.off = R.TEN_LB_STATUS.adr)
include h

/-- The counters leave the status word. -/
theorem getF_loopBegun : getF (loopBegun c) g =
    getF (setB R.TEN_LB_STATUS.RUNNING true (setB R.TEN_LB_STATUS.LOCKED false (setF R.TEN_LB_STATUS.BITS 0 c))) g :=
  getF_setRow_off 8 _ fun i => h ▸ lbStatus_ne_err i

theorem getB_loopBegun : getB (loopBegun c) g =
    getB (setB R.TEN_LB_STATUS.RUNNING true (setB R.TEN_LB_STATUS.LOCKED false (setF R.TEN_LB_STATUS.BITS 0 c))) g :=
  congrArg (· != 0) (getF_loopBegun h)

end

theorem running_loopBegun : getB (loopBegun c) R.TEN_LB_STATUS.RUNNING = true := by
  rw [getB_loopBegun rfl]
  exact getB_setB_true _ (by decide) (by decide)

theorem locked_loopBegun : getB (loopBegun c) R.TEN_LB_STATUS.LOCKED = false := by
  rw [getB_loopBegun rfl, getB_setB_bits _ _ (by decide) (by decide) (by decide)]
  exact getB_setB_false (by decide) _

theorem bits_loopBegun : getF (loopBegun c) R.TEN_LB_STATUS.BITS = 0 := by
  rw [getF_loopBegun rfl, setB, getF_setF_bits _ _ (by decide) (by decide) (by decide), setB, getF_setF_bits _ _ (by decide) (by decide) (by decide)]
  exact (getF_setF_same _ _ _ (by decide)).trans (Nat.zero_mod _)

theorem errors_loopBegun {l : Nat} (h : l < 8) : getF (loopBegun c) (idxF R.TEN_LB_ERR.ERRORS 8 l) = 0 :=
  (getF_setRow_same 8 _ (by decide) (by decide) h).trans (Nat.zero_mod _)

theorem loopEnd_of_length (hb : getB c R.TEN_LB_STATUS.RUNNING = true) (hn : 0 < getF c R.TEN_LB_CTRL.LENGTH) :
    loopEnd c = loopFound (setF R.TEN_LB_STATUS.BITS (getF c R.TEN_LB_CTRL.LENGTH * 2 ^ 20) c) :=
  if_pos (Bool.and_eq_true_iff.mpr ⟨hb, decide_eq_true hn⟩)

theorem loopStop_of_running (h : getB (tenOther c) R.TEN_LB_STATUS.RUNNING = true) :
    loopStop c = loopFound (drawn (setF R.TEN_LB_STATUS.BITS (freeValue (tenOther c)).toNat (tenOther c))) := if_pos h

end

/-- Settles O20: each command takes the branch of its operand or of the tester's state. -/
theorem tensionAndLoopback : Obligations.TensionAndLoopback := by
  refine ⟨fun s v w off hr => ⟨?first, fun hk => ?second, fun h1 h2 => ?disarms, fun ho ht => ?word8, fun ho ht => ?word4⟩,
    fun s hr => ⟨fun h => ?starts, fun h => ?ignored, fun hb hn => ?ends, fun hb => ?stops⟩⟩
  case first => exact runCtl_of_eq hr tenArmWrite_first
  case second => exact runCtl_of_eq hr (tenArmWrite_second hk)
  case disarms => exact runCtl_of_eq hr (tenArmWrite_other h1 h2)
  case word8 => exact exec_tensionRegWrite hr ho ht w
  case word4 => exact exec_tensionRegWrite hr ho ht w
  case starts =>
    exact ⟨_, runCtl_of_eq hr (loopStart_of_selected h), rfl, running_loopBegun, locked_loopBegun, bits_loopBegun, fun _ => errors_loopBegun⟩
  case ignored => exact runCtl_of_eq hr (loopStart_of_unselected h)
  case ends => exact runCtl_of_eq hr (loopEnd_of_length hb hn)
  case stops => exact runCtl_of_eq hr (loopStop_of_running hb)

end Sys2Proof.Machine
end

section
/-! ## Proofs: debug mode

A write of a quiesce register goes bit by bit (`quiesceBitWrite`), and where no beats run the cores follow their bits at once, core by core
(`quiesceCore`). Each loop is followed for one core: its own turn decides, and every other turn leaves it. -/

namespace Sys2Proof.Machine

/-! ### The quiesce bits (R474) -/

/-- One turn of a write of DBG_QUIESCE0. -/
def quiesceBitWrite (v : Dword) (i : Nat) (c : Ctl) : Ctl :=
  if !v.getLsbD i then setB (quiesceBit i) false c
  else if getB c (quiesceBit i) || quiesceAccepted c i then setB (quiesceBit i) true c
  else setB R.DBG_STATUS.QREFUSED true c

/-- One turn of the quiescing at a boundary. -/
def quiesceCore (p : Nat) (c : Ctl) : Ctl :=
  if getB c (quiesceBit p) != quiesced c p then forN 4 (fun e c => setB (engF R.ENG_STATUS.QUIESCED p e) (getB c (quiesceBit p)) c) c else c

/-- The first n turns of a write of DBG_QUIESCE0. -/
def quiesceBits (v : Dword) (n : Nat) (c : Ctl) : Ctl := forN n (quiesceBitWrite v) c

theorem quiesceBoundary_eq (c : Ctl) : quiesceBoundary c = forN 72 quiesceCore c := rfl

theorem quiesceWrite_eq (v : Dword) (c : Ctl) : quiesceWrite false v c =
    if getB (quiesceBits v 64 c) R.BEAT_STATUS.RUNNING then quiesceBits v 64 c else quiesceBoundary (quiesceBits v 64 c) := rfl

section
variable {c : Ctl} {i p : Nat} {v : Dword}

theorem quiesceBit_off (h : p < 64) : (quiesceBit p).off = R.DBG_QUIESCE0.adr := by
  rw [quiesceBit, if_pos h]
  rfl

theorem quiesceBit_at_least (p : Nat) : 0x3800000 ≤ (quiesceBit p).off := by
  have words : 0x3800000 ≤ R.DBG_QUIESCE0.adr ∧ 0x3800000 ≤ R.DBG_QUIESCE1.adr := by decide
  unfold quiesceBit
  split
  · exact words.1
  · exact words.2

theorem getB_setB_quiesceBit_ne (b : Bool) (hi : i < 64) (hp : p < 64) (h : i ≠ p) :
    getB (setB (quiesceBit i) b c) (quiesceBit p) = getB c (quiesceBit p) := by
  rw [quiesceBit, quiesceBit, if_pos hi, if_pos hp]
  refine getB_setB_bits b c rfl ?_ ?_
  · exact hp
  · exact Nat.lt_or_gt_of_ne h

theorem getB_setB_quiesceBit_same (hp : p < 64) : getB (setB (quiesceBit p) true c) (quiesceBit p) = true := by
  rw [quiesceBit, if_pos hp]
  exact getB_setB_true c hp Nat.one_pos

theorem refused_ne_bit (hp : p < 64) : (quiesceBit p).off ≠ R.DBG_STATUS.QREFUSED.off := by
  rw [quiesceBit_off hp]
  decide

/-- A debug register is none that decides whether a request is accepted. -/
theorem quiesceAccepted_setB {f : Fld} (b : Bool) (h : 0x3800000 ≤ f.off) : quiesceAccepted (setB f b c) p = quiesceAccepted c p := by
  have opened : stepOpen (setB f b c) = stepOpen c := getB_setB_off b c (Nat.ne_of_lt (Nat.lt_of_lt_of_le (by decide) h))
  have halted : getB (setB f b c) R.VOTE_STATE.HALTED = getB c R.VOTE_STATE.HALTED :=
    getB_setB_off b c (Nat.ne_of_lt (Nat.lt_of_lt_of_le (by decide) h))
  have sealedAt : getF (setB f b c) R.STEP_SEALED.STEP = getF c R.STEP_SEALED.STEP :=
    getF_setF_off _ c (Nat.ne_of_lt (Nat.lt_of_lt_of_le (by decide) h))
  have ended : jobEnded (setB f b c) = jobEnded c := by
    rw [jobEnded, sealedAt]
    rfl
  rw [quiesceAccepted, quiesceAccepted, noStepComes, noStepComes, opened, halted, ended]
  rfl

/-- A turn writes one debug register. -/
theorem quiesceBitWrite_eq : ∃ f b, 0x3800000 ≤ Fld.off f ∧ quiesceBitWrite v i c = setB f b c := by
  unfold quiesceBitWrite
  split
  · exact ⟨_, _, quiesceBit_at_least i, rfl⟩
  · split
    · exact ⟨_, _, quiesceBit_at_least i, rfl⟩
    · exact ⟨_, _, by decide, rfl⟩

theorem quiesceAccepted_quiesceBitWrite : quiesceAccepted (quiesceBitWrite v i c) p = quiesceAccepted c p := by
  obtain ⟨f, b, hf, h⟩ := quiesceBitWrite_eq (v := v) (i := i) (c := c)
  rw [h, quiesceAccepted_setB b hf]

theorem getB_quiesceBits_low {g : Fld} (n : Nat) (h : g.off < 0x3800000) : getB (quiesceBits v n c) g = getB c g := by
  refine forN_keeps (fun t => getB t g = getB c g) n (fun i t ht => ?_) rfl
  obtain ⟨f, b, hf, write⟩ := quiesceBitWrite_eq (v := v) (i := i) (c := t)
  rw [write, getB_setB_off b t (Nat.ne_of_lt (Nat.lt_of_lt_of_le h hf)), ht]

/-- Another core's turn leaves the bit of core p. -/
theorem getB_quiesceBitWrite_ne (hi : i < 64) (hp : p < 64) (h : i ≠ p) : getB (quiesceBitWrite v i c) (quiesceBit p) = getB c (quiesceBit p) := by
  unfold quiesceBitWrite
  split
  · exact getB_setB_quiesceBit_ne _ hi hp h
  · split
    · exact getB_setB_quiesceBit_ne _ hi hp h
    · exact getB_setB_off _ _ (refused_ne_bit hp)

/-- In its own turn core p gets the bit that is asked for if it may. -/
theorem getB_quiesceBitWrite_same (hp : p < 64) (hv : v.getLsbD p = true) :
    getB (quiesceBitWrite v p c) (quiesceBit p) = (getB c (quiesceBit p) || quiesceAccepted c p) := by
  rw [quiesceBitWrite, hv]
  cases may : getB c (quiesceBit p) || quiesceAccepted c p with
  | true => exact getB_setB_quiesceBit_same hp
  | false => exact (getB_setB_off _ _ (refused_ne_bit hp)).trans (Bool.or_eq_false_iff.mp may).1

theorem refused_quiesceBitWrite_same (hv : v.getLsbD p = true) (may : (getB c (quiesceBit p) || quiesceAccepted c p) = false) :
    getB (quiesceBitWrite v p c) R.DBG_STATUS.QREFUSED = true := by
  rw [quiesceBitWrite, hv, may]
  exact getB_setB_true c (by decide) (by decide)

/-- A refusal that shows stays. -/
theorem refused_quiesceBitWrite (hi : i < 64) (h : getB c R.DBG_STATUS.QREFUSED = true) :
    getB (quiesceBitWrite v i c) R.DBG_STATUS.QREFUSED = true := by
  have kept (b : Bool) : getB (setB (quiesceBit i) b c) R.DBG_STATUS.QREFUSED = true :=
    (getB_setB_off b c (refused_ne_bit hi).symm).trans h
  unfold quiesceBitWrite
  split
  · exact kept false
  · split
    · exact kept true
    · exact getB_setB_true c (by decide) (by decide)

theorem quiesceAccepted_quiesceBits (n : Nat) : quiesceAccepted (quiesceBits v n c) p = quiesceAccepted c p :=
  forN_keeps (fun t => quiesceAccepted t p = quiesceAccepted c p) n (fun _ _ ht => quiesceAccepted_quiesceBitWrite.trans ht) rfl

/-- Before the turn of core p its bit stands. -/
theorem getB_quiesceBits_before (hp : p < 64) : ∀ n, n ≤ p → getB (quiesceBits v n c) (quiesceBit p) = getB c (quiesceBit p)
  | 0, _ => rfl
  | n + 1, h => by
    rw [quiesceBits, forN_succ, getB_quiesceBitWrite_ne (by omega) hp (by omega)]
    exact getB_quiesceBits_before hp n (by omega)

/-- The turn of core p finds its bit and its cores as they were. -/
theorem may_quiesceBits (hp : p < 64) : (getB (quiesceBits v p c) (quiesceBit p) || quiesceAccepted (quiesceBits v p c) p) =
    (getB c (quiesceBit p) || quiesceAccepted c p) := by
  rw [getB_quiesceBits_before hp p (Nat.le_refl _), quiesceAccepted_quiesceBits]

section
variable (hp : p < 64) (hv : v.getLsbD p = true)
include hp hv

theorem getB_quiesceBits_after : ∀ n, p < n → n ≤ 64 →
    getB (quiesceBits v n c) (quiesceBit p) = (getB c (quiesceBit p) || quiesceAccepted c p)
  | n + 1, h, hn => by
    rw [quiesceBits, forN_succ]
    obtain here | before := Nat.eq_or_lt_of_le (Nat.le_of_lt_succ h)
    · subst here
      exact (getB_quiesceBitWrite_same hp hv).trans (may_quiesceBits hp)
    · rw [getB_quiesceBitWrite_ne (by omega) hp (by omega)]
      exact getB_quiesceBits_after n before (by omega)

theorem refused_quiesceBits (may : (getB c (quiesceBit p) || quiesceAccepted c p) = false) :
    ∀ n, p < n → n ≤ 64 → getB (quiesceBits v n c) R.DBG_STATUS.QREFUSED = true
  | n + 1, h, hn => by
    rw [quiesceBits, forN_succ]
    obtain here | before := Nat.eq_or_lt_of_le (Nat.le_of_lt_succ h)
    · subst here
      exact refused_quiesceBitWrite_same hv ((may_quiesceBits hp).trans may)
    · exact refused_quiesceBitWrite (by omega) (refused_quiesceBits may n before (by omega))

end

/-! ### Cores that follow their bits (R474) -/

theorem engStatus_ne {off e : Nat} (h : off % 0x1000 ≠ 0x10) : off ≠ (engF R.ENG_STATUS.QUIESCED p e).off := by
  simp only [engF, Fld.at, R.ENG_STATUS.QUIESCED]
  omega

/-- No debug word but DBG_QUIESCE1 may look like an engine's status word, so the others stay. -/
theorem getB_quiesceCore_debug {g : Fld} (h : g.off % 0x1000 ≠ 0x10) : getB (quiesceCore p c) g = getB c g := by
  unfold quiesceCore
  split
  · exact forN_keeps (fun t => getB t g = getB c g) 4 (fun e t ht => (getB_setB_off _ t (engStatus_ne h)).trans ht) rfl
  · rfl

theorem getB_quiesceBoundary_debug {g : Fld} (h : g.off % 0x1000 ≠ 0x10) : getB (quiesceBoundary c) g = getB c g :=
  forN_keeps (fun t => getB t g = getB c g) 72 (fun _ _ ht => (getB_quiesceCore_debug h).trans ht) rfl

theorem quiesceBit_debug (hp : p < 64) : (quiesceBit p).off % 0x1000 ≠ 0x10 := by
  rw [quiesceBit_off hp]
  decide

theorem quiesced_setB_ne {q e : Nat} (b : Bool) (he : e < 4) (h : p ≠ q) :
    quiesced (setB (engF R.ENG_STATUS.QUIESCED p e) b c) q = quiesced c q := by
  refine getB_setB_off b c ?_
  simp only [engF, Fld.at]
  omega

theorem quiesced_quiesceCore_ne {q : Nat} (h : p ≠ q) : quiesced (quiesceCore p c) q = quiesced c q := by
  unfold quiesceCore
  split
  · rw [forN_succ, forN_succ, forN_succ, forN_succ, quiesced_setB_ne _ (by decide) h, quiesced_setB_ne _ (by decide) h,
      quiesced_setB_ne _ (by decide) h, quiesced_setB_ne _ (by decide) h]
    rfl
  · rfl

theorem engStatus_ne_first {e : Nat} (h : 0 < e) : (engF R.ENG_STATUS.QUIESCED p 0).off ≠ (engF R.ENG_STATUS.QUIESCED p e).off := by
  simp only [engF, Fld.at]
  omega

theorem quiesced_setB_same (b : Bool) : quiesced (setB (engF R.ENG_STATUS.QUIESCED p 0) b c) p = b := by
  have lane : (engF R.ENG_STATUS.QUIESCED p 0).lo + (engF R.ENG_STATUS.QUIESCED p 0).w ≤ 64 := (by decide : 1 + 1 ≤ 64)
  cases b with
  | true => exact getB_setB_true c lane Nat.one_pos
  | false => exact getB_setB_false lane c

/-- In its own turn a core follows its bit, as its first engine shows. -/
theorem quiesced_quiesceCore_same : quiesced (quiesceCore p c) p = getB c (quiesceBit p) := by
  have later {e : Nat} (he : 0 < e) (b : Bool) (t : Ctl) : quiesced (setB (engF R.ENG_STATUS.QUIESCED p e) b t) p = quiesced t p :=
    getB_setB_off b t (engStatus_ne_first he)
  unfold quiesceCore
  split
  next =>
    rw [forN_succ, forN_succ, forN_succ, forN_succ, later (by decide), later (by decide), later (by decide)]
    exact quiesced_setB_same _
  next same => exact (by simpa using same : getB c (quiesceBit p) = quiesced c p).symm

/-- At a boundary each core follows its bit. -/
theorem quiesced_forN (hp : p < 64) : ∀ n, p < n → quiesced (forN n quiesceCore c) p = getB c (quiesceBit p)
  | n + 1, h => by
    rw [forN_succ]
    obtain here | before := Nat.eq_or_lt_of_le (Nat.le_of_lt_succ h)
    · subst here
      rw [quiesced_quiesceCore_same]
      exact forN_keeps (fun t => getB t (quiesceBit p) = getB c (quiesceBit p)) p
        (fun _ _ ht => (getB_quiesceCore_debug (quiesceBit_debug hp)).trans ht) rfl
    · rw [quiesced_quiesceCore_ne (Nat.ne_of_gt before)]
      exact quiesced_forN hp n before

end

/-! ### A request for one core -/

section
variable {x : Ctl} {p : Nat}

theorem quiesceWrite_running (h : getB x R.BEAT_STATUS.RUNNING = true) : quiesceWrite false (1 <<< p) x = quiesceBits (1 <<< p) 64 x := by
  rw [quiesceWrite_eq, getB_quiesceBits_low 64 (by decide), if_pos h]

theorem quiesceWrite_stopped (h : getB x R.BEAT_STATUS.RUNNING = false) :
    quiesceWrite false (1 <<< p) x = quiesceBoundary (quiesceBits (1 <<< p) 64 x) := by
  rw [quiesceWrite_eq, getB_quiesceBits_low 64 (by decide), h]
  rfl

/-- The debug words are those that the write of the bits leaves, at once or later. -/
theorem getB_quiesceWrite_debug {g : Fld} (h : g.off % 0x1000 ≠ 0x10) :
    getB (quiesceWrite false (1 <<< p) x) g = getB (quiesceBits (1 <<< p) 64 x) g := by
  cases beats : getB x R.BEAT_STATUS.RUNNING with
  | true => rw [quiesceWrite_running beats]
  | false => rw [quiesceWrite_stopped beats, getB_quiesceBoundary_debug h]

section
variable (hp : p < 64)
include hp

/-- A write of one bit asks for core p. -/
theorem getLsbD_asked : ((1 : Dword) <<< p).getLsbD p = true := by
  rw [BitVec.getLsbD_shiftLeft, decide_eq_true hp, Nat.sub_self]
  simp

theorem getB_quiesceBits_asked : getB (quiesceBits (1 <<< p) 64 x) (quiesceBit p) = (getB x (quiesceBit p) || quiesceAccepted x p) :=
  getB_quiesceBits_after hp (getLsbD_asked hp) 64 hp (Nat.le_refl _)

theorem quiesceBit_quiesceWrite : getB (quiesceWrite false (1 <<< p) x) (quiesceBit p) = (getB x (quiesceBit p) || quiesceAccepted x p) :=
  (getB_quiesceWrite_debug (quiesceBit_debug hp)).trans (getB_quiesceBits_asked hp)

theorem quiesced_of_running (h : getB x R.BEAT_STATUS.RUNNING = true) : quiesced (quiesceWrite false (1 <<< p) x) p = quiesced x p := by
  have low : (engF R.ENG_STATUS.QUIESCED p 0).off < 0x3800000 := by
    simp only [engF, Fld.at, R.ENG_STATUS.QUIESCED]
    omega
  rw [quiesceWrite_running h]
  exact getB_quiesceBits_low 64 low

theorem quiesced_of_stopped (h : getB x R.BEAT_STATUS.RUNNING = false) :
    quiesced (quiesceWrite false (1 <<< p) x) p = (getB x (quiesceBit p) || quiesceAccepted x p) := by
  rw [quiesceWrite_stopped h, quiesceBoundary_eq, quiesced_forN hp 72 (by omega), getB_quiesceBits_asked hp]

theorem refused_quiesceWrite (may : (getB x (quiesceBit p) || quiesceAccepted x p) = false) :
    getB (quiesceWrite false (1 <<< p) x) R.DBG_STATUS.QREFUSED = true :=
  (getB_quiesceWrite_debug (by decide)).trans (refused_quiesceBits hp (getLsbD_asked hp) may 64 hp (Nat.le_refl _))

end

end

/-! ### The accumulator window (R475, R483) -/

section
variable {c : Ctl}

/-- The window's registers are no state of the host port. -/
theorem accAfter_onHost (b : Bool) (f : HostPort → HostPort) (c : Ctl) : accAfter b (onHost f c) = onHost f (accAfter b c) := by
  have autoinc (t : Ctl) : getB (onHost f t) R.DBG_ACC_SEL.AUTOINC = getB t R.DBG_ACC_SEL.AUTOINC := rfl
  cases b with
  | true =>
    simp only [accAfter, if_true, autoinc]
    split <;> rfl
  | false =>
    have refused : setB R.DBG_STATUS.WIN_REFUSED true (onHost f c) = onHost f (setB R.DBG_STATUS.WIN_REFUSED true c) := rfl
    simp only [accAfter, Bool.false_eq_true, if_false, refused, autoinc]
    split <;> rfl

theorem accAfter_host (b : Bool) (c : Ctl) : (accAfter b c).host = c.host := by
  cases b with
  | true => exact apply_ite Ctl.host .. |>.trans (ite_self _)
  | false => exact apply_ite Ctl.host .. |>.trans (ite_self _)

/-- A BAR0 read of DBG_ACC_DATA answers the window and is an access to it. -/
theorem bar0Read_accData (c : Ctl) : bar0Read R.DBG_ACC_DATA.adr 8 c = (accWindow c, accAfter (accOpen c) c) := by
  have form : regTest R.DBG_ACC_DATA.adr 8 = true := by decide +kernel
  have block : blockAt R.DBG_ACC_DATA.adr = some .debug := by decide
  have named : namesRegister R.DBG_ACC_DATA.adr = true := by decide +kernel
  have noMsix : msixArea R.DBG_ACC_DATA.adr = false := by decide
  have noTemp : isFanTemp R.DBG_ACC_DATA.adr 8 = false := by decide
  have reached : readsReach c R.DBG_ACC_DATA.adr .debug = true := rfl
  have word : readWord c R.DBG_ACC_DATA.adr .debug = accWindow c := rfl
  have noRecord : R.DBG_ACC_DATA.adr ≠ R.GOV_REC_DATA.adr := by decide
  simp [bar0Read, readAccess, readReg, form, block, named, noMsix, noTemp, reached, word, readEffect, noRecord]

theorem hostRequest_accData {d : Dev} (hq : PortQuiet d.c) (hs : hostServes d.c = true) :
    hostRequest { isRead := true, bar0 := true, off := R.DBG_ACC_DATA.adr, width := 8, data := 0 } d =
      onCtl (fun c => accAfter (accOpen c) (onHost (fun h => { h with rsp := h.rsp ++ [.data (accWindow c)] }) c)) d := by
  obtain ⟨hreach, hd3⟩ : hostReaches d.c = true ∧ d.c.host.d3 = false := by simpa [hostServes] using hs
  have answer : ∀ x : PortOp, x.num = portNum d.c.host →
      bar0Read R.DBG_ACC_DATA.adr 8 (onHost (fun h => { h with ops := h.ops ++ [x] }) d.c) =
        (accWindow d.c, onHost (fun h => { h with ops := h.ops ++ [x] }) (accAfter (accOpen d.c) d.c)) := by
    intro x _
    rw [bar0Read_accData, accAfter_onHost]
    rfl
  have host := accAfter_host (accOpen d.c) d.c
  rw [hostRequest_read _ _ hq hreach hd3 (by decide) answer (by rw [host]) (by rw [host]; exact hq.1)]
  simp only [onCtl, accAfter_onHost]

theorem accWindow_of_closed (h : accOpen c = false) : accWindow c = 0 := by
  rw [accWindow, h]
  rfl

theorem accWrite_of_entry {v : Dword} (h : accOpen c = true) (hi : (accSelected c).2.2 < 131072) : accWrite v c = accAfter true
    (setAcc (accSelected c).1 (accSelected c).2.1 ((accSelected c).2.2 / 16384) ((accSelected c).2.2 / 128 % 128) ((accSelected c).2.2 % 128)
      (v.toNat % 2 ^ 48) c) := by
  rw [accWrite, h]
  exact congrArg (accAfter true) (if_pos hi)

theorem accWrite_of_status {v : Dword} (h : accOpen c = true) (hi : 131072 ≤ (accSelected c).2.2) : accWrite v c = accAfter true
    (setF (tileStatus (accSelected c).1 (accSelected c).2.1 ((accSelected c).2.2 - 131072)) (v &&& 0x13F).toNat c) := by
  rw [accWrite, h]
  exact congrArg (accAfter true) (if_neg (Nat.not_lt.mpr hi))

theorem accWrite_of_closed {v : Dword} (h : accOpen c = false) : accWrite v c = accAfter false c := by
  rw [accWrite, h]
  rfl

end

/-! ### The pick trace (R476, R484) -/

section
variable {d : Dev} {e : TraceEnt} {es : List TraceEnt} (h : d.c.trace = e :: es)
include h

theorem traceWrite_of_full
    (full : ringFree (getF d.c R.DBG_TRACE_SIZE.ENTRIES) (getF d.c R.DBG_TRACE_HEAD.HEAD) (getF d.c R.DBG_TRACE_TAIL.TAIL) = 0) :
    traceWrite d = onCtl (satF R.DBG_TRACE_DROPS.COUNT 1) { d with c := { d.c with trace := es } } := by
  have full : (ringFree (getF d.c R.DBG_TRACE_SIZE.ENTRIES) (getF d.c R.DBG_TRACE_HEAD.HEAD) (getF d.c R.DBG_TRACE_TAIL.TAIL) == 0) = true :=
    beq_iff_eq.mpr full
  rw [traceWrite, h]
  exact if_pos (Bool.or_eq_true_iff.mpr (.inr full))

theorem traceWrite_of_room (size : getF d.c R.DBG_TRACE_SIZE.ENTRIES ≠ 0)
    (room : ringFree (getF d.c R.DBG_TRACE_SIZE.ENTRIES) (getF d.c R.DBG_TRACE_HEAD.HEAD) (getF d.c R.DBG_TRACE_TAIL.TAIL) ≠ 0) :
    traceWrite d = onCtl (setF R.DBG_TRACE_HEAD.HEAD ((getF d.c R.DBG_TRACE_HEAD.HEAD + 1) % getF d.c R.DBG_TRACE_SIZE.ENTRIES))
      (writeUnit (getF d.c R.DBG_TRACE_BASE.BASE * 16 + 16 * getF d.c R.DBG_TRACE_HEAD.HEAD) (leBytes 8 e.dw0.toNat ++ leBytes 8 e.dw1.toNat)
        .nobody { d with c := { d.c with trace := es } }).1 := by
  have stores : ¬ (getF d.c R.DBG_TRACE_SIZE.ENTRIES == 0 ||
      ringFree (getF d.c R.DBG_TRACE_SIZE.ENTRIES) (getF d.c R.DBG_TRACE_HEAD.HEAD) (getF d.c R.DBG_TRACE_TAIL.TAIL) == 0) = true := by
    simp [size, room]
  rw [traceWrite, h]
  exact if_neg stores

end

/-- Settles O21: the quiesce bits by the turn of the core, the window and the trace by the branches of their accesses. -/
theorem debugMode : Obligations.DebugMode := by
  intro s hi v w e es hr
  refine ⟨runCtl_of_eq hr rfl, fun x p hp => ⟨fun may => ?accepted, fun h ha => ?refused⟩, fun hq hs ho => ?read, fun hq hs ho => ?readRefused,
    fun hq hreach h3 => ?asleep, fun ho hlt => ?entry, fun ho hle => ?status, fun ho => ?writeRefused, runCtl_of_eq hr rfl,
    fun ht => ⟨fun full => ?dropped, fun size room => ?stored⟩⟩
  case accepted =>
    have may : (getB x (quiesceBit p) || quiesceAccepted x p) = true := Bool.or_eq_true_iff.mpr may
    exact ⟨(quiesceBit_quiesceWrite hp).trans may, quiesced_of_running hp, fun stopped => (quiesced_of_stopped hp stopped).trans may⟩
  case refused =>
    have may : (getB x (quiesceBit p) || quiesceAccepted x p) = false := by rw [h, ha]; rfl
    exact ⟨refused_quiesceWrite hp may, (quiesceBit_quiesceWrite hp).trans may⟩
  case read =>
    refine runDev_of_eq hr ((hostRequest_accData hq hs).trans ?_)
    rw [onCtl, ho]
    rfl
  case readRefused =>
    refine runDev_of_eq hr ((hostRequest_accData hq hs).trans ?_)
    rw [onCtl, ho, accWindow_of_closed ho]
    rfl
  case asleep => exact runDev_of_eq hr (hostRequest_d3_read _ hq hreach h3 rfl)
  case entry => exact runCtl_of_eq hr (accWrite_of_entry ho hlt)
  case status => exact runCtl_of_eq hr (accWrite_of_status ho hle)
  case writeRefused => exact runCtl_of_eq hr (accWrite_of_closed ho)
  case dropped => exact runDev_of_eq hr (traceWrite_of_full ht full)
  case stored => exact ⟨_, runDev_of_eq hr (traceWrite_of_room ht size room), rfl, rfl⟩

end Sys2Proof.Machine
end

section
/-! ## Proofs: frames of the mirror drain and of the tailrace

A frame that the selvedge delivers is handled on the state that the selvedge leaves (`arrive_delivered`); what its handler does is the branch
that its premises name. No handler reads the class or the type of its frame, so typing it changes nothing (`Rx.typed`). -/

namespace Sys2Proof.Machine

section
variable {s : State} {rx : Rx} {c : Ctl} {h : Handler} {cls type : Nat}

/-- A delivered frame leaves what its handler gives. -/
theorem arrive_of_dev {d : Dev} (hd : Delivered s cls type rx c) (e : h 0 (rx.typed cls type) { s.dev with c := c } = d) :
    runDev (arrive cls type h rx) s = .next (s.withDev d) := by
  subst e
  exact arrive_delivered s cls type rx c h hd

/-- A delivered frame whose handler touches the control state alone. -/
theorem arrive_of_ctl {t : Ctl} (hd : Delivered s cls type rx c)
    (e : h 0 (rx.typed cls type) { s.dev with c := c } = { s.dev with c := t }) : runDev (arrive cls type h rx) s = .next (s.withCtl t) :=
  arrive_of_dev hd e

end

section
variable {d : Dev} {rx : Rx} {t : Nat}

theorem payloadD_typed (rx : Rx) (cls type i : Nat) : payloadD (rx.typed cls type) i = payloadD rx i := rfl

/-- Without a restore no frame belongs to one. -/
theorem restoreHears_of_none {c : Ctl} (h : c.snap.restore = none) (f : RstPhase) : restoreHears c rx f = false := by
  rw [restoreHears, h]

theorem onCtl_onCtl (f g : Ctl → Ctl) (d : Dev) : onCtl f (onCtl g d) = onCtl (fun c => f (g c)) d := rfl

/-! ### The mirror drain (R358 to R360) -/

section
variable (hn : d.c.snap.restore = none)
include hn

theorem gotImgData_of_mirrored (hm : rx.tag = getF d.c R.PLACE_SELF.MIRRORS) (hs : getB d.c R.PLACE_SELF.SERVING = true) :
    gotImgData t rx d = holderData rx d := by
  rw [gotImgData, restoreHears_of_none hn, if_neg Bool.false_ne_true]
  exact if_pos (And.intro hm hs)

theorem gotImgData_of_other (hm : rx.tag ≠ getF d.c R.PLACE_SELF.MIRRORS) : gotImgData t rx d = d := by
  rw [gotImgData, restoreHears_of_none hn, if_neg Bool.false_ne_true]
  exact if_neg (not_and_of_not_left _ hm)

theorem gotImgDone_of_drain {x : Drain} (hx : d.c.snap.drain = some x) (hs : rx.tag = x.seat) : gotImgDone t rx d = onCtl (drainDone x rx) d := by
  rw [gotImgDone, restoreHears_of_none hn, if_neg Bool.false_ne_true, hx]
  exact if_pos hs

end

/-- An acknowledgement before the last extent is sent is noted, and no IMG_END follows. -/
theorem gotImgAck_of_more {x : Drain} (hx : d.c.snap.drain = some x) (hp : rx.peer = x.dst) (hs : rx.tag = x.seat)
    (ha : rx.arg = x.step % 2 ^ 32) (more : x.next < x.total) :
    gotImgAck t rx d = onCtl (onDrain (fun y => { y with out := x.out.del (rx.addr / extentBytes), ended := y.ended })) d := by
  have notLast : ¬ (x.next = x.total ∧ (x.out.del (rx.addr / extentBytes)).isEmpty = true ∧ (!x.ended) = true) :=
    fun h => Nat.ne_of_lt more h.1
  rw [gotImgAck, hx]
  refine (if_pos ⟨hp, hs, ha⟩).trans ((if_neg notLast).trans ?_)
  simp only [decide_eq_false notLast, Bool.or_false]

/-- The holder's answer to IMG_END, by whether the digest agrees. -/
def imageEnded (ok : Bool) (i : Nat) (rx : Rx) (c : Ctl) : Ctl :=
  sendAdmitted { drainFrame 0x04 rx.peer rx.tag rx.arg [] with status := if ok then 0 else 1 }
    (if ok then setF (mirF R.MIR_IMG0.STATE i) 2 c
     else raise evMemory 0x09 srcDevice (regionBase c (i + 1)) (setB R.CHK_DIG_STATUS.MIRROR_BAD true (setF (mirF R.MIR_IMG0.STATE i) 1 c)))

theorem imageEnded_typed (ok : Bool) (i cls type : Nat) (rx : Rx) (c : Ctl) : imageEnded ok i (rx.typed cls type) c = imageEnded ok i rx c := rfl

section
variable {i : Nat} (hf : mirFind d.c rx.tag rx.arg = some i)
include hf

/-- Stated of the components, since a digest is never unfolded to compare two spellings of them. -/
theorem gotImgEnd_of_held {c : Ctl} {m : Store} (hc : d.c = c) (hm : d.m = m) : gotImgEnd t rx d =
    { d with c := imageEnded (copyDigest c m (i + 1) == (payloadD rx 0, payloadD rx 1)) i rx c } := by
  subst hc hm
  rw [gotImgEnd, hf]
  exact onCtl_onCtl _ _ d

theorem gotImgReq_of_valid (hv : getF d.c (mirF R.MIR_IMG0.STATE i) = mirValid) (ho : rx.addr < imageLen d.c) :
    gotImgReq t rx d = sendExtent (i + 1) (rx.addr / extentBytes) rx.peer rx.tag rx.arg d := by
  rw [gotImgReq, hf]
  exact if_pos ⟨hv, ho⟩

end

section
variable (hf : mirFind d.c rx.tag rx.arg = none)
include hf

theorem gotImgEnd_of_none : gotImgEnd t rx d = d := by
  rw [gotImgEnd, hf]

theorem gotImgReq_of_none :
    gotImgReq t rx d = onCtl (sendAdmitted { drainFrame 0x04 rx.peer rx.tag rx.arg [] with status := 1 }) d := by
  rw [gotImgReq, hf]

end

/-! ### The source of a generation (R362, R363, R365) -/

theorem stripeSend_of_next {x : TailSrc} (hx : d.c.snap.tails.find? (fun x => decide (x.next < x.total)) = some x)
    (hl : stripeLen (genLen d.c (tailTrim d.c)) (tailK d.c) x.next ≠ 0) :
    stripeSend d = tailSend x x.next (onCtl (onTail x.step (fun y => { y with next := x.next + 1 })) d) := by
  rw [stripeSend, hx]
  exact if_neg hl

theorem stripeResend_of_due {x : TailSrc} {i : Nat} (hx : d.c.snap.tails = [x]) (h : ∃ t, x.out.look i = some t ∧ t ≤ d.c.ticks) :
    stripeResend i d = tailSend x i d := by
  obtain ⟨t, deadline, past⟩ := h
  rw [stripeResend, hx, List.find?_cons_of_pos]
  rw [deadline]
  exact decide_eq_true past

theorem stripeSend_of_none (h : d.c.snap.tails = []) : stripeSend d = d := by
  rw [stripeSend, h]
  rfl

theorem tailCommit_of_none {c : Ctl} (h : c.snap.tails = []) : tailCommit c = c := by
  rw [tailCommit, h]
  rfl

/-- The record of a generation goes to one target: whole where it holds a stripe, else its fixed part. -/
def recordTo (x : TailSrc) (bs : List Byte) (c : Ctl) (t : TailTarget) : Ctl :=
  match targetDevice c t with
  | some dst => if holdsStripe c x t then sendRecord dst x.seat x.step false bs c else sendRecord dst x.seat x.step true (bs.take recFixed) c
  | none => c

theorem tailCommit_of_waiting {c : Ctl} {x : TailSrc}
    (hx : c.snap.tails.find? (fun x => tailPhase x == tailWaiting && decide (x.step ≤ getF c R.STEP_ROLLBACK.STEP)) = some x) :
    tailCommit c = onTail x.step (fun y => { y with waiting := some (List.range (tailTargets c x.seat).length) })
      ((tailTargets c x.seat).foldl (recordTo x (commitRecord c x)) c) := by
  rw [tailCommit, hx]
  rfl

section
variable {x : TailSrc} (hf : tailFind d.c rx.arg = some x)
include hf

theorem gotStripeAck_of_awaited (ho : x.out.has (rx.word5 % 2 ^ 16) = true) (hs : x.seat = rx.tag)
    (hp : stripeDevice d.c x.seat (rx.word5 % 2 ^ 16) = some rx.peer) (ht : targetDevices d.c x.seat = x.devs) :
    gotStripeAck t rx d =
      if rx.status = 0 then onCtl (onTail x.step (fun y => { y with out := y.out.del (rx.word5 % 2 ^ 16) })) d
      else tailSend x (rx.word5 % 2 ^ 16) d := by
  have awaited : (x.out.has (rx.word5 % 2 ^ 16) && x.seat == rx.tag && stripeDevice d.c x.seat (rx.word5 % 2 ^ 16) == some rx.peer &&
      targetDevices d.c x.seat == x.devs) = true := by
    rw [ho, hp, ht, hs]
    simp
  rw [gotStripeAck, hf]
  exact if_pos awaited

/-- The last acknowledgement of a record commits its generation. -/
theorem gotRecAck_of_last (hw : x.waiting = some [targetPlace d.c x.seat rx.peer]) (hs : rx.status = 0) (ht : rx.tag = x.seat) :
    gotRecAck t rx d = onCtl (fun c => setF R.TAIL_LAST.STEP x.step (onTails (fun ts => ts.filter (fun y => y.step != x.step)) c)) d := by
  have heard : ¬ (rx.status ≠ 0 ∨ rx.tag ≠ x.seat ∨ 
      (!([targetPlace d.c x.seat rx.peer].contains (targetPlace d.c x.seat rx.peer))) = true) := by
    simp [hs, ht]
  have last : ([targetPlace d.c x.seat rx.peer].erase (targetPlace d.c x.seat rx.peer)).isEmpty = true := by simp
  rw [gotRecAck, hf]
  simp only [hw]
  exact (if_neg heard).trans (if_pos last)

end

/-! ### The targets (R363 to R366, R370) -/

section
variable (hn : d.c.snap.restore = none)
include hn

theorem gotStripeData_of_target : gotStripeData t rx d = targetData rx d := by
  rw [gotStripeData, restoreHears_of_none hn]
  exact if_neg Bool.false_ne_true

theorem gotStripeEnd_of_target : gotStripeEnd t rx d = targetEnd rx d := by
  rw [gotStripeEnd, restoreHears_of_none hn]
  exact if_neg Bool.false_ne_true

theorem gotRecData_of_target (hs : some rx.tag ≠ mySeat d.c) : gotRecData t rx d = targetRecord rx d := by
  rw [gotRecData, restoreHears_of_none hn, if_neg Bool.false_ne_true]
  exact if_neg hs

end

section
variable {j : Nat} {y : TailSlot} (hf : slotFind d.c rx.tag rx.arg = some j) (hy : slotOf d.c rx.tag j = some y)
include hf hy

theorem gotStripeReq_of_held {crc : Nat} (hc : y.crcs.look (rx.word5 % 2 ^ 16) = some crc) : gotStripeReq t rx d =
    (let i := rx.word5 % 2 ^ 16
     let r := readLong (stripeAddr d.c rx.tag j i) (stripeLen (genLen d.c (tailTrim d.c)) (tailK d.c) i) d
     onCtl (sendStripe rx.peer rx.tag rx.arg i r.1 crc) r.2) := by
  have held : (slotOf d.c rx.tag j).bind (fun x => x.crcs.look (rx.word5 % 2 ^ 16)) = some crc := by
    rw [hy]
    exact hc
  rw [gotStripeReq, hf]
  simp only [held]

theorem gotRecReq_of_held (hr : y.record.isSome = true) : gotRecReq t rx d =
    (let r := readLong (recordAddr d.c rx.tag j) y.recLen d
     onCtl (sendRecord rx.peer rx.tag rx.arg (!y.whole) r.1) r.2) := by
  rw [gotRecReq, hf]
  simp only [hy]
  exact if_pos hr

end

section
variable (hf : slotFind d.c rx.tag rx.arg = none)
include hf

theorem gotStripeReq_of_none : gotStripeReq t rx d = d := by
  rw [gotStripeReq, hf]

theorem gotRecReq_of_none : gotRecReq t rx d = d := by
  rw [gotRecReq, hf]

end

end

/-- Settles O53: each frame takes its handler's branch. -/
theorem mirrorFrames : Obligations.MirrorFrames := by
  intro s rx c x i
  refine ⟨fun hd hn hm hs => ?stored, fun hd hn hm => ?other, fun hd hx hp hs ha more => ?acked, fun hd hf => ?ended, fun hd hf => ?notHeld,
    fun hd hn hx hs => ?done, fun hd hf hv ho => ?asked, fun hd hf => ?bad⟩
  case stored => exact arrive_of_dev hd (gotImgData_of_mirrored hn hm hs)
  case other => exact arrive_of_ctl hd (gotImgData_of_other hn hm)
  case acked => exact arrive_of_ctl hd (gotImgAck_of_more hx hp hs ha more)
  case ended =>
    have answer := gotImgEnd_of_held (t := 0) (rx := rx.typed 3 3) (d := { s.dev with c := c }) (c := c) (m := s.dev.m) hf rfl rfl
    rw [payloadD_typed, payloadD_typed, imageEnded_typed] at answer
    exact arrive_of_ctl hd answer
  case notHeld => exact arrive_of_ctl hd (gotImgEnd_of_none hf)
  case done => exact arrive_of_ctl hd (gotImgDone_of_drain hn hx hs)
  case asked => exact arrive_of_dev hd (gotImgReq_of_valid hf hv ho)
  case bad => exact arrive_of_ctl hd (gotImgReq_of_none hf)

/-- Settles O54: each command and frame takes the branch of the generation or the slot it finds. -/
theorem tailraceCommands : Obligations.TailraceCommands := by
  intro s rx c x y i j crc
  refine ⟨fun hr hx hl => ?next, fun hr hx past => ?again, fun hr hx => ⟨?noRecord, ?noStripe⟩, fun hr hx => ?record,
    fun hd hf ho hs hp ht => ?stripeAcked, fun hd hf hw hs ht => ?committed,
    fun hn => ⟨fun hd => ?stripe, fun hd => ?stripeEnd, fun hd hs => ?recData⟩,
    fun hd hf hy hc => ?stripeAsked, fun hd hf hy hr => ?recordAsked, fun hd hf => ?noStripeHeld, fun hd hf => ?noRecordHeld⟩
  case next => exact runDev_of_eq hr (stripeSend_of_next hx hl)
  case again => exact runDev_of_eq hr (stripeResend_of_due hx past)
  case noRecord => exact runCtl_of_eq hr (tailCommit_of_none hx)
  case noStripe => exact runDev_of_eq hr (stripeSend_of_none hx)
  case record => exact runCtl_of_eq hr (tailCommit_of_waiting hx)
  case stripeAcked => exact arrive_of_dev hd (gotStripeAck_of_awaited hf ho hs hp ht)
  case committed => exact arrive_of_ctl hd (gotRecAck_of_last hf hw hs ht)
  case stripe => exact arrive_of_dev hd (gotStripeData_of_target hn)
  case stripeEnd => exact arrive_of_dev hd (gotStripeEnd_of_target hn)
  case recData => exact arrive_of_dev hd (gotRecData_of_target hn hs)
  case stripeAsked => exact arrive_of_dev hd (gotStripeReq_of_held hf hy hc)
  case recordAsked => exact arrive_of_dev hd (gotRecReq_of_held hf hy hr)
  case noStripeHeld => exact arrive_of_ctl hd (gotStripeReq_of_none hf)
  case noRecordHeld => exact arrive_of_ctl hd (gotRecReq_of_none hf)

end Sys2Proof.Machine
end

section
/-! ## Proofs: commands of the fantail

Each command takes the branch of the move, the channel or the standing that its premises name. -/

namespace Sys2Proof.Machine

section
variable {c : Ctl}

/-! ### Core moves (R391, R392) -/

/-- The first core that waits, with a spare for it, starts to move. -/
theorem moveStart_of_waiting {p q k l : Nat} {rest : List (Nat × Nat)} (hm : c.coreMove = none) (hw : c.fan.waiting = (p, k) :: rest)
    (hl : (coreSlot (onFan (fun f => { f with waiting := rest }) c) p).logical = some l)
    (hq : spareCore (onFan (fun f => { f with waiting := rest }) c) p = some q) :
    moveStart c = setB (fanCoreF R.FAN_CORE.MOVING p) true (setB (fanCoreF R.FAN_CORE.MOVING q) true
      { onFan (fun f => { f with waiting := rest }) c with
        coreMove := some { key := k, logical := l, src := p, dst := q, line := 0, carried := false, switched := false } }) := by
  simp only [moveStart, hm, hw, hl, hq]

theorem moveLine_of_next {d : Dev} {m : CoreMove} (hm : d.c.coreMove = some m) (hs : m.switched = false) (hl : m.line < moveLines) :
    moveLine d = { c := { d.c with coreMove := some { m with line := m.line + 1 } },
                   m := writeBytes d.m (lineKey m.dst m.line) (readBytes d.m (lineKey m.src m.line) 128) } := by
  have copies : (m.switched || decide (moveLines ≤ m.line)) = false := by
    rw [hs, decide_eq_false (Nat.not_le.mpr hl)]
    rfl
  simp only [moveLine, hm, copies, Bool.false_eq_true, if_false]

theorem moveLine_of_none {d : Dev} (hm : d.c.coreMove = none) : moveLine d = d := by
  rw [moveLine, hm]

theorem moveDrained_of_switched {m : CoreMove} (hm : c.coreMove = some m) (hs : m.switched = true) : moveDrained c =
    setB (fanCoreF R.FAN_CORE.MOVING m.src) false (setB (fanCoreF R.FAN_CORE.MOVING m.dst) false
      (coreRetired m.key m.src (unready (.core m.src) (setSlot m.src (fun x => { x with state := 2 }) { c with coreMove := none })))) := by
  rw [moveDrained, hm]
  exact if_pos hs

theorem moveDrained_of_none (hm : c.coreMove = none) : moveDrained c = c := by
  rw [moveDrained, hm]

/-! ### Channels in retraining (R213, R390) -/

section
variable {n : Nat} (hn : n < 256) (h4 : getF c (chF R.HBM_CH_MAP.STATE n) = 4)
include hn h4

theorem retrain_of_kept (pass : Bool) (hr : c.fan.retiring.contains n = false) :
    retrain n pass c = stackCounts (n / 32) (setF (chF R.HBM_CH_MAP.STATE n) (if pass then 1 else 5) c) := by
  rw [retrain, hr]
  exact if_pos (And.intro hn h4)

omit hn in
theorem retrain_of_retiring (pass : Bool) (hr : c.fan.retiring.contains n = true) : retrain n pass c = channelRetired n c :=
  if_pos (Bool.and_eq_true_iff.mpr ⟨hr, beq_iff_eq.mpr h4⟩)

end

/-! ### The host's controls and heat (R403, R412) -/

theorem fanClear_of_free (h : getF c R.FAN_STATUS.STANDING = 3 ∨ c.job = none) : fanClear c = setF R.FAN_STATUS.ACC 0
    { c with fan := { c.fan with units := c.fan.units.map (fun e => (e.1, { e.2 with acc := 0, heavy := 0, band := none, load := none })) } } :=
  if_pos (h.imp_right Option.isNone_iff_eq_none.mpr)

theorem fanClear_of_serving (hs : getF c R.FAN_STATUS.STANDING ≠ 3) (hj : c.job ≠ none) : fanClear c = c :=
  if_neg (not_or.mpr ⟨hs, mt Option.isNone_iff_eq_none.mp hj⟩)

theorem heatStepDown_of_cool {p : Nat} (hp : p < 72) (hc : 4000 ≤ c.fan.cool.getD p 0) : heatStepDown p c =
    stageSteps p ((stepsOf c p).1, (stepsOf c p).2 - 1) { c with fan := { c.fan with cool := c.fan.cool.put p 0 } } :=
  if_pos ⟨hp, hc⟩

/-- With nothing spilled there is nothing to write back. -/
theorem spillBack_of_empty {d : Dev} (h : d.c.slu.spill = []) : spillBack d = d := by
  rw [spillBack, h]
  rfl

end

/-- Settles O56: each command takes the branch of the move, the channel or the standing that its premises name. -/
theorem fantailCommands : Obligations.FantailCommands := by
  intro s p q k l n rest pass m hr hm
  refine ⟨fun hn hw hl hq => ?starts, fun hc hs hl => ?copies, fun hc hs => ?drained, fun hc => ⟨?noDrain, ?noLine⟩,
    fun hn h4 hk => ?retrained, fun _ h4 hk => ?retired, runCtl_whenReady fanUnderate hr hm, runCtl_whenReady fanRetire hr hm,
    fun h => ?cleared, fun hs hj => ?kept, fun hp hc => ?cools, fun h => ?noSpill⟩
  case starts => exact (runCtl_whenReady moveStart hr hm).trans (by rw [moveStart_of_waiting hn hw hl hq]; rfl)
  case copies => exact runDev_of_eq hr (moveLine_of_next hc hs hl)
  case drained => exact runCtl_of_eq hr (moveDrained_of_switched hc hs)
  case noDrain => exact runCtl_of_eq hr (moveDrained_of_none hc)
  case noLine => exact runDev_of_eq hr (moveLine_of_none hc)
  case retrained => exact (runCtl_whenReady (retrain n pass) hr hm).trans (by rw [retrain_of_kept hn h4 pass hk])
  case retired => exact (runCtl_whenReady (retrain n pass) hr hm).trans (by rw [retrain_of_retiring h4 pass hk]; rfl)
  case cleared => exact (runCtl_whenReady fanClear hr hm).trans (by rw [fanClear_of_free h])
  case kept => exact (runCtl_whenReady fanClear hr hm).trans (by rw [fanClear_of_serving hs hj]; rfl)
  case cools => exact (runCtl_whenReady (heatStepDown p) hr hm).trans (by rw [heatStepDown_of_cool hp hc])
  case noSpill => exact runDev_of_eq hr (spillBack_of_empty h)

end Sys2Proof.Machine
end

section
/-! ## Proofs: combining time messages

What a child's message does to the combination is one lemma; the fold over the children follows from it. -/

namespace Sys2Proof.Machine

/-! ### Combining (R18, R261) -/

/-- `y` is combined from `x` and perhaps more: its report is no higher, its stretch no lower, a fault stays, and the next beat is the same (R18). -/
structure CombinedFrom (x y : Combined) : Prop where
  snap : y.snap ≤ x.snap
  stretch : x.stretch ≤ y.stretch
  fault : x.fault = true → y.fault = true
  next : y.next = x.next

theorem CombinedFrom.trans {x y z : Combined} (h : CombinedFrom x y) (k : CombinedFrom y z) : CombinedFrom x z :=
  ⟨k.snap.trans h.snap, h.stretch.trans k.stretch, fun hf => k.fault (h.fault hf), k.next.trans h.next⟩

/-- A child that has sent TIME_UP adds its values. -/
theorem combineChild_of_heard {c : Ctl} {n : Nat} {m : UpMsg} (h : c.time.ups.look n = some m) (x : Combined) :
    combineChild c x n =
      { x with snap := min x.snap m.snap, stretch := max x.stretch m.stretch, fault := x.fault || m.fault, lost := lowerOf x.lost m.lost } := by
  rw [combineChild, h]

/-- For a missing child stand its last report, and a fault in a commit beat. -/
theorem combineChild_of_missing {c : Ctl} {n : Nat} (h : c.time.ups.look n = none) (x : Combined) :
    combineChild c x n = { x with snap := min x.snap (c.time.lastSnap.getD n 0), fault := x.fault || commitBeat c } := by
  rw [combineChild, h]

theorem combineChild_combinedFrom (c : Ctl) (x : Combined) (n : Nat) : CombinedFrom x (combineChild c x n) := by
  cases h : c.time.ups.look n with
  | some m =>
    rw [combineChild_of_heard h]
    exact ⟨Nat.min_le_left .., Nat.le_max_left .., fun hf => by simp [hf], rfl⟩
  | none =>
    rw [combineChild_of_missing h]
    exact ⟨Nat.min_le_left .., Nat.le_refl _, fun hf => by simp [hf], rfl⟩

theorem combineChildren_combinedFrom (c : Ctl) : ∀ (l : List Nat) (x : Combined), CombinedFrom x (l.foldl (combineChild c) x)
  | [], _ => ⟨Nat.le_refl _, Nat.le_refl _, id, rfl⟩
  | n :: l, x => (combineChild_combinedFrom c x n).trans (combineChildren_combinedFrom c l (combineChild c x n))

/-- The combination is within what a child that it heard has sent (R18). -/
theorem combineChildren_within_heard {c : Ctl} {n : Nat} {m : UpMsg} (h : c.time.ups.look n = some m) : ∀ {l : List Nat} (x : Combined), n ∈ l →
    (l.foldl (combineChild c) x).snap ≤ m.snap ∧ m.stretch ≤ (l.foldl (combineChild c) x).stretch ∧
      (m.fault = true → (l.foldl (combineChild c) x).fault = true)
  | k :: l, x, hn => by
    obtain rfl | hn := List.mem_cons.1 hn
    · have after := combineChildren_combinedFrom c l (combineChild c x n)
      rw [List.foldl_cons]
      rw [combineChild_of_heard h] at after ⊢
      exact ⟨after.snap.trans (Nat.min_le_right ..), (Nat.le_max_right ..).trans after.stretch, fun hf => after.fault (by simp [hf])⟩
    · exact combineChildren_within_heard h (combineChild c x k) hn

/-- Settles O32: each child's message lowers, raises and keeps, and so does the fold over the children. -/
theorem combiningIsMonotonic : Obligations.CombiningIsMonotonic := by
  intro c x l
  obtain ⟨snap, stretch, fault, next⟩ := combineChildren_combinedFrom c l x
  exact ⟨snap, stretch, fault, next, fun n hn m h => combineChildren_within_heard h x hn⟩

end Sys2Proof.Machine
end

section
/-! ## Proofs: what the rollback point releases

The rollback point's move releases inputs in `retRelease`, and a RELOAD that is settled with it leaves them (R25, R426). -/

namespace Sys2Proof.Machine

theorem setDigest_ret_step (n : Nat) (c : Ctl) : (setDigest n c).ret = c.ret ∧ (setDigest n c).step = c.step :=
  forN_keeps (fun t : Ctl => t.ret = c.ret ∧ t.step = c.step) 8 (fun _ _ h => h) ⟨rfl, rfl⟩

theorem setDraftState_ret_step (n : Nat) (c : Ctl) : (setDraftState n c).ret = c.ret ∧ (setDraftState n c).step = c.step := by
  unfold setDraftState
  split
  · exact ⟨rfl, rfl⟩
  · exact ⟨cause_ret 14 _, cause_step 14 _⟩

/-- A RELOAD that is settled leaves the retained inputs and the step in progress. -/
theorem reloadSettle_ret_step (c : Ctl) : (reloadSettle c).ret = c.ret ∧ (reloadSettle c).step = c.step := by
  unfold reloadSettle
  split
  · split
    · obtain ⟨hret, hstep⟩ := setDraftState_ret_step 3 (setDigest _ _)
      obtain ⟨kret, kstep⟩ := setDigest_ret_step _ _
      exact ⟨hret.trans kret, hstep.trans kstep⟩
    · exact ⟨rfl, rfl⟩
  · exact ⟨rfl, rfl⟩

/-- The rollback point moves forward only, to a CHECKED step (R24). -/
theorem moveRollback_of_further {c : Ctl} {u : Nat} (hc : c.step.hasChecked = true) (hu : u ≤ getF c R.STEP_CHECKED.STEP)
    (hr : if c.step.hasRollback then getF c R.STEP_ROLLBACK.STEP < u else 0 < u) :
    moveRollback u c = reloadSettle (retRelease u (setF R.STEP_ROLLBACK.STEP u (onStep (fun t => { t with hasRollback := true }) c))) := by
  refine if_pos ?_
  rw [hc, decide_eq_true hu, Bool.true_and, Bool.and_true]
  split at hr <;> simp_all

/-- Settles O50: the kept inputs after the move are those that `retRelease` leaves. -/
theorem retainedInputsReleased : Obligations.RetainedInputsReleased := by
  intro c u hc hu hr
  obtain ⟨ret, step⟩ := reloadSettle_ret_step (retRelease u (setF R.STEP_ROLLBACK.STEP u (onStep (fun t => { t with hasRollback := true }) c)))
  rw [moveRollback_of_further hc hu hr, ret, step]
  refine ⟨fun t => ?_, rfl⟩
  show t ∈ c.ret.kept.filter (fun t => decide (u < t)) ↔ _
  rw [List.mem_filter, decide_eq_true_iff]

end Sys2Proof.Machine
end

section
/-! ## Proofs: requests of peers

Each request is served, held or refused by where its bytes lie (R27, R184, R243); typing its frame changes nothing that its handler reads. -/

namespace Sys2Proof.Machine

section
variable {rx : Rx} {d : Dev} (lost : Nat)

/-! ### Reads (R27) -/

/-- A read waits while the shard is not to be read: in the commit beat of a tight weave (R27). -/
def readHeld (rx : Rx) (c : Ctl) : Bool :=
  getB c R.STEP_STATUS.COMMIT && !getB c R.BEAT_CFG.WEAVE && inShard c (rx.addr % 2 ^ 48) rx.arg

theorem gotReadReq_of_free (h : readHeld rx d.c = false) : gotReadReq lost rx d = serveRead rx d :=
  if_neg (ne_true_of_eq_false h)

theorem gotReadReq_of_held (h : readHeld rx d.c = true) :
    gotReadReq lost rx d = onCtl (fun c => { c with heldReads := c.heldReads ++ [rx] }) d :=
  if_pos h

/-! ### Writes (R27, R243) -/

/-- A write is shut out of the shard once a step has opened (R27). -/
def writeShut (rx : Rx) (c : Ctl) : Bool := c.step.opened && inShard c (rx.addr % 2 ^ 48) rx.frame.payload.length

/-- A refused write raises a MEMORY event and is acknowledged with STATUS 2 (R27). -/
def writeShutOut (rx : Rx) (c : Ctl) : Ctl :=
  respond rx.peer 0x05 rx.tag 2 0 [] (raise evMemory 0x03 srcDevice (rx.addr % 2 ^ 48) c)

theorem writeRefused_of_free (h : writeShut rx d.c = false) : writeRefused rx d = none := if_neg (ne_true_of_eq_false h)

theorem writeRefused_of_shut (h : writeShut rx d.c = true) : writeRefused rx d = some (onCtl (writeShutOut rx) d) := if_pos h

theorem gotWrite_of_free (h : writeShut rx d.c = false) :
    gotWrite lost rx d =
      (let r := writeRun (rx.addr % 2 ^ 48) rx.frame.payload (.remote rx.peer rx.tag 0) d
       acknowledge rx r.2 r.1) := by
  rw [gotWrite, writeRefused_of_free h]

theorem gotWrite_of_shut (h : writeShut rx d.c = true) : gotWrite lost rx d = onCtl (writeShutOut rx) d := by
  rw [gotWrite, writeRefused_of_shut h]

/-- An add-write begins at the element that holds its address. -/
theorem gotAddWrite_of_free (h : writeShut rx d.c = false) :
    gotAddWrite lost rx d =
      (let k := max 1 (codeBits rx.frame.hdr.fmt.toNat / 8)
       let r := addRun rx.frame.hdr.fmt.toNat (rx.addr % 2 ^ 48 / k * k) rx.frame.payload (.remote rx.peer rx.tag 0) d
       acknowledge rx r.2 r.1) := by
  rw [gotAddWrite, writeRefused_of_free h]

theorem gotAddWrite_of_shut (h : writeShut rx d.c = true) : gotAddWrite lost rx d = onCtl (writeShutOut rx) d := by
  rw [gotAddWrite, writeRefused_of_shut h]

end

/-- Settles O43: a delivered request takes the branch that its place names. -/
theorem remoteRequests : Obligations.RemoteRequests := by
  intro s rx c d a k held shut refused
  refine ⟨fun hd hf => ?read, fun hd hh => ?heldRead, fun hd hf => ?write, fun hd hs => ?shutWrite, fun hd hf => ?addWrite, fun hd hs => ?shutAddWrite⟩
  case read => exact arrive_of_dev hd (gotReadReq_of_free (rx := rx.typed 2 1) 0 hf)
  case heldRead => exact arrive_of_ctl hd (gotReadReq_of_held (rx := rx.typed 2 1) 0 hh)
  case write => exact arrive_of_dev hd (gotWrite_of_free (rx := rx.typed 2 3) 0 hf)
  case shutWrite => exact arrive_of_dev hd (gotWrite_of_shut (rx := rx.typed 2 3) 0 hs)
  case addWrite => exact arrive_of_dev hd (gotAddWrite_of_free (rx := rx.typed 2 4) 0 hf)
  case shutAddWrite => exact arrive_of_dev hd (gotAddWrite_of_shut (rx := rx.typed 2 4) 0 hs)

end Sys2Proof.Machine
end

section
/-! ## Proofs: picks of the vector unit

A started pick runs its rows as one fold; what stands before and after the fold is decided by the vote, the sweep and AMAX (R110, R131 to R133,
R297, R324). -/

namespace Sys2Proof.Machine

section
variable {p op : Nat} {r : Running} {d : Dev}

/-- The rows of a VMAP or VRED in ascending ordinal, and the codes of the last one that wrote any (R131 to R133). -/
def vectorRows (p : Nat) (r : Running) (d : Dev) : Dev × List Nat :=
  (runRows r).foldl (fun acc it =>
    ((vectorRow p 4 r it acc.1).1, if (vectorRow p 4 r it acc.1).2.isEmpty then acc.2 else (vectorRow p 4 r it acc.1).2)) (onCtl drawn d, [])

/-- The rows of a VUPD in ascending ordinal, until an absent unit stops them (R110, R151). -/
def updateRows (p : Nat) (r : Running) (d : Dev) : Dev × Bool :=
  (runRows r).foldl (fun acc it => if acc.2 then acc else updateRow p 4 r it acc.1) (onCtl drawn d, false)

/-! ### VMAP and VRED (R132, R133) -/

theorem vectorWork_of_plain (hc : curRun d.c p 4 op = some r) (ha : imgAmax r.image = false) :
    vectorWork op p d = onCtl (workDone p 4) (vectorRows p r d).1 := by
  simp only [vectorWork, hc, ha, Bool.false_eq_true, if_false]
  split <;> rfl

/-- A pick with AMAX delivers the last magnitude that its rows gave (R107, R133). -/
theorem vectorWork_of_amax (hc : curRun d.c p 4 op = some r) (ha : imgAmax r.image = true) {code : Nat}
    (hl : (vectorRows p r d).2.getLast? = some code) :
    vectorWork op p d = onCtl (fun c => workDone p 4 (deliverAmax r.image code c)) (vectorRows p r d).1 := by
  unfold vectorRows at hl ⊢
  simp only [vectorWork, hc, hl, ha, if_true]
  rfl

/-- Rows without elements deliver nothing. -/
theorem vectorWork_of_empty (hc : curRun d.c p 4 op = some r) (hl : (vectorRows p r d).2 = []) :
    vectorWork op p d = onCtl (workDone p 4) (vectorRows p r d).1 := by
  unfold vectorRows at hl ⊢
  simp only [vectorWork, hc, hl, List.getLast?_nil]

/-! ### VUPD (R110, R297, R324) -/

section
variable (hc : curRun d.c p 4 0x22 = some r)
include hc

theorem vupdWork_of_barred (hw : updWrites d.c p r = false) : vupdWork p d = onCtl (workDone p 4) d := by
  simp only [vupdWork, hc, hw, Bool.not_false, if_true]

variable (hw : updWrites d.c p r = true)
include hw

theorem vupdWork_of_sweep (hs : getB d.c R.CHK_DIG_STATUS.SWEEP = true) (hp : updShard d.c p r = true) : vupdWork p d = d := by
  simp [vupdWork, hc, hw, hs, hp]

theorem vupdWork_of_writing (hs : getB d.c R.CHK_DIG_STATUS.SWEEP = false ∨ updShard d.c p r = false) (hx : (updateRows p r d).2 = false) :
    vupdWork p d = onCtl (workDone p 4) (updateRows p r d).1 := by
  have free : (getB d.c R.CHK_DIG_STATUS.SWEEP && updShard d.c p r) = false := by
    obtain h | h := hs <;> simp [h]
  unfold updateRows at hx ⊢
  simp only [vupdWork, hc, hw, free, hx, Bool.not_true, Bool.false_eq_true, if_false]

end

end

section
variable {s : State} {p : Nat} (hr : running s.dev.c = true) (hp : p < 72)
include hr hp

theorem exec_vectorWork {x : Instr × Nat} (hx : x ∈ [(Instr.vmap p, 0x20), (.vred p, 0x21)]) :
    exec x.1 s = .next (s.withDev (vectorWork x.2 p s.dev)) := by
  simp only [List.mem_cons, List.not_mem_nil, or_false] at hx
  obtain rfl | rfl := hx
  · exact runDev_atTreadle _ hr hp (by decide)
  · exact runDev_atTreadle _ hr hp (by decide)

theorem exec_vupd : exec (.vupd p) s = .next (s.withDev (vupdWork p s.dev)) := runDev_atTreadle _ hr hp (by decide)

end

/-- Settles O38: each clause is a case of the two works of the vector unit. -/
theorem vectorPicks : Obligations.VectorPicks := by
  intro s p r hr hp c
  refine ⟨fun x hx hc ha => ?plain, fun x hx hc ha => ⟨fun code hl => ?amax, fun hl => ?empty⟩, fun hc hw => ?barred, fun hc hw hs hu => ?sweep,
    fun hc hw hs hx => ?writes⟩
  case plain => rw [exec_vectorWork hr hp hx, vectorWork_of_plain hc ha]; rfl
  case amax => rw [exec_vectorWork hr hp hx, vectorWork_of_amax hc ha hl]; rfl
  case empty => rw [exec_vectorWork hr hp hx, vectorWork_of_empty hc hl]; rfl
  case barred => rw [exec_vupd hr hp, vupdWork_of_barred hc hw]; rfl
  case sweep => rw [exec_vupd hr hp, vupdWork_of_sweep hc hw hs hu]; rfl
  case writes => rw [exec_vupd hr hp, vupdWork_of_writing hc hw hs hx]; rfl

end Sys2Proof.Machine
end

section
/-! ## Proofs: time messages at a timebase that has stopped

A timebase that its reference clock has stopped takes no TIME_DOWN until another draft is loaded (R495, log entry 166). The statement on time
messages does not ask that it runs, so it fails in a state where the timebase has stopped while BEAT_STATUS.RUNNING is 1. -/

namespace Sys2Proof.Machine

/-- A stopped timebase takes no TIME_DOWN (R495). -/
theorem gotTimeDown_of_stopped {d : Dev} (h : d.c.time.stopped = true) (lost : Nat) (rx : Rx) : gotTimeDown lost rx d = d := by
  simp [gotTimeDown, onCtl, h]

/-- So the command leaves what the checks of R255 have left. -/
theorem exec_timeDown_of_stopped {s : State} {rx : Rx} {c : Ctl} (hd : Delivered s 0 0x02 rx c) (h : c.time.stopped = true) :
    exec (.timeDown rx) s = .next (s.withCtl c) :=
  arrive_of_ctl hd (gotTimeDown_of_stopped (d := { s.dev with c := c }) h 0 _)

/-- Two blocks that differ in their control state alone differ. -/
theorem withCtl_inj {s : State} {c t : Ctl} (h : s.withCtl c = s.withCtl t) : c = t := congrArg (fun s : State => s.dev.c) h

/-- A frame that no delay holds and that the checks pass is delivered on what they leave. -/
theorem delivered_of_passed {s : State} {cls type : Nat} {rx : Rx} (hr : running s.dev.c = true) (hh : ingressHolds s.dev.c rx.port = false)
    (hd : (selvedge (rx.typed cls type) s.dev.c).2.deliver = true) (hl : (selvedge (rx.typed cls type) s.dev.c).2.lost = 0) :
    Delivered s cls type rx (selvedge (rx.typed cls type) s.dev.c).1 := by
  refine ⟨hr, hh, Prod.ext rfl ?_⟩
  cases h : (selvedge (rx.typed cls type) s.dev.c).2 with
  | mk deliver lost =>
    rw [h] at hd hl
    rw [show deliver = true from hd, show lost = 0 from hl]

/-! ### The state (R255, R258, R495) -/

/-- A job of roster numbers 0 and 1: 0 is the root, 1 its child. -/
def pairJob : Draft :=
  let member (n : Nat) : Member := { num := n, endpoint := false, spare := false, cap := 0, fgroup := n, key := 0 }
  { reload := false, group := 0, signer := 0, base := 0, digest := 0, sects := [], ngroups := 1, coreGroup := [], period := 0, guardPm := 0,
    weave := { broad := false, ver := 0, ownerKey := 0, ownerSig := 0, salt := 0, members := [member 0, member 1], groups := [[0, 1]], shards := [],
               sheds := [], seatMap := [], digest := 0 },
    mem := { parts := [], regs := [], regions := [], hotCfg := 0 }, salt := 0, spares := [], selTmo := 0,
    check := { n := 0, d := 0, kSample := 0, smpBase := 0, smpEntries := 0, probEntries := 0, retSlots := 0, stageKib := 0, recCfg := 0, voteCfg := 0,
               targets := [] },
    snap := { interval := 0, stateTiles := 0, tailSteps := 0, tailK := 0, trimmed := false, trim := [], targets := [] },
    fanCfg := 0, fanHeatCfg := 0, hbMiss := 0, gov := { seed := 0, records := 0, measSteps := 0, th := [], recs := [] },
    seq := { firstStep := 0, lastStep := 0, bTrain := 0, bMeas := 0, bClose := 0 }, programs := [], patches := [], samples := [] }

/-- An admitted peer. -/
def admittedPeer : Peer :=
  { state := 2, level := 1, reason := 0, qport := 0, beat := 0, active := false, attempts := 0, deadline := none, lapse := none, nonce := 0,
    theirs := none, sentAdmitted := false, gotAdmitted := false }

/-- Roster number 1 in a guard, port 0 UP and its parent admitted, with a timebase that has stopped. -/
def stoppedChild : Ctl :=
  setF (portF R.PORT_STATUS.STATE 0) 2 (setB R.BEAT_STATUS.RUNNING true (setReg R.READY_MAIN.HOST.off 0x10
    { Ctl.reset with
      pwr := { Power.reset with input := true, on := true, released := true }
      job := some pairJob
      peers := [(0, admittedPeer)]
      place := { PlaceSt.reset with me := some 1 }
      time := { TimeSt.reset with inGuard := true, stopped := true } }))

/-- TIME_DOWN from the parent, its payload zero. -/
def parentDown : Rx :=
  let f : Frame :=
    { hdr := { ver := 1, cls := 0, first := true, type := 0x02, alive := 0, src := 0, dst := 1, len := 32, port := 0, rosterVer := 0, addr := 0,
               tag := 0, fmt := 0, status := 0, arg := 0, rsv := 0 }
      payload := List.replicate 32 0 }
  { port := 0, time := 5, frame := f, crc := frameCrc f }

/-- What the checks of R255 leave of that child when the frame arrives. -/
def stoppedHeard : Ctl := (selvedge (parentDown.typed 0 2) stoppedChild).1

def stoppedBlock : State := { pending := [], dev := { c := stoppedChild, m := { gen := 0, cells := [] } } }

theorem stoppedBlock_delivers : Delivered stoppedBlock 0 0x02 parentDown stoppedHeard :=
  delivered_of_passed (s := stoppedBlock) (by decide +kernel) (by decide +kernel) (by decide +kernel) (by decide +kernel)

/-- The premises of the clause on TIME_DOWN hold there. -/
theorem stoppedHeard_awaits_down : timeOn stoppedHeard = true ∧ treeParent stoppedHeard = some parentDown.peer ∧
    getB stoppedHeard R.BEAT_STATUS.RUNNING = true ∧ stoppedHeard.time.inGuard = true ∧ stoppedHeard.time.gotDown = false ∧
    stoppedHeard.time.stopped = true := by
  decide +kernel

theorem stoppedHeard_down_taken : (downInJob (parentDown.typed 0 2) stoppedHeard).time.gotDown = true := by decide +kernel

/-- Refutes O31: a device whose timebase has stopped, with BEAT_STATUS.RUNNING 1 in a guard, leaves its parent's TIME_DOWN alone (R495, log entry
166), where the statement has it taken. The model's loss of the clock clears RUNNING as it stops the timebase; the statement, which is about every
state, does not exclude the two together. -/
theorem not_timeMessages : ¬ Obligations.TimeMessages := by
  intro h
  obtain ⟨_, _, taken, _⟩ := h stoppedBlock parentDown stoppedHeard 0 0
  obtain ⟨ho, hp, hr, hg, hd, hs⟩ := stoppedHeard_awaits_down
  have same : stoppedHeard = downInJob (parentDown.typed 0 2) stoppedHeard := withCtl_inj (Host.Outcome.next.inj
    ((exec_timeDown_of_stopped stoppedBlock_delivers hs).symm.trans (taken stoppedBlock_delivers ho hp hr hg hd)))
  have down := stoppedHeard_down_taken
  rw [← same, hd] at down
  exact Bool.noConfusion down

end Sys2Proof.Machine
end

section
/-! ## Proofs: registers of the sequencer, the beat, the vote and recovery

Each command is one function of the control state; a lemma states each of its branches (R17, R31, R137, R166, R299, R338). -/

namespace Sys2Proof.Machine

/-! ### The sequencer's registers (R137, R166) -/

/-- A core's block acts while the core is READY (R445). -/
theorem runCtl_whenCore (f : Ctl → Ctl) {s : State} {p : Nat} (hr : running s.dev.c = true) (hm : coreReady s.dev.c p = true) :
    runCtl (whenCore p f) s = .next (s.withCtl (f s.dev.c)) :=
  runCtl_of_eq hr (if_pos hm)

section
variable {c : Ctl}

theorem cntWrite_of_closed (h : stepOpen c = false) (p n : Nat) (v : Word) :
    cntWrite p n v c = setF (coreF (idxF R.SEQ_CNT.COUNT 4 n) p) v.toNat c :=
  if_neg (ne_true_of_eq_false h)

theorem cntWrite_of_open (h : stepOpen c = true) (p n : Nat) (v : Word) :
    cntWrite p n v c = raise evProgram 0x13 (srcTreadle p 5) 0 (setB (trF R.TR_STATE.REFUSED p 5) true c) :=
  if_pos h

/-- Local flags and treadle states are different words. -/
theorem lflags_ne_trState {t : Nat} (ht : t < 6) (p : Nat) : (coreF R.SEQ_LFLAGS.FLAGS p).off ≠ (trF R.TR_STATE.STATE p t).off := by
  show 0x1000500 + 0x10000 * p ≠ 0x1000100 + (0x10000 * p + 0x40 * t)
  omega

/-- `t` has the chip flags of `c`, and the words of `c` but for core p's local flags and the states of its treadles. -/
structure FlagsSet (p : Nat) (w : Dword) (c t : Ctl) : Prop where
  chip : t.chip = c.chip
  flags : localFlags t p = localFlags c p ||| w
  other : ∀ off, off ≠ (coreF R.SEQ_LFLAGS.FLAGS p).off → (∀ k, off ≠ (trF R.TR_STATE.STATE p k).off) → getReg t off = getReg c off

theorem orLocal_flagsSet (p : Nat) (w : Dword) (c : Ctl) : FlagsSet p w c (orLocal p w c) :=
  ⟨rfl, getReg_setReg_same .., fun _ h _ => getReg_setReg_ne _ _ h⟩

/-- A change of a treadle of the core shows in its state alone. -/
theorem FlagsSet.setTr {p t : Nat} {w : Dword} {u : Ctl} (h : FlagsSet p w c u) (ht : t < 6) (f : Treadle → Treadle) :
    FlagsSet p w c (setTr p t f u) where
  chip := h.chip
  flags := (getReg_setReg_ne _ _ (lflags_ne_trState ht p)).trans h.flags
  other off hl hs := (getReg_setReg_ne _ _ (hs t)).trans (h.other off hl hs)

/-- Local flags that are set, with the picks that may start by them. -/
theorem setLocal_flagsSet (p : Nat) (w : Dword) (c : Ctl) : FlagsSet p w c (setLocal p w c) := by
  unfold setLocal forN
  refine List.foldlRecOn (motive := FlagsSet p w c) (List.range 6) _ (orLocal_flagsSet p w c) fun u h t ht => ?_
  dsimp only
  split
  · exact h.setTr (List.mem_range.1 ht) _
  · exact h

/-! ### The stretch request (R17, R31) -/

theorem stretchWrite_of_time (h : c.time.inGuard = false) (v : Word) : stretchWrite v c = setF R.BEAT_STRETCH.REQ v.toNat c := by
  simp only [stretchWrite, setReg_time, setF, h, Bool.false_and, Bool.false_eq_true, if_false]

/-- In the guard a request is late: it is for the beat after the next. -/
theorem stretchWrite_of_late {v : Word} (h : c.time.inGuard = true) (hv : 0 < v.toNat % 32) :
    stretchWrite v c = setB R.BEAT_STATUS.LATE_STRETCH true
      { setF R.BEAT_STRETCH.REQ v.toNat c with time := { c.time with reqLate := true } } := by
  simp only [stretchWrite, setReg_time, setF, h, decide_eq_true hv, Bool.true_and, if_true]

/-! ### The vote's configuration (R299) -/

/-- A field of RW bits takes the value written. -/
theorem fldGet_masked {m : Dword} {f : Fld} (h : m &&& fldMask f = fldMask f) (hf : f.lo + f.w ≤ 64) (w v : Dword) :
    fldGet ((w &&& ~~~ m) ||| (v &&& m)) f = fldGet v f := by
  refine Nat.eq_of_testBit_eq fun j => ?_
  rw [fldGet_testBit, fldGet_testBit]
  by_cases hj : j < f.w
  · have bit : m.getLsbD (f.lo + j) = true := by
      have hm := congrArg (·.getLsbD (f.lo + j)) h
      simp only [BitVec.getLsbD_and, fldMask_bit] at hm
      rw [decide_eq_true (show f.lo + j < 64 by omega), decide_eq_true (show f.lo ≤ f.lo + j by omega),
        decide_eq_true (show f.lo + j < f.lo + f.w by omega)] at hm
      simpa using hm
    simp [bit]
  · simp [hj]

/-- VOTE_CFG as a write leaves it while no step is OPEN. -/
def voteCfgMasked (v : Dword) (c : Ctl) : Ctl :=
  setReg R.VOTE_CFG.adr ((getReg c R.VOTE_CFG.adr &&& ~~~ 0xFFFF003F) ||| (v &&& 0xFFFF003F)) c

theorem maskWrite_voteCfg (v : Dword) (c : Ctl) : maskWrite R.VOTE_CFG.adr v c = voteCfgMasked v c := by
  have row : regRowAt R.VOTE_CFG.adr = some ⟨R.VOTE_CFG.adr, 4, [], 0xFFFF003F, 0, 0x320020⟩ := by decide +kernel
  exact (maskWrite_of_row row v c).trans (congrArg (setReg _ · c) (masked_rw _ v _))

theorem getF_voteCfgMasked {f : Fld} (ho : f.off = R.VOTE_CFG.adr) (h : 0xFFFF003F &&& fldMask f = fldMask f) (hf : f.lo + f.w ≤ 64) (v : Dword)
    (c : Ctl) : getF (voteCfgMasked v c) f = fldGet v f := by
  rw [getF, ho, voteCfgMasked, getReg_setReg_same, fldGet_masked h hf]

theorem voteCfg_of_closed (h : stepOpen c = false) (v : Word) : voteCfg v c = voteCfgMasked (v.setWidth 64) c := by
  simp only [voteCfg, h, Bool.false_eq_true, if_false, maskWrite_voteCfg]

theorem voteCfg_of_open (h : stepOpen c = true) (v : Word) :
    voteCfg v c = setF R.VOTE_CFG.POLICY (getF c R.VOTE_CFG.POLICY) (voteCfgMasked (v.setWidth 64) c) := by
  simp only [voteCfg, h, if_true, maskWrite_voteCfg]

theorem policy_of_voteCfg (v : Word) (c : Ctl) :
    getF (voteCfg v c) R.VOTE_CFG.POLICY = if stepOpen c then getF c R.VOTE_CFG.POLICY else v.toNat % 2 := by
  cases h : stepOpen c with
  | true =>
    rw [voteCfg_of_open h, getF_setF_same _ _ _ (by decide)]
    exact Nat.mod_eq_of_lt (Nat.mod_lt _ (by decide))
  | false =>
    rw [voteCfg_of_closed h, getF_voteCfgMasked rfl (by decide) (by decide)]
    simp [fldGet, R.VOTE_CFG.POLICY]

theorem stretch_of_voteCfg (v : Word) (c : Ctl) :
    getF (voteCfg v c) R.VOTE_CFG.STRETCH_S = fldGet (v.setWidth 64) R.VOTE_CFG.STRETCH_S := by
  have masked := getF_voteCfgMasked (f := R.VOTE_CFG.STRETCH_S) rfl (by decide) (by decide) (v.setWidth 64) c
  cases h : stepOpen c with
  | true => rw [voteCfg_of_open h, getF_setF_bits (f := R.VOTE_CFG.POLICY) (g := R.VOTE_CFG.STRETCH_S) _ _ rfl (by decide) (by decide), masked]
  | false => rw [voteCfg_of_closed h, masked]

theorem getReg_voteCfg {off : Nat} (ho : off ≠ R.VOTE_CFG.adr) (v : Word) (c : Ctl) : getReg (voteCfg v c) off = getReg c off := by
  have masked : getReg (voteCfgMasked (v.setWidth 64) c) off = getReg c off := getReg_setReg_ne _ _ ho
  cases h : stepOpen c with
  | true => rw [voteCfg_of_open h, setF, getReg_setReg_ne (off := R.VOTE_CFG.POLICY.off) _ _ ho, masked]
  | false => rw [voteCfg_of_closed h, masked]

/-! ### Arming (R338) -/

theorem recArm_of_unheeded (h : armHeeded c = false) : recArm c = c := if_pos (by rw [h]; rfl)

theorem recArm_of_late (h : armHeeded c = true) (hb : getF c R.REC_AT.BEAT ≤ getF c R.BEAT_NOW.BEAT) :
    recArm c = setB R.REC_STATUS.ARM_LATE true c := by
  simp [recArm, h, hb]

theorem recArm_of_ahead (h : armHeeded c = true) (hb : getF c R.BEAT_NOW.BEAT < getF c R.REC_AT.BEAT) :
    recArm c = { c with ret := { c.ret with armed := some (getF c R.REC_AT.BEAT) } } := by
  simp [recArm, h, Nat.not_le.2 hb]

end

/-! ### The commands -/

theorem withCtl_c (s : State) (c : Ctl) : (s.withCtl c).dev.c = c := rfl

section
variable {s : State} (hr : running s.dev.c = true)
include hr

theorem exec_seqCntWrite {p n : Nat} (hp : coreReady s.dev.c p = true) (hn : n < 32) (v : Word) :
    exec (.seqCntWrite p n v) s = .next (s.withCtl (cntWrite p n v s.dev.c)) := by
  exact (runCtl_whenCore _ hr hp).trans (by rw [if_pos hn])

theorem exec_seqLflagSet {p : Nat} (hp : coreReady s.dev.c p = true) (w : Dword) :
    exec (.seqLflagSet p w) s = .next (s.withCtl (setLocal p w s.dev.c)) := runCtl_whenCore _ hr hp

theorem exec_seqLflagClr {p : Nat} (hp : coreReady s.dev.c p = true) (w : Dword) :
    exec (.seqLflagClr p w) s = .next (s.withCtl (clearLocal p w s.dev.c)) := runCtl_whenCore _ hr hp

theorem exec_beatStretchReq (hm : mainReady s.dev.c 4 = true) (v : Word) :
    exec (.beatStretchReq v) s = .next (s.withCtl (stretchWrite v s.dev.c)) := runCtl_whenReady _ hr hm

theorem exec_voteCfgWrite (v : Word) : exec (.voteCfgWrite v) s = .next (s.withCtl (voteCfg v s.dev.c)) := runCtl_of_eq hr rfl

theorem exec_recCtrlArm : exec .recCtrlArm s = .next (s.withCtl (recArm s.dev.c)) := runCtl_of_eq hr rfl

end

/-- Settles O22: each command takes the branch that its premises name. -/
theorem actingRegisters : Obligations.ActingRegisters := by
  intro s p n v w hr c
  refine ⟨fun hp hn ho => ?count, fun hp hn ho => ?refused, fun hp => ?sets, fun hp => exec_seqLflagClr hr hp w, fun hm hg => ?stretch,
    fun hm hg hv => ?late, ?vote, fun ha hb => ?arms, fun ha hb => ?armLate, fun ha => ?unheeded⟩
  case count => rw [exec_seqCntWrite hr hp hn, cntWrite_of_closed ho]
  case refused => rw [exec_seqCntWrite hr hp hn, cntWrite_of_open ho]
  case sets =>
    obtain ⟨chip, flags, other⟩ := setLocal_flagsSet p w c
    refine ⟨s.withCtl (setLocal p w c), exec_seqLflagSet hr hp w, rfl, ?_⟩
    rw [withCtl_c]
    exact ⟨chip, flags, other⟩
  case stretch => rw [exec_beatStretchReq hr hm, stretchWrite_of_time hg]
  case late => rw [exec_beatStretchReq hr hm, stretchWrite_of_late hg hv]
  case vote =>
    refine ⟨s.withCtl (voteCfg v c), exec_voteCfgWrite hr v, rfl, ?_⟩
    rw [withCtl_c]
    exact ⟨policy_of_voteCfg v c, stretch_of_voteCfg v c, fun off ho => getReg_voteCfg ho v c⟩
  case arms => rw [exec_recCtrlArm hr, recArm_of_ahead ha hb]
  case armLate => rw [exec_recCtrlArm hr, recArm_of_late ha hb]
  case unheeded => rw [exec_recCtrlArm hr, recArm_of_unheeded ha]; rfl

end Sys2Proof.Machine
end

section
/-! ## Proofs: what a step that opens leaves of its number and count

A step that opens runs much of the device: its program is loaded, its vote may be sent, its stretch written, its segments started. What a
member of the job needs of it (R22) is in four places that all this leaves alone, and `stepView` shows these. -/

namespace Sys2Proof.Machine

/-- Whether a step of the job has opened, the count of its beats, its number and whether it is OPEN. -/
def stepView (c : Ctl) : Bool × Nat × Dword × Bool := (c.step.opened, c.step.beat, getReg c R.STEP_NOW.adr, stepOpen c)

/-! ### Words and fields -/

theorem stepView_of_word {c t : Ctl} (hs : t.step = c.step) (hn : getReg t R.STEP_NOW.adr = getReg c R.STEP_NOW.adr)
    (ho : getReg t R.STEP_STATUS.adr = getReg c R.STEP_STATUS.adr) : stepView t = stepView c := by
  have hopen : stepOpen t = stepOpen c := by
    show (fldGet (getReg t R.STEP_STATUS.adr) R.STEP_STATUS.OPEN != 0) = (fldGet (getReg c R.STEP_STATUS.adr) R.STEP_STATUS.OPEN != 0)
    rw [ho]
  rw [stepView, stepView, hs, hn, hopen]

theorem stepView_notice {c t : Ctl} (h : NoticeOnly c t) : stepView t = stepView c := by
  refine stepView_of_word ?_ (h.2 _ (by decide)) (h.2 _ (by decide))
  rw [h.1]

section
variable (c : Ctl)

@[simp] theorem stepView_setReg {o : Nat} (hn : R.STEP_NOW.adr ≠ o) (ho : R.STEP_STATUS.adr ≠ o) (v : Dword) :
    stepView (setReg o v c) = stepView c :=
  stepView_of_word rfl (getReg_setReg_ne v c hn) (getReg_setReg_ne v c ho)

@[simp] theorem stepView_setF {f : Fld} (hn : R.STEP_NOW.adr ≠ f.off) (ho : R.STEP_STATUS.adr ≠ f.off) (x : Nat) :
    stepView (setF f x c) = stepView c := stepView_setReg c hn ho _

@[simp] theorem stepView_setB {f : Fld} (hn : R.STEP_NOW.adr ≠ f.off) (ho : R.STEP_STATUS.adr ≠ f.off) (b : Bool) :
    stepView (setB f b c) = stepView c := stepView_setReg c hn ho _

@[simp] theorem stepView_satF {f : Fld} (hn : R.STEP_NOW.adr ≠ f.off) (ho : R.STEP_STATUS.adr ≠ f.off) (k : Nat) :
    stepView (satF f k c) = stepView c := stepView_setReg c hn ho _

@[simp] theorem stepView_incF {f : Fld} (hn : R.STEP_NOW.adr ≠ f.off) (ho : R.STEP_STATUS.adr ≠ f.off) (k : Nat) :
    stepView (incF f k c) = stepView c := stepView_setReg c hn ho _

/-- A bit of STEP_STATUS above OPEN. -/
theorem stepView_statusBit {f : Fld} (hf : f.off = R.STEP_STATUS.adr) (hl : 1 ≤ f.lo) (b : Bool) : stepView (setB f b c) = stepView c := by
  have hopen : stepOpen (setB f b c) = stepOpen c := getB_setB_bits b c hf.symm (by decide) (.inr hl)
  have hnow : getReg (setB f b c) R.STEP_NOW.adr = getReg c R.STEP_NOW.adr := getReg_setReg_ne _ c (by rw [hf]; decide)
  rw [stepView, stepView, hopen, hnow]
  rfl

@[simp] theorem stepView_ckfail (b : Bool) : stepView (setB R.STEP_STATUS.CKFAIL b c) = stepView c := stepView_statusBit c rfl (by decide) b

@[simp] theorem stepView_bad (b : Bool) : stepView (setB R.STEP_STATUS.BAD b c) = stepView c := stepView_statusBit c rfl (by decide) b

@[simp] theorem stepView_cause (v : Nat) : stepView (cause v c) = stepView c := stepView_notice (cause_notice v c)

@[simp] theorem stepView_raise (cls sub src detail : Nat) : stepView (raise cls sub src detail c) = stepView c :=
  stepView_notice (raise_notice cls sub src detail c)

@[simp] theorem stepView_raiseAt (b s cls sub src detail : Nat) : stepView (raiseAt b s cls sub src detail c) = stepView c :=
  stepView_notice (raiseAt_notice b s cls sub src detail c)

@[simp] theorem stepView_gatherEnd : stepView (gatherEnd c) = stepView c := stepView_notice (gatherEnd_notice c)

@[simp] theorem stepView_onFan (f : FanSt → FanSt) : stepView (onFan f c) = stepView c := rfl

@[simp] theorem stepView_onColl (f : CollSt → CollSt) : stepView (onColl f c) = stepView c := rfl

@[simp] theorem stepView_onRet (f : Retain → Retain) : stepView (onRet f c) = stepView c := rfl

end

/-- What keeps the view at each turn keeps it over a list. -/
theorem stepView_foldl {α : Type} {f : Ctl → α → Ctl} (hf : ∀ c a, stepView (f c a) = stepView c) (l : List α) (c : Ctl) :
    stepView (l.foldl f c) = stepView c :=
  foldl_keeps (fun t => stepView t = stepView c) l (fun b a h => (hf b a).trans h) rfl

theorem stepView_forN {f : Nat → Ctl → Ctl} (hf : ∀ i c, stepView (f i c) = stepView c) (n : Nat) (c : Ctl) :
    stepView (forN n f c) = stepView c :=
  stepView_foldl (fun c i => hf i c) _ c

/-- The same of the whole device. -/
theorem stepView_foldlDev {α : Type} {f : Dev → α → Dev} (hf : ∀ d a, stepView (f d a).c = stepView d.c) (l : List α) (d : Dev) :
    stepView (l.foldl f d).c = stepView d.c :=
  foldl_keeps (fun t => stepView t.c = stepView d.c) l (fun b a h => (hf b a).trans h) rfl

theorem stepView_inCycle {f : Ctl → Ctl} (hf : ∀ c, stepView (f c) = stepView c) (c : Ctl) : stepView (inCycle f c) = stepView c := by
  obtain ⟨c0, h0, hk⟩ := inCycle_notice f c
  have same : stepView c0 = stepView c := by
    rcases h0 with rfl | rfl <;> rfl
  rw [stepView_notice hk, hf, same]

/-! ### Faults and failed checks (R318, R331, R336) -/

section
variable (c : Ctl)

@[simp] theorem stepView_classProgram (k : Nat) : stepView (classProgram k c) = stepView c := by
  have classed : stepView (setF R.CHK_CLASS.CLASS k (setF R.CHK_CLASS.STEP (getF c R.STEP_NOW.STEP) c)) = stepView c := by
    simp (disch := decide)
  unfold classProgram
  dsimp only
  split
  · exact classed
  · rw [stepView_ckfail]
    exact classed

@[simp] theorem stepView_recordFirst (r : FailRec) : stepView (recordFirst r c) = stepView c := by
  unfold recordFirst
  dsimp only
  split
  · rfl
  · split <;> simp (disch := decide) <;> rfl

@[simp] theorem stepView_markBad (s : Nat) : stepView (markBad s c) = stepView c := by
  unfold markBad
  split <;> simp (disch := decide)

@[simp] theorem stepView_setCkfail : stepView (setCkfail c) = stepView c := by
  unfold setCkfail
  dsimp only
  split
  · split
    · exact stepView_ckfail c true
    · exact stepView_ckfail c true
  · rfl

@[simp] theorem stepView_checkFail (r : FailRec) : stepView (checkFail r c) = stepView c := by
  unfold checkFail
  dsimp only
  split <;> simp

@[simp] theorem stepView_faultIfOpen (k src : Nat) : stepView (faultIfOpen k src c) = stepView c := by
  unfold faultIfOpen
  split <;> simp

@[simp] theorem stepView_enterFailed : stepView (enterFailed c) = stepView c := by
  unfold enterFailed
  split
  · exact stepView_setCkfail { c with step := { c.step with failed := true } }
  · rfl

@[simp] theorem stepView_recordFault (detail : Nat) : stepView (recordFault detail c) = stepView c := by
  unfold recordFault drawn
  dsimp only
  rw [stepView_checkFail]
  exact stepView_raise c _ _ _ _

end

/-! ### Findings and the reads that find errors (R199, R384) -/

section
variable (c : Ctl)

@[simp] theorem stepView_markDue (k : Nat) : stepView (markDue k c) = stepView c := by
  unfold markDue
  dsimp only
  split <;> split <;> rfl

@[simp] theorem stepView_onUnit (k : Nat) (f : FUnit → FUnit) : stepView (onUnit k f c) = stepView c := rfl

@[simp] theorem stepView_finding (kind points src : Nat) (unit : Option Nat) : stepView (finding kind points src unit c) = stepView c := by
  unfold finding
  dsimp only
  split <;> split <;> simp (disch := decide)

/-- The words that count the errors of channels and packages lie above the step's. -/
theorem errF_above {f g : Fld} (hf : R.STEP_STATUS.adr < f.off) (hg : R.STEP_STATUS.adr < g.off) (src : Nat) :
    R.STEP_STATUS.adr < (errF f g src).off := by
  unfold errF chErrF idxF Fld.at
  split
  · exact Nat.lt_add_right _ hf
  · exact Nat.lt_add_right _ hg

/-- A field above the step's words. -/
theorem stepView_setF_above {f : Fld} (h : R.STEP_STATUS.adr < f.off) (x : Nat) : stepView (setF f x c) = stepView c :=
  stepView_setF c (Nat.ne_of_lt (Nat.lt_trans (by decide) h)) (Nat.ne_of_lt h) x

theorem stepView_setReg_above {o : Nat} (h : R.STEP_STATUS.adr < o) (v : Dword) : stepView (setReg o v c) = stepView c :=
  stepView_setReg c (Nat.ne_of_lt (Nat.lt_trans (by decide) h)) (Nat.ne_of_lt h) v

@[simp] theorem stepView_correctedAt (src : Nat) : stepView (correctedAt src c) = stepView c := by
  have counted : stepView (satF (errF R.HBM_CH_ERR.CORR R.MP_ERR.CORR src) 1 c) = stepView c :=
    stepView_setF_above c (errF_above (by decide) (by decide) src) _
  unfold correctedAt corrected chargeUnit
  dsimp only
  split
  · rw [stepView_finding]
    exact counted
  · exact counted

@[simp] theorem stepView_uncorrectable (src a : Nat) : stepView (uncorrectable src a c) = stepView c := by
  refine stepView_inCycle (fun c => ?_) c
  rw [stepView_faultIfOpen, stepView_raise, chargeUnit, stepView_finding]
  exact stepView_setF_above c (errF_above (by decide) (by decide) src) _

@[simp] theorem stepView_readErrors (a key n : Nat) : stepView (readErrors a key n c) = stepView c := by
  have corrected (src k : Nat) (c : Ctl) : stepView (forN k (fun _ => correctedAt src) c) = stepView c :=
    stepView_forN (fun _ c => stepView_correctedAt c src) k c
  unfold readErrors
  dsimp only
  split <;> split <;> simp [corrected]

@[simp] theorem stepView_serveGranule (l : Nat) (home : ChHome) : stepView (serveGranule l home c) = stepView c := rfl

@[simp] theorem stepView_charge (part a bytes : Nat) : stepView (charge part a bytes c) = stepView c := by
  have counted : stepView (chargeBytes part bytes c) = stepView c :=
    stepView_setF_above c (Nat.lt_of_lt_of_le (by decide) (Nat.le_add_right R.MEM_PART_BYTES.COUNT.off _)) _
  unfold charge
  dsimp only
  split
  · exact counted
  · exact counted

@[simp] theorem stepView_addSpill (s a home : Nat) : stepView (addSpill s a home c) = stepView c := by
  have above (f : Fld) (hf : R.STEP_STATUS.adr < f.off) : R.STEP_STATUS.adr < (idxF f 8 s).off := Nat.lt_add_right _ hf
  unfold addSpill
  refine (stepView_setF_above _ (above _ (by decide)) _).trans ((stepView_setF_above _ (above _ (by decide)) _).trans rfl)

@[simp] theorem stepView_spillFull (s a : Nat) : stepView (spillFull s a c) = stepView c := by
  unfold spillFull
  rw [stepView_raise]
  exact stepView_setF_above c (Nat.lt_of_lt_of_le (by decide) (Nat.le_add_right R.FAN_HEAT.SPILL_FULL.off _)) _

end

/-! ### Memory (R199, R211, R405) -/

section
variable (d : Dev)

@[simp] theorem stepView_copyGranule (src dst : Nat) : stepView (copyGranule src dst d).1.c = stepView d.c := by
  unfold copyGranule putGranule
  dsimp only
  split <;> rfl

/-- A granule that was copied with an error is marked. -/
theorem stepView_snapBad (c : Ctl) (slu : Sluice) : stepView (setB R.SLU_STATUS.SNAP_BAD true { c with slu := slu }) = stepView c :=
  stepView_setB { c with slu := slu } (by decide) (by decide) true

@[simp] theorem stepView_snapGranule (a dst : Nat) : stepView (snapGranule a dst d).c = stepView d.c := by
  have copied (key : Nat) : stepView (copyGranule key dst (onCtl (fun c => readErrors a key 256 (charge 5 a 256 c)) d)).1.c = stepView d.c := by
    rw [stepView_copyGranule, onCtl_c, stepView_readErrors, stepView_charge]
  unfold snapGranule
  dsimp only
  split
  · rw [onCtl_c, stepView_snapBad, copied]
  · rw [copied]

@[simp] theorem stepView_copyLine (i : Nat) : stepView (copyLine i d).c = stepView d.c :=
  (stepView_foldlDev (fun d _ => stepView_snapGranule d _ _) _ _).trans rfl

@[simp] theorem stepView_forcedCopy (a : Nat) : stepView (forcedCopy a d).c = stepView d.c := by
  unfold forcedCopy
  split
  · split
    · dsimp only
      split
      · simp (disch := decide)
      · rfl
    · rfl
  · rfl

@[simp] theorem stepView_performAt (key : Nat) (data : List Byte) (add : Option Nat) : stepView (performAt key data add d).c = stepView d.c := by
  cases add <;> rfl

@[simp] theorem stepView_performHbm (a : Nat) (data : List Byte) (add : Option Nat) : stepView (performHbm a data add d).c = stepView d.c := by
  unfold performHbm
  dsimp only
  rw [stepView_performAt]
  split <;> simp

@[simp] theorem stepView_takeSpill (s a home : Nat) : stepView (takeSpill s a home d).c = stepView d.c := by
  simp [takeSpill]

@[simp] theorem stepView_holdWrite (s a : Nat) (data : List Byte) (add : Option Nat) (who : HeldFor) :
    stepView (holdWrite s a data add who d).c = stepView d.c := rfl

@[simp] theorem stepView_writeHbm (s a : Nat) (data : List Byte) (add : Option Nat) (who : HeldFor) :
    stepView (writeHbm s a data add who d).1.c = stepView d.c := by
  unfold writeHbm hbmNow
  split
  · rfl
  · split
    · exact stepView_performHbm d a data add
    · split
      · split
        · simp
        · simp
      · rfl

@[simp] theorem stepView_writeUnit (a : Nat) (data : List Byte) (who : HeldFor) : stepView (writeUnit a data who d).1.c = stepView d.c := by
  unfold writeUnit
  split
  case h_1 => exact stepView_writeHbm d _ a data none who
  case h_3 => exact stepView_raise d.c _ _ _ _
  case h_5 =>
    split
    · rfl
    · exact stepView_raise d.c _ _ _ _
  case h_8 => exact stepView_raise d.c _ _ _ _
  all_goals rfl

@[simp] theorem stepView_noteStretch (k s : Nat) : stepView (noteStretch k s d).c = stepView d.c := by
  unfold noteStretch
  dsimp only
  split
  · rfl
  · split
    · exact stepView_setB d.c (by decide) (by decide) true
    · split <;> simp

end

/-! ### Frames (R240, R244, R271, R470) -/

theorem stepView_flowTake {peer cls q : Nat} {c t : Ctl} (h : flowTake peer cls q c = some t) : stepView t = stepView c := by
  unfold flowTake at h
  dsimp only at h
  split at h
  · cases h; rfl
  · split at h
    · cases h
    · cases h
      split
      · exact stepView_setF _ (by decide) (by decide) _
      · rfl

theorem stepView_flowNext {peer cls q a : Nat} {first : Bool} {c t : Ctl} (h : flowNext peer cls q c = some (t, first, a)) :
    stepView t = stepView c := by
  unfold flowNext at h
  split at h
  · cases h
  · next u hu =>
    cases h
    exact (show stepView _ = stepView u from rfl).trans (stepView_flowTake hu)

section
variable (c : Ctl)

@[simp] theorem stepView_tenSpend {f : Fld} (hf : R.STEP_STATUS.adr < f.off) : stepView (tenSpend f c) = stepView c := by
  unfold tenSpend
  split
  · dsimp only
    split
    · exact stepView_setReg_above c hf _
    · rfl
  · rfl

@[simp] theorem stepView_tenInjected : stepView (tenInjected c) = stepView c := by
  unfold tenInjected
  dsimp only
  rw [stepView_setB _ (by decide) (by decide)]
  split <;> rfl

@[simp] theorem stepView_lpeCount (q : Nat) : stepView (lpeCount R.LPE_TX.COUNT q c) = stepView c :=
  stepView_setF_above c (Nat.lt_of_lt_of_le (by decide) (Nat.le_add_right R.LPE_TX.COUNT.off _)) _

end

theorem stepView_emit {q p : Nat} {f : Frame} {c t : Ctl} (h : emit q p f c = some t) : stepView t = stepView c := by
  unfold emit at h
  dsimp only at h
  split at h
  · cases h
  · next u first a hu =>
    cases h
    refine (stepView_lpeCount _ q).trans (.trans ?_ (stepView_flowNext hu))
    split
    · exact (stepView_tenInjected _).trans (stepView_tenSpend u (by decide))
    · rfl

theorem stepView_sendOn (q : Nat) (f : Frame) (c : Ctl) : stepView (sendOn q f c) = stepView c := by
  unfold sendOn
  split
  · rfl
  · split
    · next t ht =>
      unfold tryPort at ht
      split at ht
      · cases ht
      · split at ht
        · exact stepView_emit ht
        · cases ht
    · rfl

@[simp] theorem stepView_sendLowest (n : Nat) (o : Out) (c : Ctl) : stepView (sendLowest n o c) = stepView c := by
  unfold sendLowest
  dsimp only
  split
  · rfl
  · exact stepView_foldl (fun c q => stepView_sendOn q _ c) _ c

/-! ### Treadles (R129, R139, R155) -/

/-- A treadle's words lie above the step's. -/
theorem trF_above {f : Fld} (h : R.STEP_STATUS.adr < f.off) (p t : Nat) : R.STEP_STATUS.adr < (trF f p t).off := Nat.lt_add_right _ h

section
variable (p t : Nat) (c : Ctl)

theorem stepView_setF_tr {f : Fld} (h : R.STEP_STATUS.adr < f.off) (x : Nat) : stepView (setF (trF f p t) x c) = stepView c :=
  stepView_setF_above c (trF_above h p t) x

theorem stepView_setReg_tr {f : Fld} (h : R.STEP_STATUS.adr < f.off) (v : Dword) : stepView (setReg (trF f p t).off v c) = stepView c :=
  stepView_setReg_above c (trF_above h p t) v

@[simp] theorem stepView_putTr (x : Treadle) : stepView (putTr p t x c) = stepView c :=
  stepView_setF_tr p t { c with treadles := c.treadles.put (6 * p + t) x } (by decide) _

@[simp] theorem stepView_setTr (f : Treadle → Treadle) : stepView (setTr p t f c) = stepView c := stepView_putTr p t c _

@[simp] theorem stepView_markTrState (k : Nat) : stepView (markTrState p t k c) = stepView c := by
  unfold markTrState
  split
  case h_4 => rfl
  all_goals exact stepView_setF_tr p t c (by decide) _

@[simp] theorem stepView_captureFault (f : TrFault) : stepView (captureFault p t f c) = stepView c := by
  unfold captureFault
  split
  · rfl
  · simp (disch := decide) [stepView_setReg_tr]

@[simp] theorem stepView_faultNow (k reason pick word wgrp : Nat) : stepView (faultNow p t k reason pick word wgrp c) = stepView c := by
  unfold faultNow treadleFault
  dsimp only
  split <;> simp

@[simp] theorem stepView_reachEnd (word : Nat) : stepView (reachEnd p t word c) = stepView c := by
  unfold reachEnd
  dsimp only
  split <;> simp

@[simp] theorem stepView_segCheck : stepView (segCheck p t c) = stepView c := by
  unfold segCheck
  dsimp only
  split
  · rfl
  · split <;> simp

@[simp] theorem stepView_runEmpty : stepView (runEmpty p t c) = stepView c := by
  unfold runEmpty
  dsimp only
  split <;> simp

@[simp] theorem stepView_settle : stepView (settle p t c) = stepView c := by
  unfold settle
  dsimp only
  split
  · split
    · split <;> simp (disch := decide) [stepView_setF_tr]
    · rfl
  · rfl

@[simp] theorem stepView_startSegment : stepView (startSegment p t c) = stepView c := by
  unfold startSegment
  dsimp only
  split
  · exact stepView_putTr p t c _
  · split <;> simp (disch := decide) [stepView_setF_tr]

end

@[simp] theorem stepView_segmentsStart (c : Ctl) : stepView (segmentsStart c) = stepView c := by
  unfold segmentsStart
  split
  · rfl
  · exact stepView_foldl (fun c p => stepView_forN (stepView_startSegment p) 6 c) _ { c with consumed := [] }

@[simp] theorem stepView_openLists (kind : Nat) (c : Ctl) : stepView (openLists kind c) = stepView c := by
  refine stepView_foldl (fun c p => stepView_forN (fun t c => ?_) 6 c) _ c
  simp (disch := decide) [stepView_setF_tr]

/-! ### The vote (R297) -/

section
variable (c : Ctl)

@[simp] theorem stepView_stretchAsk (s : Nat) : stepView (stretchAsk s c) = stepView c := by
  unfold stretchAsk
  dsimp only
  split
  · rw [stepView_setB _ (by decide) (by decide)]
    rfl
  · rfl

@[simp] theorem stepView_voteLatch (p : Option Nat) (id : Nat) (v : BitVec 5) : stepView (voteLatch p id v c) = stepView c := by
  have voted : stepView { c with step := { c.step with hasVote := true } } = stepView c := rfl
  have told (l : List Nat) (o : Ctl → Nat → Out) (c : Ctl) :
      stepView (l.foldl (fun c n => if peerIs c n 2 then sendLowest 2 (o c n) c else c) c) = stepView c :=
    stepView_foldl (fun c n => by split <;> simp) l c
  unfold voteLatch waitDone
  dsimp only
  split <;> split <;> split <;> simp (disch := decide) [told, voted]

@[simp] theorem stepView_voteSend (p : Option Nat) (id : Nat) : stepView (voteSend p id c) = stepView c := by
  have sent (n : Nat) : stepView (setF R.VOTE_STATE.MISSED n { c with step := { c.step with voteSent := true } }) = stepView c :=
    stepView_setF { c with step := { c.step with voteSent := true } } (by decide) (by decide) n
  unfold voteSend
  dsimp only
  split
  · rw [stepView_voteLatch, sent]
  · split
    · split
      · rw [stepView_sendLowest, sent]
      · exact sent _
    · exact sent _

@[simp] theorem stepView_voteOpen : stepView (voteOpen c) = stepView c := by
  unfold voteOpen voteTry
  split
  · split
    · split <;> simp
    · rfl
  · rfl

end

/-! ### The program of the step (R425) -/

theorem stepView_loaded (l : List Nat) (c : Ctl) : stepView { c with progCores := l } = stepView c := rfl

theorem stepView_probLists (f : Nat → Ctl → Tab Nat) (n : Nat) (c : Ctl) :
    stepView (forN n (fun t c => { c with probLists := f t c }) c) = stepView c := by
  refine stepView_forN ?_ n c
  exact fun _ _ => rfl

/-- The list offsets of core p. -/
theorem stepView_seqLists (p : Nat) (f : Nat → Nat → Nat) (c : Ctl) : stepView (forN 6 (fun t c => forN 3 (fun k c =>
    setF (R.SEQ_LIST.OFFSET.at (0x10000 * p + 0x10 * t + 4 * k)) (f t k) c) c) c) = stepView c :=
  stepView_forN (fun t c => stepView_forN (fun k c => stepView_setF_above c (Nat.lt_of_lt_of_le (by decide) (Nat.le_add_right _ _)) _) 3 c) 6 c

@[simp] theorem stepView_loadCore (j : Draft) (e : SeatEnt) (x : CoreProg) (p : Nat) (d : Dev) :
    stepView (loadCore j e x p d).c = stepView d.c := by
  unfold loadCore
  dsimp only
  rw [stepView_loaded, stepView_probLists, stepView_seqLists]

@[simp] theorem stepView_loadParts (j : Draft) (which : CoreProg → Bool) (d : Dev) : stepView (loadParts j which d).c = stepView d.c := by
  unfold loadParts
  split
  · rfl
  · refine stepView_foldlDev (fun d x => ?_) _ d
    split
    · exact stepView_loadCore _ _ x _ d
    · rfl

@[simp] theorem stepView_reloadOpen (s : Nat) (d : Dev) : stepView (reloadOpen s d).c = stepView d.c := by
  unfold reloadOpen
  split
  · split
    · exact (stepView_loadParts _ _ _).trans rfl
    · rfl
  · rfl

end Sys2Proof.Machine
end

section
/-! ## Proofs: what the plan of a boundary comes to

The plan's next step opens with its number and at its first beat, and no plan but a halt's stops the job (R22, R299). -/

namespace Sys2Proof.Machine

/-- Step s is OPEN, in its first beat. -/
def StepBegun (s : Nat) (c : Ctl) : Prop := stepOpen c = true ∧ getF c R.STEP_NOW.STEP = s ∧ c.step.opened = true ∧ c.step.beat = 0

theorem StepBegun.of_view {s : Nat} {c t : Ctl} (h : StepBegun s c) (hv : stepView t = stepView c) : StepBegun s t := by
  obtain ⟨hopen, hnow, hopened, hbeat⟩ := h
  simp only [stepView, Prod.mk.injEq] at hv
  obtain ⟨vopened, vbeat, vnow, vopen⟩ := hv
  refine ⟨vopen.trans hopen, ?_, vopened.trans hopened, vbeat.trans hbeat⟩
  rw [← hnow]
  exact congrArg (fldGet · R.STEP_NOW.STEP) vnow

/-- The words that the boundary sets as a step opens. -/
theorem stepBegun_words {s : Nat} (hs : s < 2 ^ 64) {c : Ctl} (ho : c.step.opened = true) (hb : c.step.beat = 0) (ck : Bool) :
    StepBegun s (setF R.STEP_NOW.STEP s (setB R.STEP_STATUS.OPEN true (setB R.STEP_STATUS.CKFAIL ck c))) := by
  refine ⟨?opened, ?number, ho, hb⟩
  case opened =>
    have kept := getF_setF_off (f := R.STEP_NOW.STEP) (g := R.STEP_STATUS.OPEN) s
      (setB R.STEP_STATUS.OPEN true (setB R.STEP_STATUS.CKFAIL ck c)) (by decide)
    have set := getB_setB_true (f := R.STEP_STATUS.OPEN) (setB R.STEP_STATUS.CKFAIL ck c) (by decide) (by decide)
    rw [stepOpen, getB, kept]
    exact set
  case number =>
    rw [getF_setF_same _ _ _ (by decide)]
    exact Nat.mod_eq_of_lt hs

@[simp] theorem stepView_commit (b : Bool) (c : Ctl) : stepView (setB R.STEP_STATUS.COMMIT b c) = stepView c :=
  stepView_statusBit c rfl (by decide) b

theorem stepBegun_stepRegs {s : Nat} (hs : s < 2 ^ 64) (c : Ctl) : StepBegun s (stepRegs s c) := by
  have rest {t : Ctl} (h : StepBegun s t) (commit meas : Bool) (f : CollSt → CollSt) : StepBegun s (onColl f (setB R.GOV_STATUS.MEASURING meas
      (setB R.VOTE_STATE.VOTE_VALID false (setF R.VOTE_STATE.MISSED 0 (setB R.STEP_STATUS.COMMIT commit t))))) :=
    h.of_view (by simp (disch := decide))
  unfold stepRegs
  dsimp only
  split
  · exact (rest (stepBegun_words hs rfl rfl _) _ _ _).of_view (stepView_enterFailed _)
  · exact rest (stepBegun_words hs rfl rfl _) _ _ _

@[simp] theorem stepView_stageDue (t : Nat) (c : Ctl) : stepView (stageDue t c) = stepView c := by
  unfold stageDue
  split
  · exact (stepView_setB _ (by decide) (by decide) true).trans rfl
  · rfl

/-- A branch that leaves the view as the other does. -/
theorem stepView_ite {p : Prop} [Decidable p] {x y : Dev} (h : stepView x.c = stepView y.c) : stepView (if p then x else y).c = stepView y.c := by
  split
  · exact h
  · rfl

theorem stepView_voted (vote : Bool) (c : Ctl) : stepView (onStep (fun t => { t with hasVote := vote }) c) = stepView c := rfl

theorem stepBegun_openStep {s : Nat} (hs : s < 2 ^ 64) (d : Dev) : StepBegun s (openStep s d).c := by
  refine (stepBegun_stepRegs hs (fanStep (underateStep d.c))).of_view ?_
  unfold openStep
  dsimp only
  rw [stepView_ite (by simp), stepView_ite (by simp), stepView_ite (by simp (disch := decide))]
  simp [stepView_voted]

theorem stepBegun_beginStep {s : Nat} (hs : s < 2 ^ 64) (d : Dev) : StepBegun s (beginStep s d).c := by
  unfold beginStep
  exact (stepBegun_openStep hs d).of_view (by simp)

/-! ### The halt (R299) -/

/-- A treadle's words lie above those of the job. -/
theorem getReg_putTr {off : Nat} (h : off < 0x1000000) (p t : Nat) (x : Treadle) (c : Ctl) : getReg (putTr p t x c) off = getReg c off :=
  getReg_setReg_ne _ { c with treadles := c.treadles.put (6 * p + t) x }
    (Nat.ne_of_lt (Nat.lt_of_lt_of_le h (Nat.le_trans (by decide) (Nat.le_add_right R.TR_STATE.STATE.off _))))

theorem getReg_idleTreadles {off : Nat} (h : off < 0x1000000) (c : Ctl) : getReg (idleTreadles c) off = getReg c off := by
  refine foldl_keeps (fun t => getReg t off = getReg c off) _ (fun b p hb => ?_) rfl
  refine forN_keeps (fun t => getReg t off = getReg c off) 6 (fun t b hb => ?_) hb
  split
  · exact (getReg_putTr h p t _ b).trans hb
  · exact hb

theorem getF_idleTreadles {f : Fld} (h : f.off < 0x1000000) (c : Ctl) : getF (idleTreadles c) f = getF c f :=
  congrArg (fldGet · f) (getReg_idleTreadles h c)

theorem getF_setRecState (n : Nat) (hn : n < 4) (c : Ctl) : getF (setRecState n c) R.REC_STATE.STATE = n := by
  unfold setRecState
  split
  · assumption
  · rw [(cause_notice 13 _).getF _ (by decide), getF_setF_same _ _ _ (by decide)]
    exact Nat.mod_eq_of_lt hn

theorem haltJob_halts (f : Option Nat) (c : Ctl) : getF (haltJob f c) R.REC_STATE.STATE = 3 ∧ getB (haltJob f c) R.VOTE_STATE.HALTED = true := by
  unfold haltJob
  dsimp only
  constructor
  · rw [getF_idleTreadles (by decide), getF_onRet, setB, getF_setF_off _ _ (by decide), satF, getF_setF_off _ _ (by decide)]
    exact getF_setRecState recHalted (by decide) _
  · rw [getB, getF_idleTreadles (by decide), getF_onRet]
    exact getB_setB_true _ (by decide) (by decide)

/-- The plans of a boundary (R22, R299). -/
theorem runPlan_plans (d : Dev) (n : Nat) (f : Option Nat) (hn : n < 2 ^ 64) :
    (let t := runPlan (.next n) d
     stepOpen t.c = true ∧ getF t.c R.STEP_NOW.STEP = n ∧ t.c.step.opened = true ∧ t.c.step.beat = 0) ∧
    (stepOpen d.c = false → runPlan .stay d = d) ∧
    (let t := runPlan (.halt f) d
     getF t.c R.REC_STATE.STATE = 3 ∧ getB t.c R.VOTE_STATE.HALTED = true ∧ t.m = d.m) := by
  refine ⟨stepBegun_beginStep hn d, fun closed => ?stay, ?halt⟩
  case stay =>
    show nextBeat d = d
    unfold nextBeat
    rw [closed]
    rfl
  case halt =>
    have ran : runPlan (.halt f) d = onCtl (haltJob f) d := rfl
    obtain ⟨state, halted⟩ := haltJob_halts f d.c
    rw [ran]
    dsimp only [onCtl_c, onCtl_store]
    exact ⟨state, halted, rfl⟩

end Sys2Proof.Machine
end

section
/-! ## Proofs: the end of a commit beat

A step that is sealed or abandoned (R22, R297) closes its record, settles its measurement and its treadles and may end a replay. Of the words
of its end all this changes only those that say so: `endView` shows the words that the rest leaves alone. -/

namespace Sys2Proof.Machine

/-- The words that tell of a step's end: STEP_SEALED, STEP_STATUS, VOTE_STATE and VOTE_COUNTS. -/
def endWords : List Nat := [R.STEP_SEALED.adr, R.STEP_STATUS.adr, R.VOTE_STATE.adr, R.VOTE_COUNTS.adr]

/-- The job and the words that tell of a step's end. -/
def endView (c : Ctl) : Option Draft × List Dword := (c.job, endWords.map (getReg c))

theorem endView_of_words {c t : Ctl} (hj : t.job = c.job) (h : ∀ o ∈ endWords, getReg t o = getReg c o) : endView t = endView c := by
  rw [endView, endView, hj, List.map_congr_left h]

theorem endView_notice {c t : Ctl} (h : NoticeOnly c t) : endView t = endView c := by
  have apart : ∀ o ∈ endWords, o ∉ noticeWords := by decide
  refine endView_of_words ?_ (fun o ho => h.2 o (apart o ho))
  rw [h.1]

section
variable {c t : Ctl} (h : endView t = endView c)
include h

theorem job_of_endView : t.job = c.job := congrArg Prod.fst h

theorem getReg_of_endView {o : Nat} (ho : o ∈ endWords) : getReg t o = getReg c o :=
  List.map_inj_left.mp (congrArg Prod.snd h) o ho

theorem getF_of_endView {f : Fld} (hf : f.off ∈ endWords) : getF t f = getF c f := congrArg (fldGet · f) (getReg_of_endView h hf)

end

section
variable (c : Ctl)

@[simp] theorem endView_setReg {o : Nat} (h : o ∉ endWords) (v : Dword) : endView (setReg o v c) = endView c :=
  endView_of_words rfl fun _ ho => getReg_setReg_ne v c fun he => h (he ▸ ho)

@[simp] theorem endView_setF {f : Fld} (h : f.off ∉ endWords) (x : Nat) : endView (setF f x c) = endView c := endView_setReg c h _

@[simp] theorem endView_setB {f : Fld} (h : f.off ∉ endWords) (b : Bool) : endView (setB f b c) = endView c := endView_setReg c h _

@[simp] theorem endView_satF {f : Fld} (h : f.off ∉ endWords) (k : Nat) : endView (satF f k c) = endView c := endView_setReg c h _

@[simp] theorem endView_cause (v : Nat) : endView (cause v c) = endView c := endView_notice (cause_notice v c)

@[simp] theorem endView_raise (cls sub src detail : Nat) : endView (raise cls sub src detail c) = endView c :=
  endView_notice (raise_notice cls sub src detail c)

@[simp] theorem endView_raiseAt (b s cls sub src detail : Nat) : endView (raiseAt b s cls sub src detail c) = endView c :=
  endView_notice (raiseAt_notice b s cls sub src detail c)

@[simp] theorem endView_onStep (f : StepSt → StepSt) : endView (onStep f c) = endView c := rfl

@[simp] theorem endView_onFan (f : FanSt → FanSt) : endView (onFan f c) = endView c := rfl

@[simp] theorem endView_onColl (f : CollSt → CollSt) : endView (onColl f c) = endView c := rfl

/-- A branch that leaves the view as the other does. -/
theorem endView_ite {p : Prop} [Decidable p] {x y : Ctl} (h : endView x = endView y) : endView (if p then x else y) = endView y := by
  split
  · exact h
  · rfl

theorem endView_foldl {α : Type} {f : Ctl → α → Ctl} (hf : ∀ c a, endView (f c a) = endView c) (l : List α) (c : Ctl) :
    endView (l.foldl f c) = endView c :=
  foldl_keeps (fun t => endView t = endView c) l (fun b a h => (hf b a).trans h) rfl

/-! ### The record, the governor's sums, the treadles -/

@[simp] theorem endView_carryStop : endView (carryStop c) = endView c := by
  unfold carryStop
  split <;> rfl

@[simp] theorem endView_closeRecord (abandoned : Bool) : endView (closeRecord abandoned c) = endView c := by
  unfold closeRecord
  dsimp only
  split <;> simp (disch := decide)

@[simp] theorem endView_govAbandon : endView (govAbandon c) = endView c := (endView_setB _ (by decide) false).trans rfl

theorem endView_raiseTh (l : List ThEvent) : endView (raiseTh l c) = endView c := by
  have told (l : List ThEvent) (c : Ctl) : endView (l.foldl (fun c e => govEvent e.1 e.2.1 e.2.2 c) c) = endView c :=
    endView_foldl (fun c e => endView_raise c _ _ _ _) l c
  unfold raiseTh
  dsimp only
  split
  · exact (endView_raise _ _ _ _ _).trans (told _ c)
  · exact told _ c

@[simp] theorem endView_govSeal (k : SealKind) : endView (govSeal k c) = endView c := by
  have missing (l : Tab TRec) (c : Ctl) : endView (l.foldl (fun c e => if sharedMissing k e.2 then govEvent 5 e.1 e.2.amax c else c) c) = endView c :=
    endView_foldl (fun c e => by
      split
      · exact endView_raise c _ _ _ _
      · rfl) l c
  unfold govSeal
  dsimp only
  rw [endView_setB _ (by decide)]
  exact (endView_raiseTh _ _).trans (missing _ c)

@[simp] theorem endView_checkStep : endView (checkStep c) = endView c := by
  unfold checkStep
  dsimp only
  split
  · exact (endView_setF _ (by decide) _).trans rfl
  · rfl

theorem job_putTr (p t : Nat) (x : Treadle) : (putTr p t x c).job = c.job := rfl

@[simp] theorem endView_idleTreadles : endView (idleTreadles c) = endView c := by
  have low : ∀ o ∈ endWords, o < 0x1000000 := by decide
  refine endView_foldl (fun c p => ?_) _ c
  refine endView_foldl (fun c t => ?_) _ c
  dsimp only
  split
  · exact endView_of_words (job_putTr c p t _) fun o ho => getReg_putTr (low o ho) p t _ c
  · rfl

/-! ### Findings and the end of a replay (R334, R336, R384) -/

@[simp] theorem endView_fanDecay : endView (fanDecay c) = endView c := (endView_onFan _ _).trans (endView_setF c (by decide) _)

@[simp] theorem endView_markDue (k : Nat) : endView (markDue k c) = endView c := by
  unfold markDue
  dsimp only
  split <;> split <;> rfl

@[simp] theorem endView_onUnit (k : Nat) (f : FUnit → FUnit) : endView (onUnit k f c) = endView c := rfl

@[simp] theorem endView_finding (kind points src : Nat) (unit : Option Nat) : endView (finding kind points src unit c) = endView c := by
  unfold finding
  dsimp only
  split <;> split <;> simp (disch := decide)

@[simp] theorem endView_chargeHardware (k src : Nat) (injected : Bool) : endView (chargeHardware k src injected c) = endView c := by
  unfold chargeHardware
  dsimp only
  split
  · exact endView_finding c _ _ _ _
  · split
    · exact endView_finding c _ _ _ _
    · split
      · exact endView_finding c _ _ _ _
      · rfl

@[simp] theorem endView_classHardware (s : Nat) : endView (classHardware s c) = endView c := by
  unfold classHardware
  dsimp only
  split
  · rfl
  · simp (disch := decide)

@[simp] theorem endView_setRecState (n : Nat) : endView (setRecState n c) = endView c := by
  unfold setRecState
  split <;> simp (disch := decide)

@[simp] theorem endView_setAttempt (n : Nat) : endView (setAttempt n c) = endView c := by
  unfold setAttempt
  split <;> simp (disch := decide)

@[simp] theorem endView_replayEnd (s : Nat) : endView (replayEnd s c) = endView c := by
  unfold replayEnd
  dsimp only
  split
  · split <;> simp (disch := decide)
  · rfl

end

/-! ### No step is OPEN (R22, R297) -/

/-- No step is OPEN, its beat is no commit beat and no vote is latched. -/
def StepOver (c : Ctl) : Prop := stepOpen c = false ∧ getB c R.STEP_STATUS.COMMIT = false ∧ getB c R.VOTE_STATE.VOTE_VALID = false

theorem StepOver.of_view {c t : Ctl} (h : StepOver c) (hv : endView t = endView c) : StepOver t := by
  obtain ⟨hopen, hcommit, hvalid⟩ := h
  refine ⟨?_, ?_, ?_⟩
  · rw [stepOpen, getB, getF_of_endView hv (by decide)]; exact hopen
  · rw [getB, getF_of_endView hv (by decide)]; exact hcommit
  · rw [getB, getF_of_endView hv (by decide)]; exact hvalid

/-- A bit of STEP_STATUS after another of its bits was cleared. -/
theorem getB_clearStatus {f g : Fld} (c : Ctl) (hf : f.off = R.STEP_STATUS.adr) (hg : g.off = R.STEP_STATUS.adr) (hw : g.lo + g.w ≤ 64)
    (h : f.lo + f.w ≤ g.lo ∨ g.lo + g.w ≤ f.lo) : getB (setB f false c) g = getB c g :=
  getB_setB_bits false c (hg.trans hf.symm) hw h

theorem stepOver_stepGone (c : Ctl) : StepOver (stepGone c) := by
  have status {f : Fld} (hf : f.off = R.STEP_STATUS.adr) : getB (stepGone c) f =
      getB (setB R.STEP_STATUS.CKFAIL false (setB R.STEP_STATUS.COMMIT false (setB R.STEP_STATUS.OPEN false c))) f :=
    (getB_setB_off _ _ (by rw [hf]; decide)).trans (getB_setB_off _ _ (by rw [hf]; decide))
  refine ⟨?gone, ?beat, getB_setB_false (by decide) _⟩
  case gone =>
    exact (status rfl).trans ((getB_clearStatus _ rfl rfl (by decide) (by decide)).trans
      ((getB_clearStatus _ rfl rfl (by decide) (by decide)).trans (getB_setB_false (by decide) c)))
  case beat =>
    exact (status rfl).trans ((getB_clearStatus _ rfl rfl (by decide) (by decide)).trans (getB_setB_false (by decide) _))

theorem getF_stepGone {f : Fld} (hs : f.off ≠ R.STEP_STATUS.adr) (hg : f.off ≠ R.GOV_STATUS.adr) (hv : f.off ≠ R.VOTE_STATE.adr) (c : Ctl) :
    getF (stepGone c) f = getF c f := by
  unfold stepGone setB
  rw [getF_setF_off _ _ hv, getF_setF_off _ _ hg, getF_setF_off _ _ hs, getF_setF_off _ _ hs, getF_setF_off _ _ hs]

theorem lastOpened_of_job {c t : Ctl} (h : t.job = c.job) : lastOpened t = lastOpened c := by
  rw [lastOpened, lastOpened, h]

theorem planAfter_of_job {c t : Ctl} (h : t.job = c.job) (s : Nat) : planAfter t s = if s < lastOpened c then .next (s + 1) else .stay := by
  rw [planAfter, lastOpened_of_job h]

/-! ### An abandoned step (R22, R297) -/

/-- The record and the governor's sums of a step that is abandoned, before it goes. -/
def stepDropped (c : Ctl) : Ctl := govAbandon (closeRecord true (carryStop c))

theorem endView_stepDropped (c : Ctl) : endView (stepDropped c) = endView c := by simp [stepDropped]

theorem endView_abandonStep (c : Ctl) : endView (abandonStep c) = endView (stepGone (stepDropped c)) := by
  unfold abandonStep
  rw [endView_cause, endView_idleTreadles, endView_onColl, stepDropped]

theorem stepOver_abandonStep (c : Ctl) : StepOver (abandonStep c) := (stepOver_stepGone (stepDropped c)).of_view (endView_abandonStep c)

theorem job_stepGone (c : Ctl) : (stepGone c).job = c.job := by simp [stepGone]

theorem job_abandonStep (c : Ctl) : (abandonStep c).job = c.job :=
  (job_of_endView (endView_abandonStep c)).trans ((job_stepGone (stepDropped c)).trans (job_of_endView (endView_stepDropped c)))

theorem sealed_abandonStep (c : Ctl) : getF (abandonStep c) R.STEP_SEALED.STEP = getF c R.STEP_SEALED.STEP :=
  calc getF (abandonStep c) R.STEP_SEALED.STEP
      = getF (stepGone (stepDropped c)) R.STEP_SEALED.STEP := getF_of_endView (endView_abandonStep c) (by decide)
    _ = getF (stepDropped c) R.STEP_SEALED.STEP := getF_stepGone (by decide) (by decide) (by decide) (stepDropped c)
    _ = getF c R.STEP_SEALED.STEP := getF_of_endView (endView_stepDropped c) (by decide)

/-! ### A sealed step (R22, R337, R385) -/

/-- What a seal has measured and checked, before the step is counted. -/
def stepMeasured (s : Nat) (skipped : Bool) (c : Ctl) : Ctl :=
  let meas := c.step.kind == 1
  let k : SealKind := if skipped then .skipped else if meas then .measured else .clean
  let c := checkStep (govSeal k c)
  let c := if !meas && c.step.prevMeas then setF R.GOV_STATUS.MEAS_LEFT (getF c R.GOV_STATUS.MEAS_LEFT - 1) c else c
  onStep (fun t => { t with prevMeas := meas, hasSealed := true, marks := Tab.put t.marks s (getF c R.GOV_STATUS.MEAS_LEFT, meas) }) c

/-- The sealed step counted, if it was skipped, and named as sealed. -/
def stepNamed (s : Nat) (skipped : Bool) (c : Ctl) : Ctl :=
  let c := stepMeasured s skipped c
  setF R.STEP_SEALED.STEP s (if skipped then satF R.VOTE_COUNTS.SKIPS 1 c else c)

theorem endView_stepMeasured (s : Nat) (skipped : Bool) (c : Ctl) : endView (stepMeasured s skipped c) = endView c := by
  unfold stepMeasured
  dsimp only
  rw [endView_onStep, endView_ite (endView_setF _ (by decide) _), endView_checkStep, endView_govSeal]

theorem endView_sealStep (s : Nat) (skipped : Bool) (c : Ctl) :
    endView (sealStep s skipped c) = endView (stepGone (closeRecord false (cause 11 (stepNamed s skipped c)))) := by
  have named : stepNamed s skipped c = setF R.STEP_SEALED.STEP s
      (if skipped then satF R.VOTE_COUNTS.SKIPS 1 (stepMeasured s skipped c) else stepMeasured s skipped c) := rfl
  unfold sealStep
  dsimp only
  rw [endView_replayEnd, endView_carryStop, endView_ite (endView_setAttempt _ _), endView_ite (by simp (disch := decide)), endView_fanDecay, named]
  unfold stepMeasured
  dsimp only

theorem stepOver_sealStep (s : Nat) (skipped : Bool) (c : Ctl) : StepOver (sealStep s skipped c) :=
  (stepOver_stepGone _).of_view (endView_sealStep s skipped c)

/-- STEP_SEALED and VOTE_COUNTS stay as the seal has named and counted them. -/
theorem getF_sealStep {f : Fld} (hf : f.off ∈ endWords) (hs : f.off ≠ R.STEP_STATUS.adr) (hv : f.off ≠ R.VOTE_STATE.adr) (s : Nat) (skipped : Bool)
    (c : Ctl) : getF (sealStep s skipped c) f = getF (stepNamed s skipped c) f := by
  have gov : ∀ o ∈ endWords, o ≠ R.GOV_STATUS.adr := by decide
  rw [getF_of_endView (endView_sealStep s skipped c) hf, getF_stepGone hs (gov _ hf) hv]
  exact getF_of_endView ((endView_closeRecord _ false).trans (endView_cause _ 11)) hf

theorem job_sealStep (s : Nat) (skipped : Bool) (c : Ctl) : (sealStep s skipped c).job = c.job := by
  have named : (stepNamed s skipped c).job = (stepMeasured s skipped c).job := by
    unfold stepNamed
    dsimp only
    split <;> rfl
  calc (sealStep s skipped c).job
      = (stepGone (closeRecord false (cause 11 (stepNamed s skipped c)))).job := job_of_endView (endView_sealStep s skipped c)
    _ = (closeRecord false (cause 11 (stepNamed s skipped c))).job := job_stepGone _
    _ = (stepNamed s skipped c).job := job_of_endView ((endView_closeRecord _ false).trans (endView_cause _ 11))
    _ = c.job := named.trans (job_of_endView (endView_stepMeasured s skipped c))

theorem sealed_sealStep {s : Nat} (hs : s < 2 ^ 64) (skipped : Bool) (c : Ctl) : getF (sealStep s skipped c) R.STEP_SEALED.STEP = s := by
  rw [getF_sealStep (by decide) (by decide) (by decide), stepNamed, getF_setF_same _ _ _ (by decide)]
  exact Nat.mod_eq_of_lt hs

theorem skips_sealStep (s : Nat) (skipped : Bool) (c : Ctl) : getF (sealStep s skipped c) R.VOTE_COUNTS.SKIPS =
    getF (if skipped then satF R.VOTE_COUNTS.SKIPS 1 (stepMeasured s skipped c) else stepMeasured s skipped c) R.VOTE_COUNTS.SKIPS := by
  rw [getF_sealStep (by decide) (by decide) (by decide), stepNamed]
  exact getF_setF_off _ _ (by decide)

theorem skips_sealStep_clean (s : Nat) (c : Ctl) : getF (sealStep s false c) R.VOTE_COUNTS.SKIPS = getF c R.VOTE_COUNTS.SKIPS :=
  (skips_sealStep s false c).trans (getF_of_endView (endView_stepMeasured s false c) (by decide))

theorem skips_sealStep_skipped (s : Nat) {c : Ctl} (h : getF c R.VOTE_COUNTS.SKIPS < 0xFFFFFFFF) :
    getF (sealStep s true c) R.VOTE_COUNTS.SKIPS = getF c R.VOTE_COUNTS.SKIPS + 1 := by
  have before : getF (stepMeasured s true c) R.VOTE_COUNTS.SKIPS = getF c R.VOTE_COUNTS.SKIPS :=
    getF_of_endView (endView_stepMeasured s true c) (by decide)
  have width : R.VOTE_COUNTS.SKIPS.w = 32 := rfl
  rw [skips_sealStep, if_pos rfl, satF, getF_setF_same _ _ _ (by decide), before, width]
  omega

/-! ### The three ends of a beat (R22, R23, R297) -/

/-- Whether the step's vote is latched. -/
def voteLatched (c : Ctl) : Bool := c.step.hasVote && getB c R.VOTE_STATE.VOTE_VALID

/-- The step abandoned, a vote that did not come counted. -/
def abandonCounted (c : Ctl) : Ctl := abandonStep (if c.step.hasVote && !voteLatched c then satF R.VOTE_COUNTS.VOTE_FAIL 1 c else c)

theorem job_abandonCounted (c : Ctl) : (abandonCounted c).job = c.job := by
  unfold abandonCounted
  rw [job_abandonStep]
  split <;> rfl

theorem sealed_abandonCounted (c : Ctl) : getF (abandonCounted c) R.STEP_SEALED.STEP = getF c R.STEP_SEALED.STEP := by
  unfold abandonCounted
  rw [sealed_abandonStep]
  split
  · exact getF_setF_off _ _ (by decide)
  · rfl

section
variable (fault missed : Bool) {c : Ctl}

theorem endStep_of_inner (h : commitBeat c = false) : endStep fault missed c = ⟨c, .stay, none⟩ := by
  simp [endStep, h]

theorem endStep_of_sealed (h : commitBeat c = true) (ha : voteAbandons (decidingVote c) = false) :
    endStep false false c = ⟨sealStep (getF c R.STEP_NOW.STEP) ((decidingVote c).getLsbD trNonfin) c,
      planAfter (sealStep (getF c R.STEP_NOW.STEP) ((decidingVote c).getLsbD trNonfin) c) (getF c R.STEP_NOW.STEP), some (getF c R.STEP_NOW.STEP)⟩ := by
  simp [endStep, h, ha]

/-- What an abandoned step leaves, by the vote and by TIME_DOWN. -/
theorem endStep_of_abandoned (h : commitBeat c = true) (ha : fault = true ∨ missed = true ∨ voteAbandons (decidingVote c) = true) :
    endStep fault missed c =
      if voteLatched c && voteHalts (decidingVote c) then ⟨abandonCounted c, .halt (some (getF c R.STEP_NOW.STEP)), none⟩
      else if missed && !(voteLatched c && voteAbandons (decidingVote c)) then
        ⟨onStep (fun t => { t with ckNext := true }) (abandonCounted c), planAfter (abandonCounted c) (getF c R.STEP_NOW.STEP), none⟩
      else ⟨abandonCounted c, .recover (getF c R.STEP_NOW.STEP), none⟩ := by
  have ends : (fault || missed || voteAbandons (decidingVote c)) = true := by
    rcases ha with ha | ha | ha <;> simp [ha]
  unfold endStep
  dsimp only
  rw [h, ends]
  rfl

end

theorem not_voteHalts {v : BitVec 5} (h : voteAbandons v = false) : voteHalts v = false := by
  unfold voteAbandons at h
  unfold voteHalts
  simp_all

end Sys2Proof.Machine
end

section
/-! ## Proofs: the new beat, local boundaries and the guard

The words of the new beat (R17, R31), and each command of the boundary and the guard as the function of the device that it is (R19, R257, R456). -/

namespace Sys2Proof.Machine

/-! ### The new beat -/

theorem nextValid_latchBeat (x : Combined) (stretch : Nat) (c : Ctl) : getB (latchBeat x stretch c) R.BEAT_STRETCH.NEXT_VALID = false := by
  have cleared : getF (latchBeat x stretch c) R.BEAT_STRETCH.NEXT_VALID = 0 :=
    calc getF (latchBeat x stretch c) R.BEAT_STRETCH.NEXT_VALID
        = getF (setF R.BEAT_NOW.BEAT x.next (setF R.BEAT_STRETCH.CUR stretch (setB R.BEAT_STRETCH.NEXT_VALID false c))) R.BEAT_STRETCH.NEXT_VALID :=
          getF_setF_off _ _ (by decide)
      _ = getF (setF R.BEAT_STRETCH.CUR stretch (setB R.BEAT_STRETCH.NEXT_VALID false c)) R.BEAT_STRETCH.NEXT_VALID := getF_setF_off _ _ (by decide)
      _ = getF (setB R.BEAT_STRETCH.NEXT_VALID false c) R.BEAT_STRETCH.NEXT_VALID := getF_setF_bits _ _ rfl (by decide) (by decide)
      _ = 0 := getF_setF_same _ _ _ (by decide)
  rw [getB, cleared]
  rfl

theorem latchBeat_words (x : Combined) (stretch : Nat) (c : Ctl) (hx : x.next < 2 ^ 64) (hs : stretch ≤ 16) :
    let t := latchBeat x stretch c
    getF t R.BEAT_NOW.BEAT = x.next ∧ getF t R.BEAT_STRETCH.CUR = stretch ∧ getB t R.BEAT_STRETCH.NEXT_VALID = false ∧ getB t R.BEAT_STATUS.RUNNING = true ∧
      t.time.inGuard = false ∧ t.time.joined = false ∧ t.step = c.step ∧
      (∀ off, off ≠ R.BEAT_NOW.adr → off ≠ R.BEAT_STRETCH.adr → off ≠ R.BEAT_STATUS.adr → getReg t off = getReg c off) := by
  refine ⟨?next, ?cur, nextValid_latchBeat x stretch c, ?running, rfl, rfl, rfl, fun off hn hb hr => ?rest⟩
  case next => exact (getF_setF_off _ _ (by decide)).trans ((getF_setF_same _ _ _ (by decide)).trans (Nat.mod_eq_of_lt hx))
  case cur =>
    have small : stretch < 2 ^ R.BEAT_STRETCH.CUR.w := Nat.lt_of_le_of_lt hs (by decide)
    exact (getF_setF_off _ _ (by decide)).trans ((getF_setF_off _ _ (by decide)).trans ((getF_setF_same _ _ _ (by decide)).trans (Nat.mod_eq_of_lt small)))
  case running => exact getB_setB_true _ (by decide) (by decide)
  case rest => exact (getReg_setReg_ne _ _ hr).trans ((getReg_setReg_ne _ _ hn).trans ((getReg_setReg_ne _ _ hb).trans (getReg_setReg_ne _ _ hb)))

/-! ### The boundary of a running device (R19) -/

section
variable {s : State} (hr : running s.dev.c = true)
include hr

theorem exec_beatBoundary (r : Readings) : exec (.beatBoundary r) s = .next (s.withDev (beatBoundary r s.dev)) := runDev_of_eq hr rfl

theorem exec_localBeatBoundary : exec .localBeatBoundary s = .next (s.withDev (localBoundary s.dev)) := runDev_of_eq hr rfl

theorem exec_guardStart (cycle : Nat) : exec (.guardStart cycle) s = .next (s.withDev (guardStart cycle s.dev)) := runDev_of_eq hr rfl

theorem exec_jitteredSegmentStart : exec .jitteredSegmentStart s = .next (s.withCtl (jitterEnd s.dev.c)) := runCtl_of_eq hr rfl

end

theorem exec_overtempOff (s : State) : exec .overtempOff s = .next (s.withDev (overheat s.dev)) := rfl

/-- Whether a boundary comes: after the guard of a running device, or where one waits to join. -/
def boundaryDue (c : Ctl) : Bool := if getB c R.BEAT_STATUS.RUNNING then c.time.inGuard else c.time.joined

section
variable {r : Readings} {d : Dev} (ht : timeOn d.c = true)
include ht

theorem beatBoundary_of_due (hd : boundaryDue d.c = true) (hh : tooHot r = false) : beatBoundary r d = runBoundary r d := by
  rw [boundaryDue] at hd
  simp [beatBoundary, ht, hd, hh]

theorem beatBoundary_of_hot (hd : boundaryDue d.c = true) (hh : tooHot r = true) : beatBoundary r d = overheat d := by
  rw [boundaryDue] at hd
  simp [beatBoundary, ht, hd, hh]

theorem beatBoundary_of_early (hd : boundaryDue d.c = false) : beatBoundary r d = d := by
  rw [boundaryDue] at hd
  simp [beatBoundary, ht, hd]

end

theorem onCtl_const (c : Ctl) (f : Ctl → Ctl) (d : Dev) : onCtl (fun _ => c) (onCtl f d) = { d with c := c } := rfl

theorem onCtl_eq (f : Ctl → Ctl) (d : Dev) : onCtl f d = { d with c := f d.c } := rfl

/-- The end of a boundary in its order (R19). -/
theorem boundaryFinish_eq (unaligned : Bool) (step : Nat) (r : Readings) (x : Combined) (stretch : Nat) (sealed : Option Nat) (o : Dev × Plan) :
    boundaryFinish unaligned step r x stretch sealed o =
      (let d4 := changeBoundary sealed o.1
       let d5 : Dev := { d4 with c := jitterBoundary (latchBeat x stretch d4.c) }
       onCtl gatherEnd (runPlan o.2 (measureBoundary unaligned (getF o.1.c R.BEAT_NOW.BEAT) step r d5))) := by
  unfold boundaryFinish
  generalize changeBoundary sealed o.1 = d4
  dsimp only
  rw [onCtl_eq _ d4]

/-- The boundary in its order, to the roster's settlement (R19). -/
theorem runBoundary_eq (r : Readings) (d : Dev) : runBoundary r d =
    (let d1 := boundaryStart d
    let x := boundaryValues d1.c
    let stretch := if noDown d.c then 0 else max x.stretch (recordedNext d1)
    let d2 := firstBeatEnd d1
    let k := endStep x.fault (noDown d.c) (moveRollback x.snap d2.c)
    let d3 := heldReadsServe { d2 with c := moveRollback x.snap k.c }
    let o := rosterBoundary x.lost k.plan { d3 with c := { d3.c with place := { d3.c.place with prevVer := none } } }
    boundaryFinish (getB d1.c R.BEAT_STATUS.RUNNING && !getB d1.c R.BEAT_STATUS.ALIGNED) (getF d.c R.STEP_NOW.STEP) r x stretch k.sealed o) := by
  unfold runBoundary
  dsimp only
  generalize boundaryStart d = d1
  generalize firstBeatEnd d1 = d2
  rw [onCtl_c, onCtl_const]
  generalize endStep _ _ _ = k
  generalize heldReadsServe _ = d3
  rw [onCtl_eq _ d3]
/-! ### Local boundaries and the guard (R257, R456, R468) -/

theorem localBoundary_of_local {d : Dev} (ht : timeOn d.c = true) (hr : getB d.c R.BEAT_STATUS.RUNNING = false) (hj : d.c.time.joined = false) :
    localBoundary d = onCtl (fun c => gatherEnd (rootJoin (stagedChanges c))) (deadlines (onCtl (fun c => fanCfgTake (tick (gatherStart c))) d)) := by
  simp [localBoundary, ht, hr, hj]

theorem localBoundary_of_job {d : Dev} (h : timeOn d.c = false ∨ getB d.c R.BEAT_STATUS.RUNNING = true ∨ d.c.time.joined = true) :
    localBoundary d = d := by
  rcases h with h | h | h <;> simp [localBoundary, h]

/-- The root, unless its time has stopped, begins job beat 0. -/
theorem rootJoin_eq (c : Ctl) : rootJoin c = if isRoot c = true ∧ c.time.stopped = false then
    setB R.BEAT_STATUS.ALIGNED true (setF R.BEAT_STATUS.OFFSET_NS 0 (setB R.BEAT_STATUS.RUNNING true (setF R.BEAT_NOW.BEAT 0 (setF R.BEAT_STRETCH.CUR 0
      (onTime (fun t => { t with inGuard := false }) (jitterBoundary c)))))) else c := by
  unfold rootJoin
  simp only [Bool.and_eq_true, Bool.not_eq_true']

theorem guardStart_of_beat {cycle : Nat} {d : Dev} (hb : beatsRun d.c = true) (hg : d.c.time.inGuard = false) :
    guardStart cycle d = onCtl (fun c => gatherEnd (moveGuard (if stepOpen c && commitBeat c then fileLate (digestLate c) else c)))
      (sampleGuard (guardStops cycle (onCtl kapGuard (onCtl (fun c => onTime (fun t =>
        { t with inGuard := true, sentAt := none, sent := false, mine := none, comb := none, gotDown := false, sentDown := [], ups := [],
                 ask := max t.ask (hostStretch c) }) (gatherStart c)) d)))) := by
  unfold guardStart
  rw [hb, hg]
  rfl

theorem guardStart_of_guard {cycle : Nat} {d : Dev} (h : beatsRun d.c = false ∨ d.c.time.inGuard = true) : guardStart cycle d = d := by
  rcases h with h | h <;> simp [guardStart, h]

theorem jitterEnd_of_jitter {c : Ctl} (hj : c.jitter = true) (hg : c.time.inGuard = false) : jitterEnd c = segmentsStart { c with jitter := false } := by
  simp [jitterEnd, hj, hg]

theorem jitterEnd_of_none {c : Ctl} (h : c.jitter = false ∨ c.time.inGuard = true) : jitterEnd c = c := by
  rcases h with h | h <;> simp [jitterEnd, h]

end Sys2Proof.Machine
end

section
/-! ## Proofs: beat boundaries and the guard

The obligation's clauses from the lemmas above: the boundary (R19), its new beat (R17), the end of a step (R22, R23), the plan (R22, R299), and
local boundaries, the guard and jitter (R257, R456, R468). -/

namespace Sys2Proof.Machine

/-! ### The clauses of the end of a step -/

section
variable {fault missed : Bool} {c : Ctl} (h : commitBeat c = true)
include h

/-- A step that nothing abandons is sealed. -/
theorem endStep_seals (hf : fault = false) (hm : missed = false) (ha : voteAbandons (decidingVote c) = false) :
    endStep fault missed c = ⟨sealStep (getF c R.STEP_NOW.STEP) ((decidingVote c).getLsbD trNonfin) c,
      planAfter (sealStep (getF c R.STEP_NOW.STEP) ((decidingVote c).getLsbD trNonfin) c) (getF c R.STEP_NOW.STEP), some (getF c R.STEP_NOW.STEP)⟩ := by
  subst hf hm
  exact endStep_of_sealed h ha

theorem stepOver_endStep : StepOver (endStep fault missed c).c := by
  by_cases ha : fault = true ∨ missed = true ∨ voteAbandons (decidingVote c) = true
  · rw [endStep_of_abandoned fault missed h ha]
    split
    · exact stepOver_abandonStep _
    · split
      · exact (stepOver_abandonStep _).of_view rfl
      · exact stepOver_abandonStep _
  · simp only [not_or, Bool.not_eq_true] at ha
    obtain ⟨hf, hm, hv⟩ := ha
    rw [endStep_seals h hf hm hv]
    exact stepOver_sealStep _ _ c

section
variable (ha : fault = true ∨ missed = true ∨ voteAbandons (decidingVote c) = true)
include ha

theorem endStep_abandons : (endStep fault missed c).sealed = none ∧
    getF (endStep fault missed c).c R.STEP_SEALED.STEP = getF c R.STEP_SEALED.STEP := by
  rw [endStep_of_abandoned fault missed h ha]
  split
  · exact ⟨rfl, sealed_abandonCounted c⟩
  · split
    · exact ⟨rfl, sealed_abandonCounted c⟩
    · exact ⟨rfl, sealed_abandonCounted c⟩

/-- STOP in the latched vote halts the job (R297). -/
theorem endStep_halts (hl : voteLatched c = true) (hs : (decidingVote c).getLsbD trStop = true) :
    (endStep fault missed c).plan = .halt (some (getF c R.STEP_NOW.STEP)) := by
  have halts : voteHalts (decidingVote c) = true := by simp [voteHalts, hs]
  rw [endStep_of_abandoned fault missed h ha, hl, halts]
  rfl

/-- CKFAIL without STOP in the latched vote leads to recovery (R297). -/
theorem endStep_recovers_ckfail (hl : voteLatched c = true) (hs : (decidingVote c).getLsbD trStop = false)
    (hk : (decidingVote c).getLsbD trCkfail = true) : (endStep fault missed c).plan = .recover (getF c R.STEP_NOW.STEP) := by
  have halts : voteHalts (decidingVote c) = false := by simp [voteHalts, hs, hk]
  have abandons : voteAbandons (decidingVote c) = true := by simp [voteAbandons, hk]
  rw [endStep_of_abandoned fault missed h ha, hl, halts, abandons]
  simp

/-- A commit fault alone leads to recovery (R23). -/
theorem endStep_recovers_fault (hm : missed = false) (hv : voteAbandons (decidingVote c) = false) :
    (endStep fault missed c).plan = .recover (getF c R.STEP_NOW.STEP) := by
  rw [endStep_of_abandoned fault missed h ha, not_voteHalts hv, hm]
  simp

/-- Without TIME_DOWN alone the job goes on, with CKFAIL owed to the next step (R261). -/
theorem endStep_goes_on (hm : missed = true) (hv : voteAbandons (decidingVote c) = false) :
    (endStep fault missed c).plan = (if getF c R.STEP_NOW.STEP < lastOpened c then .next (getF c R.STEP_NOW.STEP + 1) else .stay) ∧
      (endStep fault missed c).c.step.ckNext = true := by
  have next := planAfter_of_job (job_abandonCounted c) (getF c R.STEP_NOW.STEP)
  rw [endStep_of_abandoned fault missed h ha, not_voteHalts hv, hv, hm]
  simp [next]

end

end

/-- Settles O33: each clause is one function of the device or of its control state, and the words of the step are followed through it. -/
theorem boundariesAndGuard : Obligations.BoundariesAndGuard := by
  unfold Obligations.BoundariesAndGuard
  refine ⟨fun s r hr ht => ⟨fun hd hh => ?boundary, fun hd hh => ?hot, fun hd => ?early⟩, latchBeat_words,
    fun fault missed c => ⟨fun h => ?inner, fun h => ?gone, fun h hf hm ha => ?seals, fun h hx => ?abandons⟩, runPlan_plans, fun s cycle hr => ⟨fun ht hb hj => ?begins, fun h => ?inJob, fun hb hg => ?guard,
    fun h => ?guarded, fun hj hg => ?jitter, fun h => ?none⟩⟩
  case boundary =>
    rw [exec_beatBoundary hr, beatBoundary_of_due ht hd hh, runBoundary_eq, boundaryFinish_eq]
  case hot => rw [exec_beatBoundary hr, beatBoundary_of_hot ht hd hh, exec_overtempOff]
  case early =>
    rw [exec_beatBoundary hr, beatBoundary_of_early ht hd]
    rfl
  case inner => exact endStep_of_inner fault missed h
  case gone => exact stepOver_endStep h
  case seals =>
    rw [endStep_seals h hf hm ha]
    refine ⟨rfl, planAfter_of_job (job_sealStep _ _ c) _, sealed_sealStep (getF_lt c R.STEP_NOW.STEP) _ c, fun hn => ?clean, fun hn room => ?skipped⟩
    case clean =>
      rw [hn]
      exact skips_sealStep_clean _ c
    case skipped =>
      rw [hn]
      exact skips_sealStep_skipped _ room
  case abandons =>
    obtain ⟨unsealed, kept⟩ := endStep_abandons h hx
    exact ⟨unsealed, kept, endStep_halts h hx, endStep_recovers_ckfail h hx, endStep_recovers_fault h hx, endStep_goes_on h hx⟩
  case begins =>
    rw [exec_localBeatBoundary hr, localBoundary_of_local ht hb hj]
    simp only [rootJoin_eq]
    rfl
  case inJob =>
    rw [exec_localBeatBoundary hr, localBoundary_of_job h]
    rfl
  case guard =>
    rw [exec_guardStart hr, guardStart_of_beat hb hg]
    rfl
  case guarded =>
    rw [exec_guardStart hr, guardStart_of_guard h]
    rfl
  case jitter => rw [exec_jitteredSegmentStart hr, jitterEnd_of_jitter hj hg]
  case none =>
    rw [exec_jitteredSegmentStart hr, jitterEnd_of_none h]
    rfl

end Sys2Proof.Machine
end
